-- ==== Sys2Proof/Word.lean ====
section
/-! DEFINITION. The word types of the TS62 model: bytes, 32-bit words, 64-byte lines, and the plain number types. -/

namespace Sys2Proof

/-- A byte. -/
abbrev Byte := BitVec 8

/-- A register, version, hoop counter, epoch or digest (00 R4, R7; 06 R296; 05 R253). -/
abbrev Word := BitVec 32

/-- The 64 bytes of a line; byte `i` is bits `8i+7 … 8i` (06 Model, 00 "A line is always 64 bytes"). -/
abbrev Line := BitVec 512

/-- A phase: 24 bits of pu and 8 fraction bits (02 R53). -/
abbrev Phase := BitVec 32

/-- A sharer vector: bit `k-1` stands for node number `k` (01 R25). -/
abbrev Sharers := BitVec 62

/-- A sparse table keyed by a number, keys rising. -/
abbrev Table (α : Type) := List (Nat × α)

end Sys2Proof
end

