-- ==== Sys2Proof/Syntax.lean ====
section
/-! DEFINITION. The commands of the block: one constructor of `Instr` per row of spec/opcode_table.json, and the data the
rows carry (messages, frames, register accesses, pin and bus events). -/

namespace Sys2Proof

/-- The three lanes (03). -/
inductive LaneId where
  | a | b | c
  deriving DecidableEq, Repr

/-- The two physical sides of a lane (03 R125). -/
inductive Side where
  | e1 | e2
  deriving DecidableEq, Repr

/-- The data classes of a stream (01 R27); C3 never carries Adezo frames. -/
inductive Cls where
  | c0 | c1 | c2
  deriving DecidableEq, Repr

/-- Lane modes of a stitch (03 R159). -/
inductive LMode where
  | single | dual | split | triple
  deriving DecidableEq, Repr

/-- Line message types 01h–33h (03 R140). -/
inductive MsgType where
  | rdShared | rdOwn | ownNodata | wrPublish | wrMasked | atomicReq | lockReq | unlockReq | subReq | unsubReq
  | writeback | evictClean | readHome
  | dataShared | dataOwn | grantOwn | update | invalidate | recall | ack | nakRetry | atomicResult | leaseGrant | leaseBreak
  | invAck | recallData | recallNodata
  | migLine | migDir | migDone
  deriving DecidableEq, Repr

/-- A line message (03 R142): the 16-byte header, the 64 data bytes where the type has them, the mask of WR_MASKED. -/
structure LineMsg where
  typ : MsgType
  /-- CLS, the class of the stream that carries it, 2 bits. -/
  cls : Cls := .c0
  /-- DST: 0 the home of LA, 1–62 one node, 63 every node. -/
  dst : Nat := 0
  elder : Bool := false
  replay : Bool := false
  /-- TRK, 10 bits. -/
  trk : Nat := 0
  /-- TEN, 3 bits. -/
  ten : Nat := 0
  /-- FLG bits [15:13] of the header, as bits 2–0 (06 R292). -/
  flg : BitVec 3 := 0
  /-- LA, 24 bits. -/
  la : Nat := 0
  /-- AGE in rows, saturating at 255. -/
  age : Nat := 0
  version : Word := 0
  param : Word := 0
  data : Line := 0
  mask : BitVec 64 := 0
  deriving DecidableEq, Repr

/-- REFERENCE (38h), 02 R83. -/
structure RefMsg where
  tier : Nat := 0
  masterHk : Nat := 0
  /-- NROW code: 0 = 4, 1 = 8, 2 = 16 rows per hoop. -/
  nrow : Nat := 0
  nom : Bool := false
  locked : Bool := false
  row : Nat := 0
  rank : Nat := 0
  mhold : Bool := false
  rseq : Nat := 0
  hoop : Word := 0
  /-- PERIOD in 0.25 ns units. -/
  period : Nat := 0
  /-- TXOFS in 0.125 ns units. -/
  txofs : Nat := 0
  deriving DecidableEq, Repr

/-- TRUE (39h), 02 R84. -/
structure TrueMsg where
  tsrc : Nat := 0
  tvalid : Bool := false
  rot : Bool := false
  inlb : Bool := false
  /-- TPHASE and TPFRAC together: 24.8 bits. -/
  tphase : Phase := 0
  /-- TPERIOD in 0.25 ns units. -/
  tperiod : Nat := 0
  thoop : Word := 0
  deriving DecidableEq, Repr

/-- ORIGIN (3Ah), 03 R171. -/
structure OriginMsg where
  yvE1 : Bool := false
  yvE2 : Bool := false
  yE1 : Nat := 0
  yE2 : Nat := 0
  deriving DecidableEq, Repr

/-- RANGE (3Bh), 03 R173. Stamps in 0.125 ns units modulo 2^32; ASYM signed 16 bits. -/
structure RangeMsg where
  yvalid : Bool := false
  prevv : Bool := false
  fin : Bool := false
  rseq : Nat := 0
  asym : BitVec 16 := 0
  y : Word := 0
  txp : Word := 0
  rxp : Word := 0
  deriving DecidableEq, Repr

/-- One entry of a discovery wave (05 R240). -/
structure DiscEntry where
  hk : Nat := 0
  vmin : Nat := 0
  vmax : Nat := 0
  cab : Bool := false
  memb : Bool := false
  deriving DecidableEq, Repr

/-- DISC (3Ch), 05 R240; `count` is the COUNT field as received. -/
structure DiscMsg where
  complete : Bool := false
  last : Bool := false
  first : Nat := 0
  count : Nat := 0
  entries : List DiscEntry := []
  deriving DecidableEq, Repr

/-- INAUG (3Dh), 05 R236, fields as laid out there. -/
structure InaugMsg where
  step : Nat := 0
  cause : Nat := 0
  num : Nat := 0
  hk : Nat := 0
  f1 : Word := 0
  f2 : Nat := 0
  f3 : Nat := 0
  f4 : Nat := 0
  f5 : Nat := 0
  f6 : Nat := 0
  f7 : Nat := 0
  unit : Nat := 0
  deriving DecidableEq, Repr

/-- PAT_SWITCH (3Eh), 04 R216; TARGET 80h + ROLE for a role claim (10 R545). -/
structure PatMsg where
  step : Nat := 0
  reason : Nat := 0
  target : Nat := 0
  proposer : Nat := 0
  phoop : Word := 0
  digest : Word := 0
  subject : Nat := 0
  deriving DecidableEq, Repr

/-- DIGEST (3Fh), 05 R248. -/
structure DigestMsg where
  part : Bool := false
  va : Bool := false
  vb : Bool := false
  pref : Nat := 0
  pen : Nat := 0
  da : Word := 0
  db : Word := 0
  listd : Word := 0
  deriving DecidableEq, Repr

/-- A message of a frame. -/
inductive Msg where
  | line (m : LineMsg)
  | reference (m : RefMsg)
  | trueP (m : TrueMsg)
  | origin (m : OriginMsg)
  | range (m : RangeMsg)
  | disc (m : DiscMsg)
  | inaug (m : InaugMsg)
  | patSwitch (m : PatMsg)
  | digest (m : DigestMsg)
  deriving DecidableEq, Repr

/-- Adezo frame header (03 R138). -/
structure FrameHdr where
  pver : Nat := 1
  /-- 0 pattern frame, 1 data, 2 ranging, 3 inauguration. -/
  kind : Nat := 1
  /-- 0 C0, 1 C1, 2 C2, 3 control. -/
  cls : Nat := 0
  src : Nat := 0
  lmode : LMode := .single
  srcHk : Nat := 0
  lane : LaneId := .a
  side : Side := .e1
  epoch : Word := 0
  stitch : Nat := 0
  row : Nat := 0
  pat : Nat := 0
  fseq : Nat := 0
  mlen : Nat := 0
  mcount : Nat := 0
  pdigest : Word := 0
  hoop : Word := 0
  deriving DecidableEq, Repr

/-- A frame: header and whole messages. -/
structure Frame where
  hdr : FrameHdr
  msgs : List Msg
  deriving DecidableEq, Repr

/-- A frame as it arrives at a side: its bytes from the destination address to the end-to-end CRC (03 R135), and whether the
link's FCS, which follows them on the wire, passed (03 R147, R148). -/
structure RawFrame where
  lane : LaneId
  side : Side
  bytes : List Byte
  fcsOk : Bool
  deriving DecidableEq, Repr

/-- A line message handed to the coherence engine, with its sender. -/
structure Rx where
  /-- Sender's node number. -/
  src : Nat
  /-- Sender's home key (03 R138 SRC_HK; the origin home key of 05 R265). -/
  srcHk : Nat := 0
  /-- The lane whose copy was delivered. -/
  lane : LaneId := .a
  /-- It came in a migration stitch (05 R272). -/
  mig : Bool := false
  msg : LineMsg
  deriving DecidableEq, Repr

/-- Who makes a register access: the steward window over PCIe, a tenant's own window, or the debug port. -/
inductive Who where
  | steward
  | tenant (n : Nat)
  | debug
  deriving DecidableEq, Repr

/-- How a DMA read ended (09 R436). -/
inductive DmaResult where
  | data (bytes : List Byte)
  | failed
  deriving DecidableEq, Repr

/-- PCIe resets of a function (09 R437). -/
inductive PcieReset where
  | flr | d3ToD0 | hotReset | linkDown
  deriving DecidableEq, Repr

/-- A write to PCIe configuration space that the node acts on (09 R431, 12 R607). -/
inductive PcieCfg where
  | vfEnable (on : Bool)
  | memSpace (fn : Nat) (on : Bool)
  | msixEnable (fn : Nat) (on : Bool)
  | msixFnMask (fn : Nat) (on : Bool)
  | msixVecMask (fn vec : Nat) (on : Bool)
  deriving DecidableEq, Repr

/-- A CAN frame on a car bus (11 R561). -/
structure CanFrame where
  id : Nat
  ide : Bool := false
  rtr : Bool := false
  fdf : Bool := false
  brs : Bool := false
  esi : Bool := false
  dlc : Nat := 0
  data : List Byte := []
  deriving DecidableEq, Repr

/-- A quad-SPI frame up to the CS# rising edge (09 R439). `bits` counts whole bytes the master clocked as data;
`crc` is what the master sent, on write frames with CRC enabled. -/
structure SpiFrame where
  port : Nat
  width : Nat := 0
  a : Nat := 0
  len : Nat := 0
  data : List Byte := []
  crc : Option (BitVec 16) := none
  deriving DecidableEq, Repr

/-- The six rails' events: which rail fell or rose (14 R685). -/
inductive Rail where
  | core | a18 | io33 | rg
  deriving DecidableEq, Repr

/-- Which store a scrub step reads (08 R410), and what its ECC found. -/
inductive ScrubFind where
  | clean
  | correctable
  | uncorrectable
  | tagError          -- copy cache: tag parity or differing state copies (08 R396)
  | metaBoth          -- home store: both metadata copies uncorrectable (08 R405)
  deriving DecidableEq, Repr

inductive ScrubStore where
  | copyCache | homeStore | filter
  deriving DecidableEq, Repr

/-- The commands: one constructor per row of spec/opcode_table.json, in the table's order. -/
inductive Instr where
  -- Jobs: the tenant command held in bobbin `b` is performed (10).
  | read (b : Nat)
  | readFresh (b : Nat)
  | readBlock (b : Nat)
  | write (b : Nat)
  | writeMasked (b : Nat)
  | writeBlock (b : Nat)
  | zeroLine (b : Nat)
  | claim (b : Nat)
  | release (b : Nat)
  | atomic (b : Nat)
  | lock (b : Nat)
  | unlock (b : Nat)
  | subscribe (b : Nat)
  | unsubscribe (b : Nat)
  | flush (b : Nat)
  | invalidate (b : Nat)
  | clean (b : Nat)
  | pin (b : Nat)
  | unpin (b : Nat)
  | prefetch (b : Nat)
  | mapRegion (b : Nat)
  | unmapRegion (b : Nat)
  | setAttr (b : Nat)
  | bindCan (b : Nat)
  | unbindCan (b : Nat)
  | queryRegion (b : Nat)
  | readPhase (b : Nat)
  | waitPhase (b : Nat)
  | picotArm (b : Nat)
  | picotCancel (b : Nat)
  | setMainsSource (b : Nat)
  | readTopology (b : Nat)
  | inaugRequest (b : Nat)
  | patternPropose (b : Nat)
  | patternQuery (b : Nat)
  | roleQuery (b : Nat)
  | roleClaim (b : Nat)
  | loadPricking (b : Nat)
  | counterRead (b : Nat)
  | sampleDrain (b : Nat)
  | clampLogRead (b : Nat)
  | inject (b : Nat)
  | bistSchedule (b : Nat)
  | bistResult (b : Nat)
  | shutdown (b : Nat)
  | echo (b : Nat)
  | badOpcode (t : Nat)
  | jobFetch
  | commandTimeout (b : Nat)
  | waitPhaseReached (b : Nat)
  -- Line messages that reach this node (06).
  | rdShared (r : Rx)
  | rdOwn (r : Rx)
  | ownNodata (r : Rx)
  | wrPublish (r : Rx)
  | wrMasked (r : Rx)
  | atomicReq (r : Rx)
  | lockReq (r : Rx)
  | unlockReq (r : Rx)
  | subReq (r : Rx)
  | unsubReq (r : Rx)
  | writeback (r : Rx)
  | evictClean (r : Rx)
  | readHome (r : Rx)
  | homeFifoNext (la : Nat)
  | dataShared (r : Rx)
  | dataOwn (r : Rx)
  | grantOwn (r : Rx)
  | update (r : Rx)
  | invalidateMsg (r : Rx)
  | recall (r : Rx)
  | ack (r : Rx)
  | nakRetry (r : Rx)
  | atomicResult (r : Rx)
  | leaseGrant (r : Rx)
  | leaseBreak (r : Rx)
  | invAck (r : Rx)
  | recallData (r : Rx)
  | recallNodata (r : Rx)
  | migLine (r : Rx)
  | migDir (r : Rx)
  | migDone (r : Rx)
  | requestResend (b : Nat)
  | homeResend (trk : Nat)
  | leaseExpiry (la : Nat)
  | heldLineRelease (la : Nat)
  -- Lanes (03).
  | adezoFrameReceive (f : RawFrame)
  | frameRepeat (f : RawFrame)
  | heldRepeatSend (l : LaneId) (sd : Side)
  | reorderTimeout (src : Nat) (c : Cls)
  | foreignFrameReceive (l : LaneId) (sd : Side) (bytes : List Byte)
  | foreignWindowStart (l : LaneId)
  | macControlFrame (l : LaneId) (sd : Side)
  | rowStart
  | hoopBoundary
  | ownStitchStart (stitch : Nat)
  | delayedLaunch (l : LaneId) (sd : Side)
  | migrationRetry (role : Nat)
  | rangingStitchStart (l : LaneId)
  | range (l : LaneId) (sd : Side) (m : RangeMsg)
  | rangingFallback (l : LaneId) (sd : Side)
  | rangingMiss (l : LaneId) (sd : Side)
  | disc (l : LaneId) (sd : Side) (ms : List DiscMsg)
  -- Time (02). `rowAt`, `trueAt`: the node's own phases at the SFD stamp (R168), for R89.
  | reference (l : LaneId) (sd : Side) (hdrSide : Side) (r : RefMsg) (t : TrueMsg) (o : OriginMsg)
      (rowAt trueAt : Phase)
  | referenceMissed
  | holdoverLimit
  | tvalidLossTimeout
  | zxEdge (input : Nat) (rising : Bool)
  | zxInputMissing (input : Nat)
  | tenPhin (t : Nat) (v : Word)
  | picotCapture (ch : Nat) (rising : Bool) (ord : Bool)
  | picotOutputEdge (ch : Nat)
  | picCapPop (ch : Nat) (v : Word)
  | phtSnap (v : Word)
  -- Inauguration and pattern switching (05, 04).
  | call (fromRanging : Bool) (m : InaugMsg)
  | inaugClaim (src : Nat) (m : InaugMsg)
  | digest (src : Nat) (m : DigestMsg)
  | confirm (src : Nat) (m : InaugMsg)
  | drained (src : Nat) (m : InaugMsg)
  | statusAgreed (m : InaugMsg)
  | statusCut (m : InaugMsg)
  | statusResume (m : InaugMsg)
  | agreementTimeout
  | drainLimit
  | isolationRetry
  | patSwitchPropose (src : Nat) (m : PatMsg)
  | patSwitchAck (src : Nat) (m : PatMsg)
  | patSwitchNack (src : Nat) (m : PatMsg)
  | patSwitchGo (m : PatMsg)
  | patSwitchCancel (m : PatMsg)
  -- Links (03, 05).
  | mdioPoll (l : LaneId) (sd : Side) (data : BitVec 16) (rxc : Bool) (mbps1000 : Bool)
  | rxcLoss (l : LaneId) (sd : Side)
  | linkConfirmed (l : LaneId) (sd : Side)
  | couplerEdge (carEnd : Nat) (level : Bool)
  | relaySettle (l : LaneId)
  | lanMdioCmd (v : Word)
  | lanEnableWrite (w : Who) (l : LaneId) (v : Word)
  | bypForceWrite (w : Who) (l : LaneId) (v : Word)
  | laneSpeedWrite (w : Who) (l : LaneId) (v : Word)
  | patStageHold (w : Who) (v : Word)
  -- Registers and events (00, 12).
  | registerWrite (w : Who) (off : Nat) (v : Word)
  | accessAlign (w : Who) (off : Nat) (wr : Bool)
  | rcRead (w : Who) (off : Nat)
  | pmcLoRead (w : Who) (off : Nat)
  | pmcSelWrite (w : Who) (off : Nat) (v : Word)
  | pmcCtrlClr (w : Who) (v : Word)
  | evtPendClear (w : Who) (j : Nat) (v : Word)
  | msixGapEnd (fn vec : Nat)
  | irqcoalTime (t : Nat)
  -- Tenants (09).
  | tenDb (t : Nat) (v : Word)
  | tenCqdb (t : Nat) (v : Word)
  | cqHeadPoll (t : Nat)
  | tenRctlWrite (t : Nat) (v : Word)
  | tenantEnableWrite (t : Nat) (v : Word)
  | freset (t : Nat) (v : Word)
  | tenantResetTimeout (t : Nat)
  | resetDone (t : Nat)
  | pcieFunctionReset (kind : PcieReset) (fn : Nat)
  | perstAssert
  | dmaReadComplete (id : Nat) (r : DmaResult)
  | ramWrite (f : SpiFrame)
  | ramRead (f : SpiFrame)
  | regWrite (f : SpiFrame)
  | regRead (f : SpiFrame)
  | status (f : SpiFrame)
  | portReset (f : SpiFrame)
  -- Car bus (11).
  | canFrameReceived (port : Nat) (f : CanFrame) (tsc : Word) (excRes : Bool)
  | txDone (port : Nat) (tsc : Word)
  | txAborted (port : Nat)
  | errFrame (port : Nat) (code : Nat) (tec rec : Nat)
  | busOn (port : Nat)
  | boreq (port : Nat)
  | confRequest (port : Nat) (v : Word)
  | confDone (port : Nat)
  | confRefused (port : Nat) (off : Nat)
  | confLeave (port : Nat) (v : Word)
  | integrationDone (port : Nat)
  | objLock (port obj : Nat)
  | objUnlock (port obj : Nat)
  | txreq (port obj : Nat)
  | txcancel (port obj : Nat)
  | objClear (port obj : Nat)
  | qtxRequest (port buf : Nat)
  | qtxCancel (port buf : Nat)
  | rxqAck (port q m : Nat)
  | bindRxWrite (ix : Nat)
  | bindTxLoad (port : Nat)
  -- Integrity and stores (13, 08).
  | detectorFire (d : Nat) (index : Nat) (value : Word) (injected : Bool)
  | watchdogExpiry
  | ccWindowEnd
  | wayctlDrain (q : Nat) (way : Nat)
  | wayctlOn (q : Nat) (way : Nat)
  | ccWayOff (q : Nat) (way : Nat)
  | scrubStep (st : ScrubStore) (r : ScrubFind)
  | keeRead (page : Nat)
  | keeWrite (page : Nat)
  | keeVerify
  | keepPageWriteDone (same : Bool) (hot : Bool)
  | keepDailyRead (page : Nat) (r : ScrubFind)
  | clampLogPersist
  | intClampClear (v : Word)
  -- Power, pins and start (14, 13).
  | powerUpStart (straps : BitVec 4)
  | railFall (r : Rail)
  | resetAssert
  | glbReset (w : Who) (v : Word)
  | startComplete (lbFail : BitVec 12) (mbFail : BitVec 20) (wqFail : BitVec 64)
  | glbRun (v : Word)
  | glbAutostartWrite (w : Who) (v : Word)
  | shdnReq
  | sentLow
  /-- Times of the BIST rows in 0.1 ms: since SENT fell, and what the BIST still needs. -/
  | bistDecision (sinceSent : Nat)
  | logicBistDone (fail : BitVec 12)
  | memoryBistDone (fail : BitVec 20) (wq : BitVec 64)
  | bistHoldupAbort (elapsed stillNeeded : Nat)
  | pinMuxWrite (w : Who) (k : Nat) (v : Word)
  | pinTick
  | glbClkgateWrite (w : Who) (j : Nat) (v : Word)
  -- Debug port (12).
  | dapacc (addr : Nat) (wr take : Bool) (data : Word)
  | dbgHalt
  | dbgResume
  | dbgStep
  | dbgHaltLong
  -- The table's last rows.
  | mdioFrameDone (rdata : BitVec 16)
  | spiFrameInvalid (port : Nat)
  | pcieConfigWrite (c : PcieCfg)
  | pcieLinkUp
  | postedWriteCredit
  | rgmiiRailBack
  | trueHoopBoundary
  | ctcInputChange (level : Bool)
  | laneCopyTimeout (kind stitch : Nat)
  | keepReadDone (r : ScrubFind)
  | ledBlink (fault : Bool)
  | pmcCycleWrap (ix : Nat)
  deriving DecidableEq, Repr

end Sys2Proof
end

