-- ==== Sys2Proof/Config.lean ====
section
/-! DEFINITION. What an implementation fixes and the values the spec leaves open. Every `opaque` constant here is a FREE
VALUE: it has no body, nothing can evaluate it, and a statement about it holds for every value. -/

namespace Sys2Proof

/-- FREE VALUE (log 10). The phase correction, in 1/256 pu modulo 2^32, that the follower loop applies to the row phase at one
reference: 02 R69 gives the loop's bandwidth and 02 R89 its error, no rule gives its coefficients. Arguments: bandwidth code,
error of R89, count of corrections drawn so far. -/
opaque Config.followerTrim : Nat → BitVec 32 → Nat → BitVec 32

/-- FREE VALUE (log 10). As `followerTrim`, for the true phase (`terr` of 02 R89). -/
opaque Config.trueTrim : Nat → BitVec 32 → Nat → BitVec 32

/-- FREE VALUE (log 10). The true-hoop period by which a master steers its true phase toward its mains loop (02 R80: never by a step).
Arguments: bandwidth code, the loop's period, loop phase less true phase in 1/256 pu, count of draws. -/
opaque Config.trueSteer : Nat → Nat → BitVec 32 → Nat → Nat

/-- FREE VALUE (log 115). Whether the mains frequency holds or ramps steadily at a sample (02 R68: outside the two hoops after a ramp starts or
stops): the mains are the outside's. Argument: count of draws. -/
opaque Config.mainsSteady : Nat → Bool

/-- FREE VALUE (log 10). The phase correction and the period that the third-order mains loop takes from one sample
(02 R68, R69). Arguments: bandwidth code, sample less loop phase in 1/256 pu, count of samples. -/
opaque Config.mainsTrim : Nat → BitVec 32 → Nat → BitVec 32
opaque Config.mainsPeriod : Nat → BitVec 32 → Nat → Nat

/-- FREE VALUE (log 11). Row-hoop period the master steers to at a row start, before the limits of 02 R93 and R94 are applied:
the rules bound the steering and do not give it. Arguments: present row period, true period, phase difference, count. -/
opaque Config.masterSteer : Nat → Nat → BitVec 32 → Nat → Nat

/-- FREE VALUE (log 12). Whether an ECDSA P-256 signature over a firmware patch image verifies under the public key in fuse ROM
(08 R416): the key is not in the spec. Argument: the image's bytes. -/
opaque Config.patchSigOk : List (BitVec 8) → Bool

/-- FREE VALUE (log 13). The 64-bit MISR signature of a logic-BIST partition (13 R651). Arguments: partition, SEQ of the record. -/
opaque Config.misr : Nat → BitVec 32 → BitVec 64

/-- FREE VALUE (log 13). The time a BIST took, in 10 µs units (13 R659; R651 and R652 only bound it). Arguments: 0 logic, 1 memory; SEQ
of the record. -/
opaque Config.bistTime : Nat → BitVec 32 → BitVec 16

/-- FREE VALUE (log 14). Result field of an OK_REPLAYED atomic (05 R265: not valid). Argument: count of draws. -/
opaque Config.replayedResult : Nat → BitVec 64

/-- FREE VALUE (log 15). The signed die temperature in 1/16 degree that INT_TJ reports (13 R669). Argument: the local clock at the reading. -/
opaque Config.tj : Nat → BitVec 16

/-- FREE VALUE (log 15). Wear count of a keep-store page before this model's writes (08 R420: hidden spare bits, no reset value). -/
opaque Config.wearBase : Nat → Nat

/-- FREE VALUE (log 16). The start duration in 10 µs units that GLB_STARTT shows (14 R712): 01 R40 only bounds it. Argument: 1 for a
fast start. -/
opaque Config.startDuration : Nat → Nat

/-- FREE VALUE (log 17). The levels that PIN_SWIN reads on multiplexed pins that the node does not drive (14 R712): the
outside sets them. Argument: the local clock at the reading. -/
opaque Config.pinInput : Nat → BitVec 30

/-- FREE VALUE (log 18). Bit `d` of the clock monitor: domain `d` shows no edge for 1 µs (14 R697), for source clocks that the
outside drives (RXC, SCK, TCK, PCIe). Arguments: domain, the local clock at the reading. -/
opaque Config.clockStopped : Nat → Nat → Bool

/-- FREE VALUE (log 19). What a malformed job (09 R451, R463) does is undefined; the status it completes with, when the machine
goes on, is any. Argument: count of draws. -/
opaque Config.malformedStatus : Nat → BitVec 8

/-- FREE VALUE (log 48). The transmitter delay that a car-bus port measures in an FD frame it sends, in CAN80 cycles (11 R565): the
transceiver and the bus set it. Arguments: port, time stamp of the frame. -/
opaque Config.tdcDelay : Nat → BitVec 32 → BitVec 7

end Sys2Proof
end

