-- ==== Sys2Proof/Machine/State.lean ====
section
/-! DEFINITION. The state of the block: every register, FIFO, buffer, counter, mode and pin the spec gives it, as plain data,
the queue of waiting commands, the reasons to stop, and the state after reset. -/

namespace Sys2Proof.Machine

/-- Memory: (address, byte) pairs, addresses rising, no byte equal to 0 (what an unlisted address reads as, log 2). -/
abbrev Mem := List Host.Cell

/-- Reasons to stop with a fault. -/
inductive Fault where
  /-- No command of this model raises it; it is kept so that the type is inhabited. Safe. -/
  | none
  deriving DecidableEq, Repr

/-- Reasons to refuse a command. -/
inductive Refusal where
  /-- The dispatcher's answer for a command that has no meaning yet. Safe. -/
  | notModelled (mnemonic : String)
  deriving DecidableEq, Repr

/-- Device states (01 R42), coded as GLB_STATE; `off` is 0. -/
inductive DevState where
  | off | start | standby | acquire | run | inaug | shutdown | safe
  deriving DecidableEq, Repr

/-- Membership states (01 R46), coded as TRN_STAT.MEMB. -/
inductive Memb where
  | unnumbered | joining | member | listenOnly | isolated
  deriving DecidableEq, Repr

/-- Time states (02 R73), coded as PHT_LOCKSTAT.TSTATE. -/
inductive TState where
  | free | acquire | sync | holdover
  deriving DecidableEq, Repr

/-- Link states of a side (03 R185, R130), coded as LAN_STAT. -/
inductive Link where
  | down | up | gated | spderr
  deriving DecidableEq, Repr

/-- Copy states at a requester (06 R299). -/
inductive CState where
  | i | s | e | m | p | is | im | sm | ip | mi | ci
  deriving DecidableEq, Repr

/-- Stored home states of a filter entry (06 R303, R317). -/
inductive FState where
  | sh | ex | pub
  deriving DecidableEq, Repr

/-- The use of a queued message's stitch (04 R198 USE, 03 R272): request, response, home-originated, migration. -/
inductive Use where
  | req | rsp | hom | mig
  deriving DecidableEq, Repr

/-- Outputs of the node, in the order they were made (the model's own record; log 3). -/
inductive Out where
  /-- A frame launched on a side: destination address to end-to-end CRC; its FCS good. -/
  | frame (lane : LaneId) (side : Side) (bytes : List Byte)
  /-- A repeated frame; `fcsOk = false` is a stomped frame (03 R147). -/
  | repeated (lane : LaneId) (side : Side) (bytes : List Byte) (fcsOk : Bool)
  /-- A foreign frame sent (03 R180, R182); `fcsOk = false` is a stomped frame (03 R147). -/
  | foreign (lane : LaneId) (side : Side) (bytes : List Byte) (fcsOk : Bool)
  /-- A DMA write of a PCIe tenant (09 R467). -/
  | hostWrite (fn : Nat) (addr : Nat) (bytes : List Byte)
  /-- A DMA read request (09 R435). -/
  | hostRead (fn : Nat) (id : Nat) (addr : Nat) (len : Nat)
  /-- An MSI-X message (12 R607). -/
  | msix (fn : Nat) (vec : Nat)
  /-- A CAN frame offered to arbitration (11 R576). -/
  | can (port : Nat) (f : CanFrame)
  /-- An MDIO frame begun, by the steward's command (03 R134) or by a poll (03 R133), in the layout of LAN_MDIO_CMD. -/
  | mdio (cmd : Word)
  /-- Data a quad-SPI read frame returned (09 R443), with its CRC where enabled. -/
  | spi (port : Nat) (bytes : List Byte)
  /-- A register read's value, over PCIe or the debug port. -/
  | regData (off : Nat) (v : Word)
  deriving DecidableEq, Repr

/-- Phase time unit (02). Times in 0.125 ns units of the local clock, phases in 1/256 pu. -/
structure TimeSt where
  /-- Nat. Local clock in 0.125 ns units: the model's own, advanced by an idle step (log 4). DESIGN CHOICE 0 (log 4). -/
  clk : Nat := 0
  /-- Nat. Clock value at the row-phase anchor: model's own (log 4). DESIGN CHOICE 0 (log 4). -/
  rowClk : Nat := 0
  /-- 32 bits (24.8). Row phase at the anchor; 02 R53; reset 0 (02 R80: starts at phase 0 of hoop 0). -/
  rowPh : Phase := 0
  /-- Nat. Clock value at the true-phase anchor: model's own (log 4). DESIGN CHOICE 0 (log 4). -/
  trueClk : Nat := 0
  /-- 32 bits (24.8). True phase at the anchor; 02 R53; reset 0 (02 R80). -/
  truePh : Phase := 0
  /-- 32 bits. Row-hoop counter; 00 R4, 02 PHT_HOOP; reset 0 (02 R80). -/
  hoop : Word := 0
  /-- 32 bits. True-hoop counter; 02 R53, PHT_THOOP; reset 0 (02 R80). -/
  thoop : Word := 0
  /-- 32 bits. Row-hoop period, 0.25 ns units; 02 PHT_PERIOD, R94 (nominal 80000000 at 50 Hz). DESIGN CHOICE 80000000 (log 1). -/
  period : Nat := 80000000
  /-- 32 bits. True-hoop period; 02 PHT_TPERIOD. DESIGN CHOICE 80000000 (log 1). -/
  tperiod : Nat := 80000000
  /-- 4 bits. Row index within the hoop; 02 R83. DESIGN CHOICE 0 (log 1). -/
  row : Nat := 0
  /-- Nat. Rows begun since reset: model's own, for every rule that counts rows (log 4). DESIGN CHOICE 0 (log 4). -/
  rows : Nat := 0
  /-- 2 bits. Time state; 02 R73, PHT_LOCKSTAT.TSTATE; reset FREE (02 R121). -/
  tstate : TState := .free
  /-- 1 bit. Coarse lock; 02 R71, PHT_LOCKSTAT; reset 0. -/
  coarse : Bool := false
  /-- 1 bit. The node sends references; 02 PHT_LOCKSTAT.MASTER; reset 0. -/
  master : Bool := false
  /-- 1 bit. Rows locked to the true hoop; 02 R55, PHT_LOCKSTAT.LOCKED; reset 0. -/
  locked : Bool := false
  /-- 1 bit. True phase valid; 02 R70, PHT_LOCKSTAT.TVALID; reset 0. -/
  tvalid : Bool := false
  /-- 1 bit. True phase coasting; 02 R118, PHT_LOCKSTAT.TFREE; reset 0. -/
  tfree : Bool := false
  /-- 1 bit. True phase follows the virtual hoop; 02 R118, PHT_LOCKSTAT.VIRT; reset 1. -/
  virt : Bool := true
  /-- 1 bit. True frequency in the lock band; 02 R84, R92; reset 0 (02 R92). -/
  inlb : Bool := false
  /-- 1 bit. Rotation of the train's mains; 02 R84 ROT. DESIGN CHOICE 0 (log 1). -/
  rot : Bool := false
  /-- 1 bit. The master lost its own source; 02 R74. DESIGN CHOICE 0 (log 1). -/
  mhold : Bool := false
  /-- 1 bit. The own local source was valid when the master last looked; 02 R74 (what it can lose). Reset 0. -/
  ownSrc : Bool := false
  /-- 2 bits. Lane of the reference, 3 none; 02 R87, PHT_LOCKSTAT.REFLANE; reset 3. -/
  refLane : Nat := 3
  /-- 8 bits. Master's home key; 02 PHT_MASTER, 0 for none. DESIGN CHOICE 0 (log 1). -/
  mHk : Nat := 0
  /-- 3 bits. Master's rank; 02 R83, PHT_MASTER. DESIGN CHOICE 4, no role (log 1). -/
  mRank : Nat := 4
  /-- 2 bits. Master's tier; 02 R83, PHT_MASTER. DESIGN CHOICE 2 (log 1). -/
  mTier : Nat := 2
  /-- 1 bit. LOCKED of the last reference used; 02 R92. DESIGN CHOICE 0 (log 1). -/
  mLocked : Bool := false
  /-- 1 bit. INLB of the last reference used; 02 R92. DESIGN CHOICE 0 (log 1). -/
  mInlb : Bool := false
  /-- 2 bits. NROW code of the reference followed; 02 R726. DESIGN CHOICE 2 (log 1). -/
  mNrow : Nat := 2
  /-- 1 bit. A master is followed; 02 R77. Reset 0. -/
  following : Bool := false
  /-- Nat. Consecutive missed rows; 02 R77; reset 0 (nothing counted). -/
  miss : Nat := 0
  /-- 1 bit. A reference was used in this row; 02 R82. Reset 0. -/
  usedInRow : Bool := false
  /-- 1 bit. A jam has set the phases since time ACQUIRE began; 02 R71. Reset 0. -/
  jammed : Bool := false
  /-- 0–8. Consecutive valid references within 1 µs; 02 R72. Reset 0. -/
  good : Nat := 0
  /-- 0–4. Consecutive hoops with an error over 2 µs; 02 R73. Reset 0. -/
  bigHoops : Nat := 0
  /-- 1 bit. Every reference of this hoop had an error over 2 µs so far; 02 R73. Reset 0. -/
  bigNow : Bool := false
  /-- 32 bits. Last follower error, signed 1/256 pu; 02 PHT_ERR. DESIGN CHOICE 0 (log 1). -/
  err : Word := 0
  /-- 2 bits. Tier of the own local source; 02 R65, PHT_LOCKSTAT.TIER; reset 2. -/
  tier : Nat := 2
  /-- Nat. Row-hoop boundaries since the own tier last changed, the one that ends the hoop of the change among them; 02 R79. Reset 0. -/
  tierHoops : Nat := 0
  /-- 4 bits. RSEQ of the next own REFERENCE; 02 R83. DESIGN CHOICE 0 (log 1). -/
  rseq : Nat := 0
  /-- Nat. Consecutive hoops within 45.5–64.5 Hz; 02 R92. Reset 0. -/
  inBand : Nat := 0
  /-- Nat. Consecutive hoops outside 45.0–65.0 Hz; 02 R92. Reset 0. -/
  outBand : Nat := 0
  /-- 1 bit. Row and true phase within 1000 pu since the hoop began; 02 R93. Reset 0. -/
  closeHoop : Bool := false
  /-- 32 bits. PHT_SNAP_HOOP; 02 R123. DESIGN CHOICE 0 (log 1). -/
  snapHoop : Word := 0
  /-- 32 bits. PHT_SNAP_PHASE; 02 R123. DESIGN CHOICE 0 (log 1). -/
  snapPh : Word := 0
  /-- 32 bits. PHT_SNAP_THOOP; 02 R123. DESIGN CHOICE 0 (log 1). -/
  snapThoop : Word := 0
  /-- 32 bits. PHT_SNAP_TPHASE; 02 R123. DESIGN CHOICE 0 (log 1). -/
  snapTph : Word := 0
  /-- Nat. Clock value when HOLDOVER was entered; 02 PHT_HOLDTIME. DESIGN CHOICE 0 (log 1). -/
  holdClk : Nat := 0
  /-- Clock value when TVALID last became 0; 02 R118. DESIGN CHOICE 0 (log 4). -/
  tlossClk : Nat := 0
  /-- 1 bit. The true phase jams to the row phase at the next row-hoop boundary; 02 R118. Reset 0. -/
  virtNext : Bool := false
  /-- Nat. Consecutive rows with valid pattern frames of another epoch only; 05 R283. Reset 0. -/
  staleRows : Nat := 0
  /-- 1 bit. A valid pattern frame of the own epoch came in this row; 05 R283. Reset 0. -/
  sawOwn : Bool := false
  /-- 1 bit. A valid pattern frame of another epoch came in this row; 05 R283. Reset 0. -/
  sawOther : Bool := false
  /-- 1 bit. A pattern I frame was heard; 05 R235. Reset 0. -/
  sawPatI : Bool := false
  /-- Nat. Draws from the loop's free values: model's own (log 10). DESIGN CHOICE 0 (log 10). -/
  draws : Nat := 0
  /-- Nat. Clock at START, for CBP_TSC (11 R567). DESIGN CHOICE 0 (log 4). -/
  tscClk : Nat := 0
  deriving DecidableEq, Repr

/-- One zero-cross input (02 R56–R63). -/
structure ZxIn where
  /-- 1 bit. Accepted level; 02 R56. DESIGN CHOICE 0 (log 1). -/
  level : Bool := false
  /-- Clock of the last accepted rising edge; 02 R58. Reset none. -/
  rise : Option Nat := none
  /-- Clock of the rising edge before it; 02 R63. Reset none. -/
  prevRise : Option Nat := none
  /-- Clock of the last accepted falling edge; 02 R57. Reset none. -/
  fall : Option Nat := none
  /-- This input's last zero-crossing estimate of R58, as a clock value; 02 R58, R60. Reset none. -/
  cross : Option Int := none
  /-- Estimate of phase 0 of U from this input in this hoop, as a clock value; 02 R59. Reset none. -/
  est : Option Int := none
  /-- Nat. Last measured period, 0.125 ns units; 02 R57. DESIGN CHOICE 0 (log 1). -/
  period : Nat := 0
  /-- 1 bit. Plausible in the last hoop; 02 R61, PHT_ZXSTAT. Reset 0. -/
  valid : Bool := false
  /-- Nat. Consecutive implausible hoops; 02 R61. Reset 0. -/
  bad : Nat := 0
  /-- 1 bit. Faulted; 02 R61, PHT_ZXSTAT. Reset 0. -/
  faulted : Bool := false
  /-- 1 bit. Missing; 02 R63. DESIGN CHOICE 1: no edge seen yet (log 1). -/
  missing : Bool := true
  deriving DecidableEq, Repr

/-- Zero-cross measurement, phase check and tenant phase input (02). -/
structure ZxSt where
  /-- 3 inputs U, V, W; 02 R56. Reset as `ZxIn`. -/
  ins : List ZxIn := [{}, {}, {}]
  /-- 1 bit. Rotation detected, 1 U-W-V; 02 R60, PHT_ZXSTAT. DESIGN CHOICE 0 (log 1). -/
  rot : Bool := false
  /-- 1 bit. A rotation has been detected over two consecutive hoops; 02 R60. Reset 0. -/
  rotKnown : Bool := false
  /-- Rotation seen in the last hoop; 02 R60. Reset none. -/
  rotPrev : Option Bool := none
  /-- 1 bit. ROTERR; 02 R60, PHT_ZXSTAT. Reset 0. -/
  rotErr : Bool := false
  /-- 1 bit. PLAUS_OFF; 02 R62, PHT_ZXSTAT. Reset 0. -/
  plausOff : Bool := false
  /-- 1 bit. Last hoop's local sample valid; 02 R63. Reset 0. -/
  samp1 : Bool := false
  /-- 1 bit. The hoop before it valid; 02 R63. Reset 0. -/
  samp2 : Bool := false
  /-- 1 bit. Local source valid; 02 R63, PHT_ZXSTAT. Reset 0. -/
  srcValid : Bool := false
  /-- 32 bits. Local mains period, 0.25 ns units; 02 PHT_ZXPERIOD. DESIGN CHOICE 0 (log 1). -/
  period : Nat := 0
  /-- Nat. Clock value at the mains loop's anchor; 02 R68: model's own (log 4). DESIGN CHOICE 0 (log 4). -/
  loopClk : Nat := 0
  /-- 32 bits. Phase of the mains loop at its anchor; 02 R68. DESIGN CHOICE 0 (log 1). -/
  loopPh : Phase := 0
  /-- Nat. Period of the mains loop, 0.25 ns units; 02 R68. DESIGN CHOICE 80000000 (log 1). -/
  loopPeriod : Nat := 80000000
  /-- Nat. Consecutive hoops within 4660 pu of the mains loop; 02 R70. Reset 0. -/
  tvCount : Nat := 0
  /-- 1 bit. ZX_RANGE already raised for the present excursion; 02 R119. Reset 0. -/
  outOfRange : Bool := false
  /-- 1 bit. Contactor-closed pin level; 02 R63, 14 R678. DESIGN CHOICE 0 (log 1). -/
  ctc : Bool := false
  /-- 1 bit. Phase check valid; 02 R98, PHT_PCKSTAT; reset 0. -/
  pckValid : Bool := false
  /-- 1 bit. Phase-check alarm; 02 R99, PHT_PCKSTAT; reset 0. -/
  alarm : Bool := false
  /-- 1 bit. Rotation mismatch; 02 PHT_PCKSTAT.ROTERR; reset 0. -/
  pckRotErr : Bool := false
  /-- 24 bits. Last d, signed pu; 02 PHT_PCKSTAT.DIFF; reset 0. -/
  diff : BitVec 24 := 0
  /-- Nat. Consecutive samples over THR; 02 R99. Reset 0. -/
  overCnt : Nat := 0
  /-- Nat. Consecutive samples at or under THR − THR/8; 02 R99. Reset 0. -/
  underCnt : Nat := 0
  /-- Clock and true hoop of the last tenant strobe; 02 R66. Reset none. -/
  strobe : Option (Nat × Word) := none
  /-- 1 bit. A tenant phase was accepted in this true hoop; 02 R66. Reset 0. -/
  ten0 : Bool := false
  /-- 1 bit. Each tenant phase of this true hoop lay within 4660 pu of the loop; 02 R70. DESIGN CHOICE 1 (log 1). -/
  tenNear : Bool := true
  /-- 1 bit. In the last true hoop; 02 R66. Reset 0. -/
  ten1 : Bool := false
  /-- 1 bit. In the one before; 02 R66. Reset 0. -/
  ten2 : Bool := false
  deriving DecidableEq, Repr

/-- Parameters of a picot channel (02 R104, R124, 10 R535). -/
structure PicotPar where
  mode : Nat := 0
  tb : Bool := false
  pol : Bool := false
  wunit : Bool := false
  nowrap : Bool := false
  onloss : Bool := false
  edges : Nat := 0
  capev : Bool := false
  tphs : Bool := false
  a : Word := 0
  b : Word := 0
  c : Word := 0
  deriving DecidableEq, Repr

/-- A capture record (02 R106). -/
structure CapRec where
  phase : Word
  hoop : Word
  pol : Bool
  ord : Bool
  virt : Bool
  tb : Bool
  deriving DecidableEq, Repr

/-- One picot channel (02 R101–R118, R124). -/
structure PicotCh where
  /-- Parameters in effect: 3+1+1+1+1+1+2+1+1 bits and three words; 02 R102, R124; reset 0 (channel off). -/
  par : PicotPar := {}
  /-- 32 bits. PIC_CHn_ARMHOOP; 02 R124. DESIGN CHOICE 0 (log 1). -/
  armHoop : Word := 0
  /-- 1 bit. PIC_CHn_STAT.EMPTY; 02 R112; reset 0. -/
  empty : Bool := false
  /-- 1 bit. PIC_CHn_STAT.SKIP; 02 R116; reset 0. -/
  skip : Bool := false
  /-- 1 bit. PIC_CHn_STAT.OVF; 02 R115; reset 0. -/
  ovf : Bool := false
  /-- Parameters pending: bobbin, parameters, hoop named (0 none), clock of acceptance; 02 R109. Reset none. -/
  arm : Option (Nat × PicotPar × Word × Nat) := none
  /-- Bobbin of a pending PICOT_CANCEL; 02 R111. Reset none. -/
  cancel : Option Nat := none
  /-- 1 bit. The output is at its active level; 02 R104; reset 0 (02 R121). -/
  active : Bool := false
  /-- 1 bit. A pulse of the previous parameters is being completed; 02 R110. Reset 0. -/
  oldPulse : Bool := false
  /-- The previous parameters of such a pulse; 02 R110. Reset none. -/
  oldPar : Option PicotPar := none
  /-- 32 bits. The hoop of its timebase in which that pulse's leading edge lay; 02 R110. Reset 0 (unused). -/
  oldHoop : Word := 0
  /-- 24 bits. The phase of that leading edge, in pu; 02 R110. Reset 0 (unused). -/
  oldLead : Nat := 0
  /-- 1 bit. Parked by ONLOSS; 02 R117. Reset 0. -/
  parked : Bool := false
  /-- 1 bit. An output channel was cancelled: its pin stays at the inactive level; 02 R111. Reset 0. -/
  ended : Bool := false
  /-- Up to 16 records. Capture FIFO; 02 R104; reset empty. -/
  fifo : List CapRec := []
  deriving DecidableEq, Repr

/-- One side of a lane (03). -/
structure SideSt where
  /-- 2 bits. Link state; 03 R185, LAN_STAT; reset DOWN. -/
  link : Link := .down
  /-- Clock of the last poll of the side's PHY; 03 R133. Reset none. -/
  pollClk : Option Nat := none
  /-- Nat. Consecutive polls that read 1; 03 R133. Reset 0. -/
  ones : Nat := 0
  /-- 1 bit. RXC present; 03 R133. DESIGN CHOICE 0 (log 1). -/
  rxc : Bool := false
  /-- 1 bit. The link as R133 declares it; 03 R133. Reset 0. -/
  raw : Bool := false
  /-- A change waiting for its confirmation, true = up; 05 R230. Reset none. -/
  confirm : Option Bool := none
  /-- 1 bit. No Adezo peer on the side; 03 R187, LAN_STAT.END; reset 1. -/
  noPeer : Bool := true
  /-- 1 bit. Y valid; 03 R169, LAN_STAT.YV; reset 0. -/
  yv : Bool := false
  /-- 32 bits. Y, 0.125 ns units; 03 R169, LAN_Y. DESIGN CHOICE 0 (log 1). -/
  y : Nat := 0
  /-- 1 bit. Ranged; 03 R177, LAN_STAT.RANGED; reset 0. -/
  ranged : Bool := false
  /-- 1 bit. End port with foreign traffic; 03 LAN_STAT.FPORT; reset 0. -/
  fport : Bool := false
  /-- Smoothed mean link delay, 0.125 ns units; 03 R175, LAN_LINK. DESIGN CHOICE 0 (log 1). -/
  mean : Int := 0
  /-- 1 bit. A smoothed value exists; 03 R175. Reset 0. -/
  hasMean : Bool := false
  /-- Delay neighbour to node of the last exchange, 0.125 ns units; 03 R174 d_in. DESIGN CHOICE 0 (log 1). -/
  dIn : Int := 0
  /-- Delay node to neighbour of the last exchange, 0.125 ns units; 03 R174 d_out. DESIGN CHOICE 0 (log 1). -/
  dOut : Int := 0
  /-- 1 bit. The hop's excess over HOPMAX of the pattern in force has been reported; 04 R226. Reset 0. -/
  hopOver : Bool := false
  /-- 0–3. Consecutive outlying results; 03 R175. Reset 0. -/
  outliers : Nat := 0
  /-- 1 bit. LINK_LONG raised and not yet re-armed; 03 R179. Reset 0. -/
  long : Bool := false
  /-- Departure stamp of the own previous RANGE; 03 R174 t1. Reset none. -/
  tx1 : Option Nat := none
  /-- Departure stamp of the own RANGE before that. Reset none. -/
  tx0 : Option Nat := none
  /-- Receive stamp of the neighbour's previous RANGE; 03 R174 t4. Reset none. -/
  rx1 : Option Nat := none
  /-- Receive stamp of the neighbour's RANGE before that. Reset none. -/
  rx0 : Option Nat := none
  /-- RSEQ of the neighbour's previous RANGE; 05 "matching RSEQ". Reset none. -/
  jseq : Option Nat := none
  /-- 5 bits. RSEQ of the next own RANGE; 03 R173. DESIGN CHOICE 0 (log 1). -/
  rseq : Nat := 0
  /-- 1 bit. A valid RANGE came since the last ranging stitch ended; 03 R190. Reset 0. -/
  heard : Bool := false
  /-- 1 bit. A valid RANGE came within the ranging stitch that runs; 03 R173, R174. Reset 0. -/
  heardIn : Bool := false
  /-- 1 bit. The ranging stitch that ended last heard none, and the miss is not counted yet; 03 R190. Reset 0. -/
  missed : Bool := false
  /-- 1 bit. One of them had YVALID = 1; 03 R190. Reset 0. -/
  heardY : Bool := false
  /-- 0–16. Consecutive ranging stitches without a valid Y; 03 R190. Reset 0. -/
  misses : Nat := 0
  /-- 1 bit. A RANGE has been sent on this side in the present ranging stitch; 03 R172. Reset 0. -/
  sent : Bool := false
  /-- Discovery wave received on this side in the present ranging stitch; 05 R241. Reset none. -/
  wave : Option (List DiscMsg) := none
  /-- Nat. Clock until which the output is busy; 03 R152. Reset 0. -/
  busyTill : Nat := 0
  /-- 1 bit. The frame leaving is the node's own; 03 R152. Reset 0. -/
  busyOwn : Bool := false
  /-- 1 bit. The frame leaving comes from the elastic buffer; 03 R153. Reset 0. -/
  busyHeld : Bool := false
  /-- 1536 bytes. Elastic buffer: one held frame and whether its FCS passed; 03 R152; reset empty. -/
  elastic : Option (List Byte × Bool) := none
  /-- Own frame waiting for the output, and its stitch; 03 R154; reset empty. -/
  delayed : Option (List Byte × Nat × Nat) := none
  /-- 4 frames, 6 KiB. Entry FIFO of an end port; 03 R180; reset empty. -/
  entry : List (List Byte) := []
  deriving DecidableEq, Repr

/-- One lane (03). -/
structure LaneSt where
  /-- 1 bit. Bypass driver energised; 01 R43, LAN_STAT.BYP; reset 0. -/
  byp : Bool := false
  /-- 1 bit. Relay settling: links not evaluated yet; 03 R183. Reset 0. -/
  settling : Bool := false
  /-- Side E1. Reset as `SideSt`. -/
  e1 : SideSt := {}
  /-- Side E2. Reset as `SideSt`. -/
  e2 : SideSt := {}
  /-- 1 bit. The present time lies in the foreign window; 03 R181. Reset 0. -/
  fwin : Bool := false
  /-- 1 bit. A ranging stitch is running; 03 R172. Reset 0. -/
  ranging : Bool := false
  /-- Nat. Clock value at which that stitch ends: model's own, for 03 R190 (log 4). DESIGN CHOICE 0 (log 4). -/
  rngEnd : Nat := 0
  deriving DecidableEq, Repr

/-- One receive stream: a source and class (03 R161). -/
structure RxStream where
  /-- 16 bits. E, the next FSEQ expected; 03 R161, R165; none until R165 sets it. -/
  e : Option Nat := none
  /-- Held frames: FSEQ, lane, clock of its end; 03 R161, R163; at most 64 node-wide. -/
  held : List (Nat × LaneId × Nat × Frame) := []
  deriving DecidableEq, Repr

/-- A copy of an unsequenced frame waiting for R166's decision. -/
structure CopyWait where
  kind : Nat
  stitch : Nat
  lane : LaneId
  side : Side
  stamp : Nat
  frame : Frame
  deriving DecidableEq, Repr

/-- The writer key of a commit (06 R334, 08 R403). -/
structure WKey where
  hk : Nat
  ten : Nat
  trk : Nat
  deriving DecidableEq, Repr

/-- A queued outgoing message (07 R346, R347; 06 R338). -/
structure TxItem where
  msg : Msg
  cls : Cls
  use : Use
  /-- 0 control, 1 answer, 2 home-initiated, 3 request (07 R346). -/
  level : Nat
  /-- Bobbin whose request it is. -/
  bob : Option Nat := none
  /-- A repeat push of R29, made for the row. -/
  push : Bool := false
  /-- The writer key of the committed write that it answers (05 R265). -/
  wrote : Option WKey := none
  deriving DecidableEq, Repr

/-- Lanes and streams (03). -/
structure LanSt where
  /-- Bytes of C0 requests sent in the present row; 06 R339. Reset 0. -/
  reqSent : Nat := 0
  /-- Three lanes A, B, C. Reset as `LaneSt`. -/
  lanes : List LaneSt := [{}, {}, {}]
  /-- 1 bit. LAN_ORIENT.FORE; 03 R126. DESIGN CHOICE 0 (log 1). -/
  fore : Bool := false
  /-- 1 bit. LAN_ORIENT.VALID; 03 R126; reset 0 (UNNUMBERED). -/
  foreValid : Bool := false
  /-- 16 bits each. Own FSEQ of C0, C1, C2; 03 R160. DESIGN CHOICE 0 (log 1). -/
  fseq : List Nat := [0, 0, 0]
  /-- Receive streams by 4 × source + class; 03 R161; reset empty. -/
  streams : Table RxStream := []
  /-- Copies of pattern and inauguration frames awaiting R166's decision; 03 R166; reset empty. -/
  copies : List CopyWait := []
  /-- Unsequenced frames already decided, with the row count of the decision; 03 R166. Reset empty. -/
  decided : List (Nat × Nat) := []
  /-- Copies that have ended invalid: the frame, its lane, the row count; 03 R166. Reset empty. -/
  invalid : List (Nat × Nat × Nat) := []
  /-- 1 bit. LAN_MDIO_STAT.BUSY; 03 R195. DESIGN CHOICE 0 (log 1). -/
  mdioBusy : Bool := false
  /-- 1 bit. LAN_MDIO_STAT.DONE; 03 R195. DESIGN CHOICE 0 (log 1). -/
  mdioDone : Bool := false
  /-- 16 bits. LAN_MDIO_STAT read data; 03 R195. DESIGN CHOICE 0 (log 1). -/
  mdioData : BitVec 16 := 0
  /-- 32 bits. The command in progress; 03 R195. Reset none. -/
  mdioCmd : Option Word := none
  /-- Queued messages, oldest first; 07 R347, R368; reset empty. -/
  txq : List TxItem := []
  /-- Probes waiting for credit: node and message; 07 R368; reset empty. -/
  probeWait : List (Nat × TxItem) := []
  /-- Probes outstanding per node; 07 R368; reset 0. -/
  credit : Table Nat := []
  /-- Lines whose C0 repeat push was skipped, oldest first; 06 R339; reset empty. -/
  skipped : List Nat := []
  /-- Stitches that already launched in this row, for one frame per stitch; 03 R156. Reset empty. -/
  launched : List Nat := []
  /-- 1 bit. Data frames withheld because no valid pattern frame came in hoop n + 3; 04 R221. Reset 0. -/
  mute : Bool := false
  deriving DecidableEq, Repr

/-- A pattern slot (04 R208, R228). -/
structure Slot where
  /-- 1 bit. VALID; 04 R228; reset 0 until START checks it. -/
  valid : Bool := false
  /-- 5 bits. Last check failed; 04 R228. DESIGN CHOICE 0 (log 1). -/
  lastFail : Nat := 0
  deriving DecidableEq, Repr

/-- A proposal known to the node: a pattern switch or a role claim (04 R216–R221, 10 R545). -/
structure Proposal where
  target : Nat
  proposer : Nat
  hoop : Word
  digest : Word
  /-- ACKs heard, by node. -/
  acks : Sharers := 0
  /-- Lowest node that NACKed, with its REASON. -/
  nack : Option (Nat × Nat) := none
  /-- 0 none, 3 GO, 4 CANCEL. -/
  verdict : Nat := 0
  reason : Nat := 0
  subject : Nat := 0
  /-- Bobbin of the own command, at the proposer. -/
  bob : Option Nat := none
  /-- PROPOSE has left the node (the irreversible step of 10 R543, R547). -/
  sent : Bool := false
  deriving DecidableEq, Repr

/-- Patterns (04). -/
structure PatSt where
  /-- 3 bits. Pattern in force, 4 = pattern I; 04 R228 CUR. DESIGN CHOICE 4: none has been chosen (log 1). -/
  cur : Nat := 4
  /-- 1 bit. BASEV; 04 R228. Reset 0. -/
  baseV : Bool := false
  /-- 2 bits. BASE; 04 R228. DESIGN CHOICE 0 (log 1). -/
  base : Nat := 0
  /-- 2 bits. NROW code of pattern I without a base; 04 R210. DESIGN CHOICE 2 (log 1). -/
  nrowI : Nat := 2
  /-- 2 + 4 bits. NROW and ROW of a reference whose N_row takes effect at the next row start; 02 R726. Reset none. -/
  nrowNext : Option (Nat × Nat) := none
  /-- Four slots. Reset as `Slot`. -/
  slots : List Slot := [{}, {}, {}, {}]
  /-- Pending proposals; 04 R217; reset empty. -/
  props : List Proposal := []
  /-- Proposals whose verdict this node did not hear, until a pattern frame shows the pattern in force; 04 R221. Reset none. -/
  lost : List Proposal := []
  /-- 1 bit. HOPLONG; 04 R226, R228. Reset 0. -/
  hopLong : Bool := false
  /-- 32 bits. PAT_SWHOOP; 04 R228. DESIGN CHOICE 0 (log 1). -/
  swHoop : Word := 0
  /-- 3 bits. Last verdict; 04 R228 PAT_SWLAST; DESIGN CHOICE 0, none (log 1). -/
  lastVerdict : Nat := 0
  /-- 5 bits. REASON of the last verdict; 04 R228. DESIGN CHOICE 0 (log 1). -/
  lastReason : Nat := 0
  /-- 6 bits. SUBJECT of the last verdict; 04 R228. DESIGN CHOICE 0 (log 1). -/
  lastSubject : Nat := 0
  /-- 2 bits. TARGET of the last verdict; 04 R228. DESIGN CHOICE 0 (log 1). -/
  lastTarget : Nat := 0
  /-- 1 bit. A valid pattern frame came in hoop n + 3 of the pending proposal; 04 R221. Reset 0. -/
  heardVerdict : Bool := false
  /-- Switch waiting for the boundary of hoop n + 4: target and hoop; 04 R217. Reset none. -/
  switchAt : Option (Nat × Word) := none
  /-- 1 bit. HOLD; 04 PAT_STAGE; reset 0. -/
  hold : Bool := false
  /-- Clock of the write that cleared HOLD; 04 R223. Reset none. -/
  holdClr : Option Nat := none
  /-- 2 bits × 5. Roles whose old holder still serves them: role and old holder; 10 R546. Reset empty. -/
  moving : List (Nat × Nat) := []
  deriving DecidableEq, Repr

/-- What an inaugurating node heard from one node: CLAIM and DIGEST (05 R236, R248). -/
structure ClaimRec where
  claim : Option InaugMsg := none
  dig0 : Option DigestMsg := none
  dig1 : Option DigestMsg := none
  confirm : Option Word := none
  drained : Bool := false
  deriving DecidableEq, Repr

/-- The outcome of an agreement (05 R254). -/
structure Outcome where
  n : Nat
  ver : Nat
  slot : Nat
  digest : Word
  epoch : Word
  dominant : Word
  /-- Holder node number per role. -/
  holders : List Nat
  /-- Home keys of nodes 1 to N. -/
  hks : List Nat
  deriving DecidableEq, Repr

/-- A transfer of a role home or of mirrored lines that this node sends (05 R271, R273). -/
structure MigOut where
  role : Nat
  dst : Nat
  mirror : Bool
  /-- Lines still to send (line index). -/
  todo : List Nat
  /-- Directory groups still to send (line index of the first). -/
  dirs : List Nat
  sentLines : Nat := 0
  sentDirs : Nat := 0
  /-- Row in which MIG_DONE left. -/
  doneRow : Option Nat := none
  acked : Bool := false
  deriving DecidableEq, Repr

/-- A transfer that this node receives (05 R270). -/
structure MigIn where
  role : Nat
  src : Nat
  mirror : Bool
  /-- The lines of the present transfer that are here, with their versions, and the further MIG_LINEs of lines already here. -/
  got : Table Word := []
  more : Nat := 0
  /-- The first lines of the directory groups that are here. -/
  dirs : List Nat := []
  /-- Its MIG_DONE found every counted message; its ACK has left. -/
  done : Bool := false
  acked : Bool := false
  deriving DecidableEq, Repr

/-- Train membership and inauguration (05). -/
structure TrnSt where
  /-- Membership; 01 R46; reset UNNUMBERED (01 R49). -/
  memb : Memb := .unnumbered
  /-- 6 bits. Node number, 0 none; 05 TRN_STAT.NODE; reset 0. -/
  node : Nat := 0
  /-- 3 bits. STEP; 05 TRN_STAT; reset 0. -/
  step : Nat := 0
  /-- 2 bits. RESTARTS; 05 TRN_STAT; reset 0. -/
  restarts : Nat := 0
  /-- 1 bit. FROZEN; 05 TRN_STAT; reset 0. -/
  frozen : Bool := false
  /-- Row count at which Freeze began; 05 R259. DESIGN CHOICE 0 (log 4). -/
  freezeRow : Nat := 0
  /-- 6 bits. NNODES; 05 TRN_STAT; reset 0. -/
  nnodes : Nat := 0
  /-- 3 bits. ISOCAUSE; 05 TRN_STAT; reset 0. -/
  isoCause : Nat := 0
  /-- 1 bit. NOPAT; 05 TRN_STAT; reset 0. -/
  noPat : Bool := false
  /-- 32 bits. TRN_EPOCH; 05 R284; reset 0 (none). -/
  epoch : Word := 0
  /-- 32 bits. TRN_OLDEPOCH; 05 R284. DESIGN CHOICE 0 (log 1). -/
  oldEpoch : Word := 0
  /-- 8 × 8 bits. Holder node numbers; 05 TRN_ROLES. DESIGN CHOICE 0 (log 1). -/
  holders : List Nat := [0, 0, 0, 0, 0, 0, 0, 0]
  /-- 8 bits. Roles held here; 05 TRN_ROLEFLAGS. DESIGN CHOICE 0 (log 1). -/
  held : BitVec 8 := 0
  /-- 8 bits. ROLESRC; 05 TRN_ROLEFLAGS, R274. DESIGN CHOICE 0 (log 1). -/
  roleSrc : BitVec 8 := 0
  /-- 8 bits. MIRRV; 05 TRN_ROLEFLAGS, R267. DESIGN CHOICE 0 (log 1). -/
  mirrV : BitVec 8 := 0
  /-- 62 × 8 bits. Roster, home key of node k at k − 1; 05 TRN_ROSTERi; reset 0 (absent). -/
  roster : List Nat := []
  /-- 2 bits. Common protocol version; 03 R189; reset 1. -/
  version : Nat := 1
  /-- 3 bits. Cause of the last inauguration; 05 TRN_LAST. DESIGN CHOICE 0 (log 1). -/
  lastCause : Nat := 0
  /-- 5 bits. Counted restarts of it; 05 TRN_LAST. DESIGN CHOICE 0 (log 1). -/
  lastRestarts : Nat := 0
  /-- 16 bits. Its duration, 10 µs units; 05 TRN_LAST. DESIGN CHOICE 0 (log 1). -/
  lastDur : Nat := 0
  /-- Clock of its first cause (Detect). Reset none. -/
  detectClk : Option Nat := none
  /-- 1 bit each. CPLE1, CPLE2 level; 05 TRN_CPLE. DESIGN CHOICE 0 (log 1). -/
  cple : List Bool := [false, false]
  /-- 1 bit each. CPLE1, CPLE2 confirmed; 05 TRN_CPLE. DESIGN CHOICE 0 (log 1). -/
  cpleConf : List Bool := [false, false]
  /-- Cause to be called: CALL pending with this CAUSE; 05 R232. Reset none. -/
  call : Option Nat := none
  /-- 1 bit. A CALL was sent or heard: INAUG at the next row start; 05 R233. Reset 0. -/
  enterNext : Bool := false
  /-- 1 bit. The master places CALL in its pattern frames; 05 R232. Reset 0. -/
  masterCall : Bool := false
  /-- 3 bits. Cause of the inauguration in progress; 05 R238. DESIGN CHOICE 0 (log 1). -/
  cause : Nat := 0
  /-- 1 bit. A cause restarts the inauguration at the next row; 05 R281. Reset 0. -/
  restartNext : Bool := false
  /-- 1 bit each. That restart begins Freeze, and has been counted; 05 R238, R281. Reset 0. -/
  restartFreeze : Bool := false
  restartCounted : Bool := false
  /-- Row count at which each CALL was last heard, by 8 × home key + CAUSE; 05 R281 (log 63). Reset none. -/
  callers : Table Nat := []
  /-- 1 bit. Discovery has ended elsewhere without this node; 05 R243, R255. Reset 0. -/
  lagging : Bool := false
  /-- 1 bit. The node has been drained in this inauguration; 05 R258. Reset 0. -/
  wasDrained : Bool := false
  /-- Lists taken from the waves of the present ranging stitch, by lane; 05 R242. Reset empty. -/
  lists : Table (List DiscEntry) := []
  /-- Complete list of the last ranging stitch; 05 R242. Reset none. -/
  lastList : Option (List DiscEntry) := none
  /-- The list that ended Discovery; 05 R244. Reset empty. -/
  list : List DiscEntry := []
  /-- 6 bits. Proposed node number; 05 R246. DESIGN CHOICE 0 (log 1). -/
  propNode : Nat := 0
  /-- 6 bits. N of the proposed numbering; 05 R244. DESIGN CHOICE 0 (log 1). -/
  propN : Nat := 0
  /-- Home keys of the proposed nodes 1 to N; 05 R244. Reset empty. -/
  propHks : List Nat := []
  /-- 1 bit. FORE of the proposed numbering; 05 R245. DESIGN CHOICE 0 (log 1). -/
  propFore : Bool := false
  /-- 3 bits. ISOCAUSE that R244 marks for this node, 0 none; 05 R246. Reset 0. -/
  propIso : Nat := 0
  /-- 62 bits. The nodes that are MEMBER, as this node knows it: from the DIGESTs at Resume, and from the ACKs of a switch; 04 R219. Reset
  none. -/
  members : Sharers := 0
  /-- CLAIMs, DIGESTs and CONFIRMs heard, by node; 05 R249, R255. Reset empty. -/
  claims : Table ClaimRec := []
  /-- Outcome computed; 05 R254. Reset none. -/
  outcome : Option Outcome := none
  /-- 1 bit. The row in progress is a CONFIRM row; 05 R255. Reset 0. -/
  confirmRow : Bool := false
  /-- 2 bits. Attempts made; 05 R255. Reset 0. -/
  attempts : Nat := 0
  /-- OUTD of STATUS AGREED; 05 R255. Reset none. -/
  agreed : Option Word := none
  /-- 1 bit. The master has heard every CONFIRM; 05 R255. Reset 0. -/
  sendAgreed : Bool := false
  /-- 1 bit. Drain has ended at the master; 05 R259. Reset 0. -/
  drainEnd : Bool := false
  /-- 32 bits. CUTHOOP; 05 R259. Reset none. -/
  cutHoop : Option Word := none
  /-- 1 bit. The master sends RESUME in the next pattern frame; 05 R278. Reset 0. -/
  sendResume : Bool := false
  /-- ACKs the Cut requires and those heard: roles × mirror; 05 R278. Reset empty. -/
  needAck : List (Nat × Bool) := []
  /-- Transfers out; 05 R271. Reset empty. -/
  migOut : List MigOut := []
  /-- Transfers in; 05 R270. Reset empty. -/
  migIn : List MigIn := []
  /-- 1 bit. Isolated by restarts; 05 R282. Reset 0. -/
  isoRestarts : Bool := false
  /-- Clock of that isolation; 05 R282. DESIGN CHOICE 0 (log 4). -/
  isoClk : Nat := 0
  /-- 1 bit. Adds no entry to waves; 05 R282. Reset 0. -/
  noEntry : Bool := false
  deriving DecidableEq, Repr

/-- A region (06 R285, R345). -/
structure Region where
  base : Nat
  count : Nat
  /-- MODE: true CLAIM. -/
  claim : Bool
  cls : Cls
  clsReq : Cls
  persist : Bool
  canb : Bool
  rrd : Bool
  rwr : Bool
  agelim : Nat
  trd : BitVec 8
  twr : BitVec 8
  pin : Bool
  demMap : Bool := false
  demPat : Bool := false
  deriving DecidableEq, Repr

/-- A home line (01 R22, 08 R403). -/
structure HomeLine where
  /-- 512 bits. Data; 01 R22. DESIGN CHOICE 0 (log 1). -/
  data : Line := 0
  /-- 32 bits. Version; 06 R296; reset 0 (08 R425). -/
  version : Word := 0
  /-- Age at `ageRow`; 01 R29; reset 0 (08 R425). -/
  ageBase : Nat := 0
  /-- Row count from which the age counts; 01 R29. DESIGN CHOICE 0 (log 4). -/
  ageRow : Nat := 0
  /-- Writer key of the last commit; 08 R403. Reset none. -/
  key : Option WKey := none
  /-- 1 bit. LOST; 08 R403; reset 0 (08 R425). -/
  lost : Bool := false
  /-- 1 bit. ORPHAN; 08 R403; reset 0 (08 R425). -/
  orphan : Bool := false
  /-- 1 bit. ERRDATA; 08 R403; reset 0 (08 R425). -/
  errData : Bool := false
  /-- 1 bit. Metadata was lost; 08 R406. Reset 0. -/
  metaLost : Bool := false
  deriving DecidableEq, Repr

/-- A sharer-filter entry (06 R317). -/
structure FEntry where
  st : FState
  anchor : Bool := false
  vec : Sharers := 0
  /-- Order of allocation (06 R319). -/
  seq : Nat := 0
  deriving DecidableEq, Repr

/-- Which home trackers one belongs to (06 R312, R315). -/
inductive TrkKind where
  | general | elder | reserved
  deriving DecidableEq, Repr

/-- What a tracker does (06 R311, R315; 08 R405, R408; 10 R523; 05 R276). -/
inductive Purpose where
  | request
  /-- Victim recall for a line that waits for a way. -/
  | victim
  /-- Removal of every copy when a region is unmapped, by bobbin. -/
  | unmap (bob : Nat)
  /-- Recovery of a line whose filter entry was lost. -/
  | filter
  /-- Restoring a line's data from its owner. -/
  | restore
  /-- Removing every copy of a line whose metadata was lost. -/
  | purge
  /-- A directory entry that waits for a way (07 R371). -/
  | dir (e : FEntry)
  /-- A commit sent to the MIRROR holder (05 R276). -/
  | mirror
  /-- A transfer of a role's lines, or the refill of a new MIRROR holder (05 R271, R273). -/
  | move (mirror : Bool)
  deriving DecidableEq, Repr

/-- Where a working tracker stands. -/
inductive TPhase where
  /-- In the line's FIFO. -/
  | queued
  /-- Awaiting INV_ACKs or a recall answer. -/
  | probe
  /-- Awaiting a WRITEBACK after RECALL_NODATA with CLEAN = 0 (06 R308). -/
  | wb
  /-- Awaiting a free filter way (06 R319). -/
  | way
  /-- Awaiting the mirror answer (05 R276). -/
  | mirror
  deriving DecidableEq, Repr

/-- A home tracker (06 R311). -/
structure Tracker where
  ix : Nat
  kind : TrkKind
  /-- Class under which it was admitted (06 R312). -/
  cls : Cls := .c0
  purpose : Purpose := .request
  la : Nat
  src : Nat := 0
  srcHk : Nat := 0
  /-- A local tenant's or binding's bobbin, and the acceptance it serves (06 R337). -/
  bob : Option Nat := none
  bobSeq : Nat := 0
  msg : LineMsg
  phase : TPhase := .queued
  /-- Nodes awaited. -/
  awaited : Sharers := 0
  /-- The outstanding probe: RECALL (its KEEP_S and FWD) or INVALIDATE. -/
  isRecall : Bool := false
  keepS : Bool := false
  fwd : Nat := 0
  victimFlag : Bool := false
  /-- Row in which the probes were sent (06 R335). -/
  row : Nat := 0
  /-- Leased to this request's sender when it joined; broken lease when it joined (07 R357, 06 R329). -/
  leaseBroken : Bool := false
  /-- Status decided when it joined: LOCKED_OUT (07 R357). -/
  lockedOut : Bool := false
  /-- Owners that answered RECALL and kept the line in S (06 R307). -/
  kept : Sharers := 0
  /-- The reader completes from the RECALL_DATA (06 R309). -/
  fwdDone : Bool := false
  /-- The mode of the home region when the request joined: it is worked under it to its end (10 R559). -/
  claim : Bool := false
  /-- Value of an atomic's field before it, and whether its CAS failed, kept for the mirror answer (06 R323). -/
  old : BitVec 64 := 0
  cas : Bool := false
  /-- Version of the commit that awaits the mirror (05 R276). -/
  ver : Word := 0
  /-- Answered from the replay table (05 R265). -/
  replayed : Bool := false
  deriving DecidableEq, Repr

/-- A lease at its home (06 R326). -/
structure Lease where
  la : Nat
  node : Nat
  ten : Nat
  expiry : Word
  deriving DecidableEq, Repr

/-- A lease held here at another home, or locally (06 R329). -/
structure HeldLease where
  la : Nat
  ten : Nat
  hoops : Nat
  expiry : Word
  broken : Bool := false
  deriving DecidableEq, Repr

/-- A replay-table entry (05 R265). -/
structure Replay where
  la : Nat
  key : WKey
  version : Word
  c0 : Bool
  deriving DecidableEq, Repr

/-- Home agent, filter and regions (06). -/
structure HomeSt where
  /-- 512 entries. Region table; 06 R285, R345; reset empty. -/
  regions : Table Region := []
  /-- 16384 lines by X; 01 R22, 06 R316; reset per `HomeLine` where unlisted. -/
  lines : Table HomeLine := []
  /-- 12288 entries by X: set X[9:0], at most 12 per set; 06 R316–R319; reset empty (08 R425). -/
  filter : Table FEntry := []
  /-- Nat. Allocation order counter; 06 R319: model's own. DESIGN CHOICE 0 (log 4). -/
  fseq : Nat := 0
  /-- 1024 home trackers in joining order; 06 R311–R315; reset none busy. -/
  trks : List Tracker := []
  /-- 64 leases; 06 R327; reset none. -/
  leases : List Lease := []
  /-- Holders whose lease ended by expiry: line, node, tenant; 06 R329. Reset empty. -/
  brokenAt : List (Nat × Nat × Nat) := []
  /-- 1024 entries. Replay table; 05 R265; reset empty. -/
  replay : List Replay := []
  /-- 10 bits. Q0; 06 R312, COH_Q0. DESIGN CHOICE 0 (log 1). -/
  q0 : Nat := 0
  /-- Nat. NAK_RETRY queued and not yet sent; 07 R368. Reset 0. -/
  naks : Nat := 0
  /-- NAK_RETRY answered to each request still refused, by its key, with its line; 06 R313 (the count its answer carries). Reset none. -/
  nakCnt : List (WKey × Nat × Nat) := []
  /-- Lines whose commit waits for a reserved tracker to be sent to the mirror; 06 R315. Reset none. -/
  mirrWait : List Nat := []
  /-- WRITEBACKs taken by a recall whose ACK waits for the mirror; 05 R276. Reset none. -/
  mirrAcks : List Tracker := []
  /-- Class of the home region of a remote line, learned from the home's messages where it differs from the own region's; 06 R290.
  Reset empty. -/
  hcls : Table Cls := []
  /-- Subscribers recorded for SUB_LOST and bindings at this node: line address, tenant (8 = the binding engine); 10 R515, R516.
  Reset empty. -/
  subs : List (Nat × Nat) := []
  /-- SET_ATTR and region changes waiting for the commit: bobbins; 10 R526. Reset empty. -/
  attrWait : List Nat := []
  deriving DecidableEq, Repr

/-- A copy in a copy-cache way (08 R379). The pin bit of R379 is the line's reservation in `CacheSt.pins`. A way reserved for a
bobbin whose command has sent nothing yet (08 R381) is listed in state I with its bobbin. -/
structure Copy where
  la : Nat
  st : CState
  /-- Held after RECALL_DATA: home tracker, row (07 R359). -/
  held : Option (Nat × Nat) := none
  stale : Bool := false
  version : Word := 0
  age : Nat := 0
  ageRow : Nat := 0
  /-- Owning bobbin while transient. -/
  bob : Option Nat := none
  data : Line := 0
  /-- KEEP of the WRITEBACK sent, in MI (07 R351). -/
  keep : Bool := false
  /-- Answered a RECALL while in MI, and its KEEP_S (07 R351). -/
  recalled : Option Bool := none
  /-- INVALIDATE met in IS (06 R300). -/
  inval : Bool := false
  /-- LRU stamp (08 R384). -/
  lru : Nat := 0
  /-- State before the transient one, for 05 R264. -/
  back : CState := .i
  /-- An S copy that answered a RECALL with KEEP_S: home tracker, row, and its DIRTY (05 R264, 06 R335; log 41). -/
  again : Option (Nat × Nat × Bool) := none
  deriving DecidableEq, Repr

/-- States of a way-quadrant (08 R399, R426). -/
inductive WqSt where
  | on | drain | offSteward | offAuto
  deriving DecidableEq, Repr

/-- A way-quadrant (08 R398). -/
structure WayQ where
  st : WqSt := .on
  /-- DRAIN was started by AUTO. -/
  auto : Bool := false
  /-- Errors in the current window. -/
  win : Nat := 0
  /-- Errors since reset. -/
  total : Nat := 0
  deriving DecidableEq, Repr

/-- A pin reservation (08 R386). -/
structure Pin where
  la : Nat
  /-- Region index of a region's pin; none for one made by PIN. -/
  rgn : Option Nat
  demoted : Bool := false
  deriving DecidableEq, Repr

/-- Copy cache (08). -/
structure CacheSt where
  /-- 1024 sets × 16 ways by 16 × set + way; 08 R378, R379; reset every way I (08 R425). -/
  ways : Table Copy := []
  /-- 64 way-quadrants by way × 4 + quadrant where not ON with no error; 08 R398. Reset ON. -/
  wqs : Table WayQ := []
  /-- At most 8192. Pin reservations; 08 R385, R386; reset empty. -/
  pins : List Pin := []
  /-- Nat. LRU clock; 08 R384: model's own. DESIGN CHOICE 0 (log 4). -/
  lru : Nat := 0
  /-- 24+4+2 bits. COH_CC_LASTERR; 08 R426. DESIGN CHOICE 0 (log 1). -/
  lastErr : Word := 0
  /-- Lines whose modified copy was lost to an error and not yet read; 08 R397. Reset empty. -/
  lostM : List Nat := []
  /-- 14 bits. Copy-cache scrub position; 08 R410. DESIGN CHOICE 0 (log 1). -/
  scrubCc : Nat := 0
  /-- 14 bits. Home-store scrub position; 08 R410. DESIGN CHOICE 0 (log 1). -/
  scrubHs : Nat := 0
  /-- 14 bits. Filter scrub position; 08 R410. DESIGN CHOICE 0 (log 1). -/
  scrubF : Nat := 0
  /-- 16 bits. COH_SCRUB_STAT passes; 08 R426. DESIGN CHOICE 0 (log 1). -/
  passes : Nat := 0
  deriving DecidableEq, Repr

/-- A job (09 R452). -/
structure Job where
  ten : Nat
  op : Nat
  tag : Nat := 0
  la : Nat := 0
  tmo : Nat := 0
  alen : Nat := 0
  olen : Nat := 0
  oaddr : Nat := 0
  iaddr : Nat := 0
  irq : Bool := false
  iind : Bool := false
  oind : Bool := false
  arg : List Byte := []
  deriving DecidableEq, Repr

/-- What holds a bobbin (09 R477, 11 R581, 07 R364). -/
inductive BobKind where
  /-- A tenant's job. -/
  | job
  /-- A CMD entry of the commissioning image, by entry index (08 R415). -/
  | cmd (ix : Nat)
  /-- A receive binding's write (11 R582). -/
  | bindWrite (b : Nat)
  /-- A transmit binding's subscription (11 R589). -/
  | bindSub (b : Nat)
  /-- UNSUB_REQ or UNLOCK_REQ of a reset, a lease renewal, a maintenance run to its end (07 R364, R365; 12 R628). -/
  | intern
  deriving DecidableEq, Repr

/-- What a bobbin waits for. -/
inductive BWait where
  /-- Accepted, to be performed by its command's row. -/
  | ready
  /-- The argument or fragment table is being read by DMA (09 R436). -/
  | dma
  /-- A free way of its set (08 R382). -/
  | way
  /-- Time SYNC or HOLDOVER (02 R96). -/
  | sync
  /-- A state in which it runs: Resume, RUN (10 R555). -/
  | state
  /-- An answer to a request queued or sent. -/
  | answer
  /-- The home's work on a local request. -/
  | home
  /-- The fill it is attached to (07 R354). -/
  | attach (b : Nat)
  /-- An outstanding UNSUB_REQ of the same line (10 corner). -/
  | unsub
  /-- A hoop-boundary commit (10 R526, R537). -/
  | commit
  /-- A phase, a picot boundary (10 R534, R536). -/
  | phase
  /-- An agreement or a Resume (10 R542–R547). -/
  | agree
  /-- Keep-store page writes (10 R549). -/
  | keep
  /-- Lane transactions of UNMAP_REGION or victim recalls of MAP_REGION (10 R521, R524). -/
  | drain
  /-- Its completion is kept: CQ and overflow full (07 R373). -/
  | cqFull
  deriving DecidableEq, Repr

/-- A bobbin (06 R334, 09 R477). -/
structure Bobbin where
  kind : BobKind := .job
  job : Job
  wait : BWait := .ready
  cls : Cls := .c2
  /-- The line is homed here. -/
  home : Bool := false
  clamped : Bool := false
  demoted : Bool := false
  replayed : Bool := false
  aged : Bool := false
  /-- Lines of a block completed (10 R510). -/
  blk : Nat := 0
  /-- Largest age among them. -/
  maxAge : Nat := 0
  /-- Output bytes gathered. -/
  out : List Byte := []
  /-- The request queued or sent, for resends (06 R334). -/
  req : Option LineMsg := none
  /-- The request has left in a stitch, and in which row. -/
  left : Option Nat := none
  naks : Nat := 0
  elder : Bool := false
  replay : Bool := false
  /-- Absorb the answer: the tenant was reset (07 R365). -/
  absorb : Bool := false
  /-- A completion kept back: 32 bytes without phase and fence, and its IRQ bit (07 R373). -/
  kept : Option (List Byte × Bool) := none
  /-- Argument fragments still to be read: address and length (09 R455). -/
  afrags : List (Nat × Nat) := []
  /-- Output fragments (09 R455). -/
  ofrags : List (Nat × Nat) := []
  /-- The job was chosen by the sampler (12 R617), and its clock, hoop, phase and stitch count. -/
  sampled : Bool := false
  accClk : Nat := 0
  accHoop : Word := 0
  accPh : Word := 0
  stitches : Nat := 0
  lane : Nat := 3
  /-- A parameter of the command held for its end (region index, hoop, target, slot). -/
  par : Nat := 0
  /-- WAIT_PHASE: the hoop in which its phase is due. -/
  due : Word := 0
  /-- Order of acceptance (06 R302). -/
  seq : Nat := 0
  /-- The write or UNLOCK relied on a lease recorded as broken (06 R329). -/
  broke : Bool := false
  /-- ACK with LINE_LOST came ahead of the data (06 R343). -/
  lost : Bool := false
  /-- UNMAP_REGION: the region it removed at its acceptance, while its copies are being removed (10 R523, R524). -/
  rgn : Option Region := none
  deriving DecidableEq, Repr

/-- A pending CQ entry: an entry image and whether it is an event record, with its event number and IRQ bit. -/
structure CqItem where
  bytes : List Byte
  evt : Option Nat := none
  irq : Bool := false
  deriving DecidableEq, Repr

/-- A DMA read in progress (09 R436). -/
inductive DmaUse where
  /-- SQ entries from slot `first`. -/
  | sq (ten first n : Nat)
  /-- The index block. -/
  | idx (ten : Nat)
  /-- The index block, for its CQ head alone (09 R459). -/
  | head (ten : Nat)
  /-- The argument fragment table of a bobbin. -/
  | table (bob : Nat)
  /-- Fragment `i` of a bobbin's argument. -/
  | frag (bob : Nat)
  /-- The pricking of LOAD_PRICKING. -/
  | prick (bob : Nat)
  /-- Its fragment table. -/
  | prickTable (bob : Nat)
  /-- The output fragment table of a bobbin. -/
  | outTable (bob : Nat)
  deriving DecidableEq, Repr

/-- A tenant (09). -/
structure Ten where
  /-- 12 bits. SQ head; 09 R450, TEN_STAT.SQHEAD; reset 0. -/
  sqHead : Nat := 0
  /-- 12 bits. SQ tail the node knows; 09 R450; reset 0. -/
  sqTail : Nat := 0
  /-- 12 bits. CQ tail; 09 R450; reset 0. -/
  cqTail : Nat := 0
  /-- 12 bits. CQ head the node knows; 09 R450; reset 0. -/
  cqHead : Nat := 0
  /-- 1 bit. Phase bit; 09 R450; reset 1. -/
  phase : Bool := true
  /-- Two entry images and their SQ slots. Push latch; 09 R460, R461; reset empty. -/
  latch : Table (List Byte) := []
  /-- SQ entries read by DMA and not yet fetched, by slot; 09 R462. Reset empty. -/
  fetched : Table (List Byte) := []
  /-- 16 entries. CQ overflow; 09 R473; reset empty. -/
  ovf : List CqItem := []
  /-- 1 bit. STALL; 09 TEN_STAT; reset 0. -/
  stall : Bool := false
  /-- 1 bit. DMAERR; 09 TEN_STAT; reset 0. -/
  dmaErr : Bool := false
  /-- 1 bit. CHAIN_WAIT; 09 TEN_STAT; reset 0. -/
  chainWait : Bool := false
  /-- 1 bit. LOSTEV pending for the next record; 09 R475. Reset 0. -/
  lostEv : Bool := false
  /-- Nat. Entries written since CQ_READY fired; 09 R472. Reset 0. -/
  sinceReady : Nat := 0
  /-- Clock of the oldest of them; 09 R472. Reset none. -/
  oldest : Option Nat := none
  /-- 16 bits. TEN_FENCE; 09 R489; reset 0 (09 R488). -/
  fence : Nat := 0
  /-- 1 bit. RST; 09 TEN_STAT; reset 0. -/
  rst : Bool := false
  /-- Row in which the reset began; 09 R479. DESIGN CHOICE 0 (log 4). -/
  rstRow : Nat := 0
  /-- 1 bit. The reset ends at Resume; 07 R367. Reset 0. -/
  rstResume : Bool := false
  /-- 1 bit. A Mode M doorbell's index read waits while 32 reads are outstanding; 09 R434, R458. Reset 0. -/
  idxPend : Bool := false
  /-- 1 bit. VF memory space enable; 09 R431. DESIGN CHOICE 0 (log 1). -/
  mse : Bool := false
  /-- 1 bit. MSI-X Enable of the function; 12 R607. DESIGN CHOICE 0 (log 1). -/
  msixEn : Bool := false
  /-- 1 bit. MSI-X function mask; 12 R607. DESIGN CHOICE 0 (log 1). -/
  fnMask : Bool := false
  /-- 8 bits. MSI-X vector masks; 09 R489, 12 R607; reset all masked, as the PCIe specification the table cites (PRESUMED, log 20). -/
  vecMask : BitVec 8 := 0xFF
  /-- 8 bits. MSI-X PBA; 09 R489; reset 0. -/
  pba : BitVec 8 := 0
  /-- 8 bits. Vectors whose EVT_MSIX_GAP is running; 12 R608. Reset 0. -/
  gap : BitVec 8 := 0
  /-- 8 bits. Vectors with an event in the gap; 12 R608. Reset 0. -/
  gapEvt : BitVec 8 := 0
  /-- 32 words. MSI-X table; 09 R489; reset 0 but the mask bits (PRESUMED, log 20). -/
  msixTab : Table Word := []
  /-- 9 bits. Quota in force; 09 TEN_S_QUOTA.INFORCE; reset 64. -/
  quota : Nat := 64
  /-- 1 bit. STATUS FRAME_ERR; 09 R445; reset 0. -/
  frameErr : Bool := false
  deriving DecidableEq, Repr

/-- A message of the node's own that waits for an internal bobbin (07 R364; log 33). -/
structure Owed where
  ten : Nat
  op : Nat
  la : Nat
  cls : Cls
  msg : LineMsg
  deriving DecidableEq, Repr

/-- Tenants, bobbins, PCIe and SPI (09, 10). -/
structure TenSt where
  /-- Enabled tenants and their requested quotas when the quotas in force were last computed; 01 R26. Reset none. -/
  quotaAsk : List (Nat × Nat) := []
  /-- Own messages that wait for an internal bobbin, oldest first; 07 R364, 06 R336 (log 33). Reset none. -/
  owed : List Owed := []
  /-- Eight tenants. Reset as `Ten`. -/
  tens : List Ten := [{}, {}, {}, {}, {}, {}, {}, {}]
  /-- 512 bobbins: 0–31 internal, 32–511 tenants'; 01 table of capacities, 09 R477; reset none in use. -/
  bobs : Table Bobbin := []
  /-- 3 bits. Tenant after which the round robin starts; 07 R375. DESIGN CHOICE 7: T0 first (log 1). -/
  rr : Nat := 7
  /-- 64 KiB. SPI ring RAM, port p at 4000h × p; 09; DESIGN CHOICE 0 (log 2). -/
  ram : Mem := []
  /-- 8 × 128 bytes. Push windows, tenant n at 80h × n; 09 R460. DESIGN CHOICE 0 (log 2). -/
  push : Mem := []
  /-- 1 bit. VF Enable; 09 R431. DESIGN CHOICE 0 (log 1). -/
  vfEn : Bool := false
  /-- 1 bit. PCIe link up; 09 R437. DESIGN CHOICE 0 (log 1). -/
  linkUp : Bool := false
  /-- 1 bit. PERST# asserted; 14 R690. DESIGN CHOICE 0 (log 1). -/
  perst : Bool := false
  /-- 1 bit. The host withholds posted-write credit; 07 R377. Reset 0. -/
  noCredit : Bool := false
  /-- Writes and messages waiting for posted credit, oldest first; 07 R377. Reset empty. -/
  posted : List Out := []
  /-- At most 32. DMA reads outstanding, by identifier; 09 R434; reset empty. -/
  dma : Table DmaUse := []
  /-- Nat. Next DMA read identifier: model's own. DESIGN CHOICE 0 (log 3). -/
  dmaId : Nat := 0
  /-- Nat. Jobs accepted, for their order: model's own. DESIGN CHOICE 0 (log 4). -/
  seq : Nat := 0
  /-- CMD entries of the commissioning image not yet begun: entry index and SQ entry; 08 R415; reset none. -/
  cmds : List (Nat × List Byte) := []
  deriving DecidableEq, Repr

/-- States of a CAN port (11 R598 PSTATE). -/
inductive CanState where
  | conf | integrating | active | passive | busOff | recovering | rom
  deriving DecidableEq, Repr

/-- A frame waiting in a binding: the frame, its stamp, its phase stamp. -/
structure CanRx where
  f : CanFrame
  tsc : Word
  ph : Word
  deriving DecidableEq, Repr

/-- A CAN port (11). -/
structure CanPort where
  /-- 3 bits. PSTATE; 11 R598; reset CONF (11 R596). -/
  st : CanState := .conf
  /-- 1 bit. CONF requested, frame in progress; 11 R564. Reset 0. -/
  confReq : Bool := false
  /-- 9 bits. TEC; 11 R590. DESIGN CHOICE 0 (log 1). -/
  tecCnt : Nat := 0
  /-- 7 bits and RP. REC; 11 R590. DESIGN CHOICE 0 (log 1). -/
  recCnt : Nat := 0
  /-- 1 bit. The port was in BUS_OFF when it entered CONF; 11 R566. Reset 0. -/
  wasOff : Bool := false
  /-- 1 bit. Recovery is waited for by BOREQ; 11 R591. Reset 0. -/
  manual : Bool := false
  /-- 3 bits. LEC; 11 R598; DESIGN CHOICE 7, none since CONF (log 1). -/
  lec : Nat := 7
  /-- 7 bits. TDCV; 11 R598; reset 0. -/
  tdcv : Nat := 0
  /-- 8 KiB. Object memory; 11 R599; DESIGN CHOICE 0 (log 2), every object off (11 R596). -/
  mem : Mem := []
  /-- 128 bits. TXPEND; 11 R598; reset 0. -/
  txpend : BitVec 128 := 0
  /-- One frame and its object. Shadow buffer; 11 R574; reset empty. -/
  shadow : Option (Nat × CanRx) := none
  /-- Object or buffer in arbitration or being sent; 11 R576. Reset none. -/
  sending : Option Nat := none
  /-- 1 bit. A TXCANCEL waits for the attempt to end; 11 R576. Reset 0. -/
  cancelAfter : Bool := false
  /-- 3 × 2 bits. QTXSTAT; 11 R598; reset free. -/
  qtx : List Nat := [0, 0, 0]
  /-- Binding whose frame buffer 2 holds; 11 R588. Reset none. -/
  qbind : Option Nat := none
  /-- 2 × (RIDX 5, COUNT 6, OVR 1). Receive queues; 11 R579; reset 0. -/
  rxq : List (Nat × Nat × Bool) := [(0, 0, false), (0, 0, false)]
  /-- 16 entries. Binding receive FIFO: binding indexes with frames; 11 R580; reset empty. -/
  bfifo : List (Nat × CanRx) := []
  /-- Pool objects or pairs in use by bindings; 11 R580; reset empty. -/
  pool : List Nat := []
  deriving DecidableEq, Repr

/-- A binding (11 R580–R589). -/
structure Bind where
  la : Nat
  port : Nat
  /-- DIR: true = line update to frame. -/
  tx : Bool
  ide : Bool
  fd : Bool
  brs : Bool
  id : Nat
  off : Nat
  len : Nat
  ten : Nat
  /-- Object or pair held. -/
  obj : Nat
  /-- Subscription valid (DIR = 1 on a remote line). -/
  sub : Bool := true
  /-- DIR = 1: pending. -/
  pend : Bool := false
  /-- DIR = 0: the frame that has not started its write (11 R583). -/
  wait : Option CanRx := none
  /-- Version last written or loaded. -/
  ver : Word := 0
  deriving DecidableEq, Repr

/-- Car-bus ports and bindings (11). -/
structure CanSt where
  /-- CB0, CB1. Reset as `CanPort`. -/
  ports : List CanPort := [{}, {}]
  /-- 256 bindings; 11, 10 R530; reset none (11 R596). -/
  binds : Table Bind := []
  /-- 32 bits. CBP_TSC_SNAP; 11 R570. DESIGN CHOICE 0 (log 1). -/
  tscSnap : Word := 0
  deriving DecidableEq, Repr

/-- An event raised and not yet handled (12 R602). -/
structure RaisedEvt where
  ev : Nat
  detail : List Byte
  /-- The one tenant that its record goes to (12 R606). -/
  only : Option Nat
  deriving DecidableEq, Repr

/-- Events (12). -/
structure EvtSt where
  /-- Events raised in the present instant, to be handled in ascending number at its end; none between instants. 12 R602. Reset none. -/
  hold : Option (List RaisedEvt) := none
  /-- 512 bits. EVT_PEND; 12 R601, R631. DESIGN CHOICE 0 (log 1). -/
  pend : BitVec 512 := 0
  /-- Row of the last record per event; 12 R610. Reset empty. -/
  lastRec : Table Nat := []
  /-- 9 + 16 bits. EVT_LAST; 12 R631. DESIGN CHOICE 0 (log 1). -/
  last : Word := 0
  /-- CQ_READY condition of R472 that holds its pins, per tenant; 12 R609. Reset 0. -/
  cqCond : BitVec 8 := 0
  deriving DecidableEq, Repr

/-- A performance counter (12 R611). -/
structure Pmc where
  /-- 48 bits. Value; 12 R611; reset 0 (log 1 DESIGN CHOICE). -/
  val : Nat := 0
  /-- 16 bits. HI latch; 12 R614. DESIGN CHOICE 0 (log 1). -/
  hi : Nat := 0
  /-- 1 bit. Sticky OVF; 12 R613. DESIGN CHOICE 0 (log 1). -/
  ovf : Bool := false
  deriving DecidableEq, Repr

/-- Performance counters and sampler (12). -/
structure PmcSt where
  /-- 80 counters: 0–15 global, 16 + 8n + j tenant; 12 R611. Reset 0. -/
  ctr : Table Pmc := []
  /-- 256 records of 32 bytes. Sample buffer with the tenant of each; 12 R619; reset empty. -/
  buf : List (Nat × List Byte) := []
  /-- 16 bits. Next SSEQ; 12 R618. DESIGN CHOICE 0 (log 1). -/
  sseq : Nat := 0
  /-- Nat. Jobs that met the filters since the last choice; 12 R617. Reset 0. -/
  jobs : Nat := 0
  /-- 1 bit. SAMPLE_FULL raised and the buffer still full; 12 R619. Reset 0. -/
  full : Bool := false
  deriving DecidableEq, Repr

/-- Debug port (12). -/
structure DbgSt where
  /-- 1 bit. HALTED; 12 R625, DBG_STAT. DESIGN CHOICE 0 (log 1). -/
  halted : Bool := false
  /-- 1 bit. HALT_LONG; 12 R627. DESIGN CHOICE 0 (log 1). -/
  long : Bool := false
  /-- 1 bit. One job may run; 12 R625. Reset 0. -/
  step : Bool := false
  /-- 16 bits. Hoops in the current halt; 12 DBG_STAT. DESIGN CHOICE 0 (log 1). -/
  hoops : Nat := 0
  /-- 1 bit. The debug port has made an access since reset; 12 DBG_STAT. Reset 0. -/
  accessed : Bool := false
  /-- 1 bit. Fuse DBGDIS; 12 R630. DESIGN CHOICE 0: not blown (log 21). -/
  dbgDis : Bool := false
  /-- 32 bits. DATA of the next Capture-DR; 12 R621. DESIGN CHOICE 0 (log 1). -/
  data : Word := 0
  /-- 2 bits. STATUS of the next Capture-DR; 12 R621. DESIGN CHOICE 0 (log 1). -/
  status : Nat := 0
  deriving DecidableEq, Repr

/-- Injection states of a detector (13 R639). -/
inductive Inj where
  | none | oneShot | sticky
  deriving DecidableEq, Repr

/-- A clamp-log record's fields (13 R647). -/
structure ClampRec where
  kind : Nat
  ten : Nat := 0
  debug : Bool := false
  prev : Bool := false
  flsb : Nat := 0
  fwid : Nat := 0
  op : Nat := 0
  loc : Nat := 0
  hoop : Nat := 0
  written : Word := 0
  stored : Word := 0
  deriving DecidableEq, Repr

/-- Steps of the shutdown sequence (13 R653). -/
inductive ShutStep where
  | none | keep | decide | logic | memory | record | off
  deriving DecidableEq, Repr

/-- Detectors, clamping, BIST (13). -/
structure IntSt where
  /-- 48 bits. INT_DETSTAT; 13 R632, R669. DESIGN CHOICE 0 (log 1). -/
  detStat : BitVec 48 := 0
  /-- 48 × 2 bits. Injection states; 13 R639; reset none (13 R642). -/
  inj : Table Inj := []
  /-- 64 records. Clamp log; 13 R648. DESIGN CHOICE empty (log 1). -/
  clamps : List ClampRec := []
  /-- 16 bits. DROPPED; 13 R648. DESIGN CHOICE 0 (log 1). -/
  dropped : Nat := 0
  /-- 1 bit. The log changed since it was persisted; 08 R419. Reset 0. -/
  logDirty : Bool := false
  /-- 32 bits. SEQ of the last persisted clamp log; 13 R649. DESIGN CHOICE 0 (log 1). -/
  logSeq : Word := 0
  /-- 1 bit. NEXT; 13 INT_BIST_STAT; reset 0. -/
  next : Bool := false
  /-- 1 bit. FAST; 13 INT_BIST_STAT; reset 0. -/
  fast : Bool := false
  /-- 1 bit. RAN; 13 INT_BIST_STAT; reset 0. -/
  ran : Bool := false
  /-- 2 bits. LASTRES; 13 INT_BIST_STAT; reset 0. -/
  lastRes : Nat := 0
  /-- 1 bit. USEDOK; 13 INT_BIST_STAT; reset 0. -/
  usedOk : Bool := false
  /-- 8 bits. Fuse-ROM GVER; 13 R651. DESIGN CHOICE 1 (log 21). -/
  gver : Nat := 1
  /-- Step of the shutdown sequence; 13 R653. Reset none. -/
  shut : ShutStep := .none
  /-- 1 bit. NOBIST of the SHUTDOWN command; 13 R654. Reset 0. -/
  noBist : Bool := false
  /-- 1 bit. SENT has fallen since the shutdown began or caused it; 13 R654. Reset 0. -/
  sentLow : Bool := false
  /-- 1 bit. SENT had fallen when the running BIST began; 13 R656. Reset 0. -/
  bistSent : Bool := false
  /-- 32 bits. Row hoop at entry to SHUTDOWN; 13 R659. DESIGN CHOICE 0 (log 1). -/
  shutHoop : Word := 0
  /-- 32 bits. Epoch at entry to SHUTDOWN; 13 R659. DESIGN CHOICE 0 (log 1). -/
  shutEpoch : Word := 0
  /-- 12 bits. Logic-BIST failures of the running BIST; 13 R659. DESIGN CHOICE 0 (log 1). -/
  lbFail : BitVec 12 := 0
  /-- 20 bits. Memory-BIST failures; 13 R659. DESIGN CHOICE 0 (log 1). -/
  mbFail : BitVec 20 := 0
  /-- 64 bits. Failing way-quadrants; 13 R659. DESIGN CHOICE 0 (log 1). -/
  wqFail : BitVec 64 := 0
  /-- 256 bytes. The BIST record used at START; 10 R550 BIST_RESULT. DESIGN CHOICE empty: no valid record (log 1). -/
  bistRec : List Byte := []
  /-- 1 bit. That record was fresh at START; 13 R660. Reset 0. -/
  bistFresh : Bool := false
  /-- 5 bits. Its position in the rotation; 08 KEE_BIST. DESIGN CHOICE 0 (log 1). -/
  bistPos : Nat := 0
  deriving DecidableEq, Repr

/-- A pending keep-store write (08 R423). -/
inductive KeepWr where
  | bist (bytes : List Byte)
  | fault (bytes : List Byte)
  | clampLog (i : Nat) (bytes : List Byte)
  | prick (bob : Nat) (slot i : Nat) (bytes : List Byte)
  | steward (page : Nat) (bytes : List Byte)
  /-- PATCH_MIN raised in the identity page (08 R416), or a page rewritten after a corrected error (08 R422). -/
  | node (page : Nat) (bytes : List Byte)
  deriving DecidableEq, Repr

/-- Keep store (08). -/
structure KeepSt where
  /-- 64 KiB. Pages, page p at 100h × p; 08 R411, R412. DESIGN CHOICE: one valid identity page, all else 0 (log 22). -/
  mem : Mem := []
  /-- 24 bits each. Page writes counted by this model, on top of the wear each page had; 08 R420. Reset 0. -/
  wear : Table Nat := []
  /-- USED marks programmed, by page; 13 R661. DESIGN CHOICE none (log 22). -/
  used : List Nat := []
  /-- Pages with an uncorrectable error; 08 R422. Reset empty. -/
  badPages : List Nat := []
  /-- Pending page writes; 08 R423; reset empty. -/
  pend : List KeepWr := []
  /-- The page write in progress: write, page, whether it is the retry; 08 R411, R421. Reset none. -/
  cur : Option (KeepWr × Nat × Bool) := none
  /-- 8 bits. HK in use; 08 KEE_HK, 01 R20; from the identity page. DESIGN CHOICE 0 until START reads it (log 22). -/
  hk : Nat := 0
  /-- 64 bits. Die ID; 08 KEE_ID; from the identity page. DESIGN CHOICE 0 (log 22). -/
  dieId : BitVec 64 := 0
  /-- 1 bit. Patch running; 08 KEE_PATCH. DESIGN CHOICE 0 (log 1). -/
  patch : Bool := false
  /-- 16 bits. PV running; 08 KEE_PATCH. DESIGN CHOICE 0 (log 1). -/
  pv : Nat := 0
  /-- 1 bit. KEE_STAT.BUSY; 08 R427. DESIGN CHOICE 0 (log 1). -/
  busy : Bool := false
  /-- 1 bit. KEE_STAT.DONE; 08 R427. DESIGN CHOICE 0 (log 1). -/
  done : Bool := false
  /-- 4 bits. KEE_STAT.ERR; 08 R427. DESIGN CHOICE 0 (log 1). -/
  err : Nat := 0
  /-- 8 bits. KEE_STAT last page; 08 R427. DESIGN CHOICE 0 (log 1). -/
  page : Nat := 0
  /-- A READ in progress: its page; 08 R411. Reset none. -/
  reading : Option Nat := none
  /-- 24 bits. KEE_WEAR; 08 R427. DESIGN CHOICE 0 (log 1). -/
  wearReg : Nat := 0
  /-- Nat. Fault records written in the current hour; 08 R418. Reset 0. -/
  faults : Nat := 0
  /-- Clock at which that hour began; 08 R418. DESIGN CHOICE 0 (log 4). -/
  faultClk : Nat := 0
  /-- Nat. Faults suppressed since the last summary record; 08 R418. Reset 0. -/
  supp : Nat := 0
  /-- 32 bits. Next SEQ of the fault history; 08 R418. DESIGN CHOICE 1 (log 1). -/
  faultSeq : Word := 1
  /-- 32 bits. Next SEQ of the BIST rotation; 08 R417. DESIGN CHOICE 1 (log 1). -/
  bistSeq : Word := 1
  /-- Clock of the last clamp-log write; 08 R419. Reset none. -/
  logClk : Option Nat := none
  /-- 1 bit. KEE_VERIFY in progress; 08 R428. Reset 0. -/
  verifying : Bool := false
  deriving DecidableEq, Repr

/-- A pin switch in progress (14 R680). -/
structure PinSw where
  /-- Pin ticks left: 3 not yet parked, 2 and 1 parked. -/
  left : Nat
  func : Nat
  park : Bool
  deriving DecidableEq, Repr

/-- Device, pins, supplies (01 R42, 14). -/
structure DevSt where
  /-- 3 bits. Device state; 01 R42, GLB_STATE; reset START. -/
  st : DevState := .start
  /-- 4 rails valid: core, 1.8 V, 3.3 V, RGMII; 14 R685. DESIGN CHOICE all valid: reset is RESET# released (log 5). -/
  rails : BitVec 4 := 0xF
  /-- 4 rails within their window; 14 GLB_RAILS. DESIGN CHOICE all within (log 5). -/
  window : BitVec 4 := 0xF
  /-- 4 bits. Straps latched; 14 R691. DESIGN CHOICE 0 (log 5). -/
  straps : BitVec 4 := 0
  /-- 1 bit. RESET# asserted; 14 R688. DESIGN CHOICE 0 (log 5). -/
  resetLow : Bool := false
  /-- 2 bits. Cause of the last START; 14 GLB_RSTCAUSE. DESIGN CHOICE 0, power-up (log 5). -/
  cause : Nat := 0
  /-- 1 bit. SAFE entered since power-up; 14 GLB_RSTCAUSE. DESIGN CHOICE 0 (log 5). -/
  wasSafe : Bool := false
  /-- 6 bits. Detector of the last SAFE; 14 GLB_RSTCAUSE. DESIGN CHOICE 0 (log 5). -/
  safeDet : Nat := 0
  /-- 1 bit. The last START was fast, for GLB_STARTT; 14 R712. DESIGN CHOICE 0 (log 1). -/
  startFast : Bool := false
  /-- 1 bit. A START has completed since power-up, for GLB_STARTT; 14 R712. Reset 0. -/
  started : Bool := false
  /-- 30 pins: function in force, park level, DRV, SLOW in force; 14 R678, R680. Reset GP (0,0,1,0), CAN (1,1,1,0). -/
  pins : Table (Nat × Bool × Nat × Bool) := []
  /-- Switches in progress, by pin; 14 R680, PIN_SWPEND; reset none. -/
  switching : Table PinSw := []
  /-- PARK, DRV and SLOW changes waiting for the next pin tick; 14 R680; reset none. -/
  minor : List Nat := []
  /-- 1 bit. LED_RUN's blink timer is in its on part; 14 R677; reset off. -/
  ledRun : Bool := false
  /-- 1 bit. LED_FLT's blink timer is in its on part; 14 R677; reset off. -/
  ledFlt : Bool := false
  /-- 1 bit. D07 holds every side DOWN; 13 R635. Reset 0. -/
  rgDown : Bool := false
  /-- 1 bit each. CBn_STBY high; 11 R596; reset 1. -/
  canStby : List Bool := [true, true]
  deriving DecidableEq, Repr

/-- Registers held as words (00 R7–R13, 15). Offsets are those of the steward window. -/
structure RegSt where
  /-- 32 bits each. Value in force where it differs from the register's reset value; 15; reset as each register's table. -/
  cur : Table Word := []
  /-- 32 bits each. Staged value of an RWS register not yet committed; 00 R12, 04 R222; reset none. -/
  staged : Table Word := []
  /-- Clock at which each staged value was written; 04 R222. -/
  stagedClk : Table Nat := []
  /-- Staged values that a later write replaced before a commit took them, newest first, with their clocks; 04 R222. Reset empty. -/
  earlier : Table (List (Word × Nat)) := []
  /-- 32 bits each. RC counters where not 0; 00 R12, 15; reset 0 (03 R194). -/
  ctr : Table Nat := []
  deriving DecidableEq, Repr

/-- The state of the node, and the queue of waiting commands. -/
structure State where
  /-- Device, pins, supplies. -/
  dev : DevSt := {}
  /-- Registers held as words. -/
  reg : RegSt := {}
  /-- Phase time. -/
  tm : TimeSt := {}
  /-- Zero-cross and phase check. -/
  zx : ZxSt := {}
  /-- 24 picot channels. -/
  pic : Table PicotCh := []
  /-- Lanes and streams. -/
  lan : LanSt := {}
  /-- Patterns. -/
  pat : PatSt := {}
  /-- Membership and inauguration. -/
  trn : TrnSt := {}
  /-- Home agent. -/
  home : HomeSt := {}
  /-- Leases held here. -/
  heldLeases : List HeldLease := []
  /-- Copy cache. -/
  cc : CacheSt := {}
  /-- Keep store. -/
  kee : KeepSt := {}
  /-- Tenants and bobbins. -/
  ten : TenSt := {}
  /-- Car bus. -/
  can : CanSt := {}
  /-- Events. -/
  evt : EvtSt := {}
  /-- Counters and sampler. -/
  pmc : PmcSt := {}
  /-- Debug port. -/
  dbg : DbgSt := {}
  /-- Detectors, clamping, BIST. -/
  int : IntSt := {}
  /-- Outputs made, newest first: model's own (log 3). DESIGN CHOICE empty (log 3). -/
  out : List Out := []
  /-- Commands waiting, first in first out: model's own (log 4). Reset empty. -/
  pending : List Instr := []
  deriving DecidableEq, Repr

/-- The identity page the model's reset keep store holds (log 22): die ID 0, home key 01h, unit 0, PATCH_MIN 0, SEQ 0 and its
CRC-32 (08 R413), as (address, byte) pairs of the bytes that are not 0. -/
def resetKeep : Mem := [(8, 1), (252, 0xCD), (253, 0x1D), (254, 0xB3), (255, 0x81)]

/-- The machine right after reset: RESET# released with all rails valid, START begun (01 R42, 14 R688). -/
def State.reset : State := { kee := { mem := resetKeep } }

end Sys2Proof.Machine
end

