-- ==== Sys2Proof/Machine/Bits.lean ====
section
/-! DEFINITION. Bit fields, byte orders, checksums, sparse tables and byte memories: the small operations every meaning uses. -/

namespace Sys2Proof.Machine

/-- Field `[lo + w - 1 : lo]` of a number (00 "Bit ranges"). -/
def bitsOf (v lo w : Nat) : Nat := v / 2 ^ lo % 2 ^ w

/-- Bit `i` of a number. -/
def bitOf (v i : Nat) : Bool := v / 2 ^ i % 2 == 1

/-- `v` with field `[lo + w - 1 : lo]` replaced by `x`. -/
def putBits (v lo w x : Nat) : Nat := v - bitsOf v lo w * 2 ^ lo + x % 2 ^ w * 2 ^ lo

/-- A flag as a number. -/
def b2n (b : Bool) : Nat := if b then 1 else 0

/-- A number as a 32-bit word. -/
def word (n : Nat) : Word := BitVec.ofNat 32 n

/-- A signed reading of a `w`-bit field. -/
def signed (w v : Nat) : Int := if v < 2 ^ (w - 1) then (v : Int) else (v : Int) - 2 ^ w

/-- The `w`-bit two's complement code of an integer. -/
def unsigned (w : Nat) (v : Int) : Nat := (v % 2 ^ w).toNat

/-- A flag as a one-bit field value placed at bit `i`. -/
def flagAt (b : Bool) (i : Nat) : Nat := if b then 2 ^ i else 0

/-- `n` bytes of `v`, least significant first (00 R7). -/
def leBytes : Nat → Nat → List Byte
  | 0, _ => []
  | n + 1, v => BitVec.ofNat 8 (v % 256) :: leBytes n (v / 256)

/-- The number whose little-endian bytes these are. -/
def leNat : List Byte → Nat
  | [] => 0
  | b :: bs => b.toNat + 256 * leNat bs

/-- `n` bytes of `v`, most significant first (IEEE 802.3 header order). -/
def beBytes (n v : Nat) : List Byte := (leBytes n v).reverse

/-- `len` bytes from offset `off`, zeros beyond the end. -/
def slice (bs : List Byte) (off len : Nat) : List Byte :=
  let t := (bs.drop off).take len
  t ++ List.replicate (len - t.length) 0

/-- The little-endian number of `len` bytes at `off`. -/
def leAt (bs : List Byte) (off len : Nat) : Nat := leNat (slice bs off len)

/-- `bs` with `new` in place of the bytes from `off`. -/
def splice (bs : List Byte) (off : Nat) (new : List Byte) : List Byte :=
  bs.take off ++ new ++ bs.drop (off + new.length)

/-- The bytes of a line, byte 0 first. -/
def lineBytes (l : Line) : List Byte := leBytes 64 l.toNat

/-- A line from its bytes. -/
def lineOf (bs : List Byte) : Line := BitVec.ofNat 512 (leNat (bs.take 64))

/-- Bytes `off … off + len - 1` of a line. -/
def lineGet (l : Line) (off len : Nat) : List Byte := leBytes len (l.toNat / 256 ^ off)

/-- A line with bytes replaced from `off`. -/
def linePut (l : Line) (off : Nat) (bs : List Byte) : Line := lineOf (splice (lineBytes l) off bs)

/-- Byte-by-byte merge under a mask, bit `i` for byte `i` (06 WR_MASKED). -/
def lineMerge (old new : Line) (mask : BitVec 64) : Line :=
  lineOf (((List.range 64).zip ((lineBytes old).zip (lineBytes new))).map
    fun p => if mask.toNat.testBit p.1 then p.2.2 else p.2.1)

/-- One bit of a reflected CRC. -/
def crcBit (poly c : Nat) : Nat := if c % 2 == 1 then (c / 2) ^^^ poly else c / 2

/-- One byte of a reflected CRC. -/
def crcByte (poly c : Nat) (b : Byte) : Nat :=
  let d := crcBit poly
  d (d (d (d (d (d (d (d (c ^^^ b.toNat))))))))

/-- A CRC carried over bytes. Each value is looked at before the next byte, which keeps its evaluation shallow. -/
def crcOver (step : Nat → Byte → Nat) : Nat → List Byte → Nat
  | c, [] => c
  | c, b :: bs => match step c b with
    | 0 => crcOver step 0 bs
    | n + 1 => crcOver step (n + 1) bs

/-- CRC-32 of IEEE 802.3 (03 R135, R137; 04 R200; 08 R413). -/
def crc32 (bs : List Byte) : Nat := crcOver (crcByte 0xEDB88320) 0xFFFFFFFF bs ^^^ 0xFFFFFFFF

/-- One byte of the unreflected CRC-16 with polynomial 1021h. -/
def crc16Byte (c : Nat) (b : Byte) : Nat :=
  let step := fun (c : Nat) (_ : Nat) => if c / 32768 % 2 == 1 then ((c * 2) % 65536) ^^^ 0x1021 else c * 2 % 65536
  (List.range 8).foldl step (c ^^^ (b.toNat * 256))

/-- CRC-16/CCITT, initial value FFFFh (09 R441). -/
def crc16 (bs : List Byte) : Nat := crcOver crc16Byte 0xFFFF bs

/-- The entry of a table. -/
def tget {α : Type} : Table α → Nat → Option α
  | [], _ => none
  | (j, v) :: t, k => if j == k then some v else tget t k

/-- The entry of a table, or what an unlisted key means. -/
def tgetD {α : Type} (t : Table α) (k : Nat) (d : α) : α := (tget t k).getD d

/-- A table with one entry set; keys stay rising. -/
def tset {α : Type} : Table α → Nat → α → Table α
  | [], k, v => [(k, v)]
  | (j, w) :: t, k, v =>
    if k < j then (k, v) :: (j, w) :: t else if j == k then (k, v) :: t else (j, w) :: tset t k v

/-- A table without one entry. -/
def tdel {α : Type} (t : Table α) (k : Nat) : Table α := t.filter fun e => e.1 != k

/-- A table with an entry changed, if it is there. -/
def tmod {α : Type} (t : Table α) (k : Nat) (f : α → α) : Table α :=
  match tget t k with
  | none => t
  | some v => tset t k (f v)

/-- A list with element `i` changed. -/
def lmod {α : Type} (l : List α) (i : Nat) (f : α → α) : List α := l.modify i f

/-- What a byte of memory reads as (log 2: an unlisted byte reads 0). -/
def memGet : Mem → Nat → Byte
  | [], _ => 0
  | (j, b) :: m, a => if j == a then b else memGet m a

/-- Memory with one byte written, in canonical form. -/
def memPut : Mem → Nat → Byte → Mem
  | [], a, b => if b = 0 then [] else [(a, b)]
  | (j, c) :: m, a, b =>
    if a < j then (if b = 0 then (j, c) :: m else (a, b) :: (j, c) :: m)
    else if a = j then (if b = 0 then m else (a, b) :: m)
    else (j, c) :: memPut m a b

/-- `n` bytes of memory from `a`. -/
def memGets (m : Mem) (a n : Nat) : List Byte := (List.range n).map fun i => memGet m (a + i)

/-- Memory with bytes written from `a`. -/
def memPuts (m : Mem) (a : Nat) : List Byte → Mem
  | [] => m
  | b :: bs => memPuts (memPut m a b) (a + 1) bs

/-- The canonical form of a memory: addresses rising, no byte 0 listed. -/
def Memory.wf : Mem → Bool
  | [] => true
  | (a, b) :: m => b != 0 && (match m with | [] => true | (c, _) :: _ => decide (a < c)) && Memory.wf m

/-- A 32-bit little-endian word of memory. -/
def memWord (m : Mem) (a : Nat) : Nat := leNat (memGets m a 4)

/-- Node numbers held in a sharer vector (01 R25). -/
def nodesOf (v : Sharers) : List Nat := ((List.range 62).filter fun i => v.getLsbD i).map (· + 1)

/-- The sharer vector of one node. -/
def nodeBit (k : Nat) : Sharers := if k = 0 then 0 else BitVec.ofNat 62 (2 ^ (k - 1))

/-- Is node `k` in the vector? -/
def hasNode (v : Sharers) (k : Nat) : Bool := k != 0 && v.getLsbD (k - 1)

/-- A vector without node `k`. -/
def dropNode (v : Sharers) (k : Nat) : Sharers := v &&& ~~~(nodeBit k)

/-- Quotient rounded up. -/
def ceilDiv (a b : Nat) : Nat := (a + b - 1) / b

/-- Apply `f` to every element in turn. -/
def each {α σ : Type} (l : List α) (f : σ → α → σ) (s : σ) : σ := l.foldl f s

end Sys2Proof.Machine
end

