-- ==== Sys2Proof/Machine/Regs.lean ====
section
/-! DEFINITION. The registers held as words: their fields, access codes, reset values, ranges and clamps (00 R7–R13, 15, and the
Registers section of each chapter), and reading and checking them. Offsets are those of the steward window (15 R713). -/

namespace Sys2Proof.Machine

/-- Access codes of a stored field (00 R12). -/
inductive Acc where
  | rw | rws
  deriving DecidableEq, Repr

/-- Ranges that depend on other fields, registers or the node's state (13 R644). -/
inductive Dep where
  | autostart | clkGate | pinFunc | pinPark | pinHeld | conf | canMode | canObj | canFlt | canTx
  | ntseg1 | nsjw | dtseg1 | dsjw | tdcEn
  | rctlEn | rctlHeld | rctlSize | tenEn0 | tenAttach | spiHeld | spiDummy
  | routeCq | routeVec | routeVen | pmcSel | pmcTSel | dbgHeld | gaddr
  deriving DecidableEq, Repr

/-- What the "Range and clamp" column says. -/
inductive Clamp where
  /-- The full range of the field. -/
  | full
  /-- Clamped to the nearer bound. -/
  | near (lo hi : Nat)
  /-- A signed field clamped to the nearer bound. -/
  | snear (lo hi : Int)
  /-- Single values replaced by others, the rest kept. -/
  | swap (m : List (Nat × Nat))
  /-- Values replaced, then the nearer bound. -/
  | swapNear (m : List (Nat × Nat)) (lo hi : Nat)
  /-- A range that depends on something else. -/
  | dep (d : Dep)
  deriving DecidableEq, Repr

/-- A stored field of a register. -/
structure Fld where
  lo : Nat
  w : Nat
  reset : Nat := 0
  clamp : Clamp := .full
  acc : Acc := .rw
  deriving DecidableEq, Repr

/-- One register, or `count` registers `stride` apart. -/
structure RegSpec where
  base : Nat
  count : Nat := 1
  stride : Nat := 4
  flds : List Fld
  deriving DecidableEq, Repr

/-- Base of the lane block (15 R713). -/
def lanBase : Nat → Nat
  | 0 => 0x4000
  | 1 => 0x4800
  | _ => 0x5000

/-- Base of tenant `n`'s window in the steward window (15 R713). -/
def tenBase (n : Nat) : Nat := 0x10000 + 0x2000 * n

/-- Base of port `n`'s CBP registers. -/
def cbpBase (n : Nat) : Nat := 0x9000 + 0x400 * n

/-- GLB and PIN (14 R712). -/
def specGlb : List RegSpec := [
  { base := 0x00C, flds := [{ lo := 1, w := 1, clamp := .dep .autostart }] },
  { base := 0x060, count := 7, flds := (List.range 32).map fun b => { lo := b, w := 1, clamp := .dep .clkGate } },
  { base := 0x1000, count := 24, flds := [{ lo := 0, w := 3, clamp := .dep .pinFunc },
      { lo := 3, w := 1, clamp := .dep .pinHeld }, { lo := 4, w := 2, reset := 1, clamp := .dep .pinHeld },
      { lo := 6, w := 1, clamp := .dep .pinHeld }] },
  { base := 0x1060, count := 6, flds := [{ lo := 0, w := 3, reset := 1, clamp := .dep .pinFunc },
      { lo := 3, w := 1, reset := 1, clamp := .dep .pinPark }, { lo := 4, w := 2, reset := 1, clamp := .dep .pinHeld },
      { lo := 6, w := 1, clamp := .dep .pinHeld }] },
  { base := 0x1080, flds := [{ lo := 0, w := 30 }] }]

/-- PHT and PIC (02 R123, R124). -/
def specPht : List RegSpec := [
  { base := 0x2000, flds := [{ lo := 0, w := 2, clamp := .swap [(3, 1)], acc := .rws },
      { lo := 2, w := 2, clamp := .swap [(3, 2)], acc := .rws }, { lo := 4, w := 1, reset := 1, acc := .rws },
      { lo := 5, w := 1, acc := .rws }, { lo := 6, w := 2, reset := 2, acc := .rws },
      { lo := 8, w := 2, reset := 2, clamp := .swap [(3, 2)], acc := .rws },
      { lo := 10, w := 4, reset := 10, clamp := .near 1 10, acc := .rws }, { lo := 14, w := 1, acc := .rws }] },
  { base := 0x2034, flds := [{ lo := 0, w := 3, reset := 7, clamp := .near 1 7, acc := .rws }, { lo := 3, w := 1, acc := .rws },
      { lo := 4, w := 1, acc := .rws }, { lo := 5, w := 1, acc := .rws },
      { lo := 8, w := 8, reset := 20, clamp := .near 1 255, acc := .rws }] },
  { base := 0x2038, flds := [{ lo := 0, w := 24, reset := 0x038E39, clamp := .near 46603 1048576, acc := .rws }] },
  { base := 0x203C, count := 3, flds := [{ lo := 0, w := 32, clamp := .snear (-262144) 262143, acc := .rws }] },
  { base := 0x2050, flds := [{ lo := 0, w := 24, reset := 0x016C17, clamp := .near 4660 1048576, acc := .rws },
      { lo := 24, w := 4, reset := 2, clamp := .near 1 15, acc := .rws }] },
  { base := 0x2060, flds := [{ lo := 0, w := 3, acc := .rws }, { lo := 3, w := 5, clamp := .near 0 23, acc := .rws }] },
  { base := 0x3000, count := 3, flds := [{ lo := 0, w := 32, acc := .rws }] }]

/-- One lane's registers (03 R193). -/
def specLane (l : Nat) : List RegSpec := [
  { base := lanBase l, flds := [{ lo := 0, w := 1, reset := 1 }, { lo := 1, w := 1, reset := 1 }, { lo := 2, w := 1 },
      { lo := 3, w := 1 }, { lo := 4, w := 1 }, { lo := 5, w := 1 }, { lo := 6, w := 1 }, { lo := 7, w := 1 },
      { lo := 8, w := 8, reset := 10, clamp := .near 1 100 }] },
  { base := lanBase l + 0x08, flds := [{ lo := 0, w := 5, reset := 2 * l }, { lo := 5, w := 1, reset := 1 },
      { lo := 6, w := 5, reset := 1 }, { lo := 11, w := 5, reset := 2, clamp := .near 0 15 },
      { lo := 16, w := 16, clamp := .snear (-4000) 4000 }] },
  { base := lanBase l + 0x0C, flds := [{ lo := 0, w := 5, reset := 2 * l + 1 }, { lo := 5, w := 1, reset := 1 },
      { lo := 6, w := 5, reset := 1 }, { lo := 11, w := 5, reset := 2, clamp := .near 0 15 },
      { lo := 16, w := 16, clamp := .snear (-4000) 4000 }] },
  { base := lanBase l + 0x10, count := 2, flds := [{ lo := 0, w := 16, reset := 1 }] },
  { base := lanBase l + 0x18, flds := [{ lo := 0, w := 32, reset := 0x00004E0B, clamp := .dep .gaddr, acc := .rws }] },
  { base := lanBase l + 0x1C, flds := [{ lo := 0, w := 16, reset := 0x0A00 + 0x100 * l, acc := .rws }] },
  { base := lanBase l + 0x20, flds := [{ lo := 0, w := 16, reset := 1000, clamp := .near 0 4000, acc := .rws }] },
  { base := lanBase l + 0x24, flds := [{ lo := 0, w := 16, clamp := .swapNear [(1, 2)] 0 1000, acc := .rws }] },
  { base := lanBase l + 0x28, flds := [{ lo := 0, w := 16, reset := 1500, clamp := .near 100 10000, acc := .rws }] }]

/-- LAN common, PAT, TRN and COH (03 R195, 04 R228, 05 R284, 06 R345, 08 R426). -/
def specMid : List RegSpec := [
  { base := 0x5800, flds := [
      { lo := 0, w := 16, reset := 0x88B5, clamp := .swapNear [(0x8100, 0x88B5), (0x88A8, 0x88B5), (0x8808, 0x88B5)] 0x0600 0xFFFF, acc := .rws }] },
  { base := 0x5808, flds := [{ lo := 0, w := 2 }, { lo := 8, w := 8, reset := 10, clamp := .near 5 100 }] },
  { base := 0x6024, flds := [{ lo := 0, w := 2, acc := .rws }, { lo := 2, w := 2, reset := 1, acc := .rws },
      { lo := 4, w := 2, reset := 2, acc := .rws }, { lo := 6, w := 2, reset := 3, acc := .rws },
      { lo := 8, w := 4, reset := 15, acc := .rws }] },
  { base := 0x7000, flds := [{ lo := 0, w := 2, clamp := .near 0 2 }, { lo := 2, w := 3, reset := 5, clamp := .near 1 5 },
      { lo := 5, w := 1 }, { lo := 8, w := 8, reset := 2, clamp := .near 1 60 }] },
  { base := 0x7004, flds := (List.range 6).map fun i => { lo := 4 * i, w := 4 } },
  { base := 0x7008, flds := [{ lo := 0, w := 16 }] },
  { base := 0x8000, flds := [{ lo := 0, w := 8, reset := 4, clamp := .near 2 64, acc := .rws },
      { lo := 8, w := 8, reset := 4, clamp := .near 2 64, acc := .rws }] },
  { base := 0x8018, flds := [{ lo := 0, w := 9 }] },
  { base := 0x8800, flds := [{ lo := 0, w := 1, acc := .rws }, { lo := 8, w := 8, reset := 16, clamp := .near 1 255, acc := .rws },
      { lo := 16, w := 12, reset := 60, clamp := .near 1 3600, acc := .rws }] },
  { base := 0x8820, flds := [{ lo := 0, w := 6 }] },
  { base := 0x8830, flds := [{ lo := 0, w := 8, reset := 4, clamp := .near 1 64 }] }]

/-- One CAN port's registers (11 R598); the filter words lie at 200h + 4i and are masked by mode (15 R717). -/
def specCan (n : Nat) : List RegSpec := [
  { base := cbpBase n, flds := [{ lo := 0, w := 1, reset := 1, clamp := .dep .conf }, { lo := 1, w := 1 }, { lo := 2, w := 1 },
      { lo := 4, w := 1 }, { lo := 5, w := 1, reset := 1 }, { lo := 6, w := 1 }, { lo := 7, w := 1 }] },
  { base := cbpBase n + 0x08, flds := [{ lo := 0, w := 1, clamp := .dep .canMode }, { lo := 1, w := 1 },
      { lo := 2, w := 1, reset := 1 }, { lo := 3, w := 2, clamp := .swap [(3, 0)] },
      { lo := 5, w := 7, reset := 16, clamp := .dep .canObj }, { lo := 12, w := 5, reset := 4, clamp := .dep .canFlt },
      { lo := 17, w := 1, reset := 1, clamp := .dep .canTx }, { lo := 24, w := 8 }] },
  { base := cbpBase n + 0x0C, flds := [{ lo := 0, w := 5 }, { lo := 5, w := 8, reset := 126, clamp := .dep .ntseg1 },
      { lo := 13, w := 7, reset := 31 }, { lo := 20, w := 7, reset := 31, clamp := .dep .nsjw }] },
  { base := cbpBase n + 0x10, flds := [{ lo := 0, w := 5 }, { lo := 5, w := 5, reset := 28, clamp := .dep .dtseg1 },
      { lo := 10, w := 4, reset := 9 }, { lo := 14, w := 4, reset := 9, clamp := .dep .dsjw }] },
  { base := cbpBase n + 0x14, flds := [{ lo := 0, w := 1, reset := 1, clamp := .dep .tdcEn }, { lo := 1, w := 7, reset := 30 },
      { lo := 8, w := 7, reset := 4 }] },
  { base := cbpBase n + 0x200, count := 128, flds := [{ lo := 0, w := 32 }] }]

/-- CBP common, EVT, PMC, INT, KEE and DBG (11 R598, 12 R631, 13 R669, 08 R427). -/
def specHigh : List RegSpec := [
  { base := 0x980C, flds := [{ lo := 0, w := 8 }] },
  { base := 0xA000, count := 512, flds := [{ lo := 0, w := 8, clamp := .dep .routeCq, acc := .rws },
      { lo := 8, w := 3, clamp := .dep .routeVec, acc := .rws }, { lo := 11, w := 3, acc := .rws },
      { lo := 14, w := 1, clamp := .dep .routeVen, acc := .rws }, { lo := 15, w := 4, acc := .rws },
      { lo := 19, w := 8, acc := .rws }] },
  { base := 0xA880, flds := [{ lo := 0, w := 16, clamp := .near 0 10000 }] },
  { base := 0xB000, flds := [{ lo := 0, w := 1, reset := 1 }] },
  { base := 0xB004, flds := [{ lo := 0, w := 32, reset := 5000000 }] },
  { base := 0xB040, flds := [{ lo := 0, w := 1, acc := .rws }, { lo := 1, w := 1, acc := .rws }, { lo := 2, w := 1, acc := .rws },
      { lo := 3, w := 3, clamp := .swap [(7, 0)], acc := .rws }, { lo := 6, w := 8, reset := 0xFF, acc := .rws },
      { lo := 14, w := 8, reset := 192, clamp := .near 1 255, acc := .rws },
      { lo := 22, w := 10, reset := 1, clamp := .near 1 1023, acc := .rws }] },
  { base := 0xB048, flds := [{ lo := 0, w := 32, acc := .rws }] },
  { base := 0xB100, count := 16, stride := 0x10, flds := [{ lo := 0, w := 8, clamp := .dep .pmcSel }, { lo := 8, w := 1 }] },
  { base := 0xB200, count := 64, stride := 0x10, flds := [{ lo := 0, w := 8, clamp := .dep .pmcTSel }, { lo := 8, w := 1 }] },
  { base := 0xC014, flds := [{ lo := 0, w := 1 }] },
  { base := 0xC018, flds := [{ lo := 0, w := 7, reset := 10, clamp := .near 1 100 }] },
  { base := 0xC01C, flds := [{ lo := 0, w := 8, reset := 50, clamp := .near 1 255 }] },
  { base := 0xC020, flds := [{ lo := 0, w := 8, reset := 125, clamp := .near 85 135 }] },
  { base := 0xC028, flds := [{ lo := 0, w := 1, reset := 1 }, { lo := 8, w := 8 }] },
  { base := 0xD100, count := 64, flds := [{ lo := 0, w := 32 }] },
  { base := 0xE000, flds := [{ lo := 0, w := 1, clamp := .dep .dbgHeld }, { lo := 1, w := 1, reset := 1, clamp := .dep .dbgHeld },
      { lo := 2, w := 1, clamp := .dep .dbgHeld }, { lo := 3, w := 1, clamp := .dep .dbgHeld },
      { lo := 4, w := 1, clamp := .dep .dbgHeld }] }]

/-- Tenant `n`'s window (09 R489, R490). -/
def specTen (n : Nat) : List RegSpec := [
  { base := tenBase n + 0x200, flds := [{ lo := 0, w := 1, clamp := .dep .rctlEn }, { lo := 1, w := 1, clamp := .dep .rctlHeld },
      { lo := 2, w := 4, reset := 4, clamp := .dep .rctlSize }, { lo := 6, w := 4, reset := 4, clamp := .dep .rctlSize }] },
  { base := tenBase n + 0x208, flds := [{ lo := 6, w := 26, clamp := .dep .rctlHeld }] },
  { base := tenBase n + 0x20C, flds := [{ lo := 0, w := 32, clamp := .dep .rctlHeld }] },
  { base := tenBase n + 0x210, flds := [{ lo := 5, w := 27, clamp := .dep .rctlHeld }] },
  { base := tenBase n + 0x214, flds := [{ lo := 0, w := 32, clamp := .dep .rctlHeld }] },
  { base := tenBase n + 0x218, flds := [{ lo := 4, w := 28, clamp := .dep .rctlHeld }] },
  { base := tenBase n + 0x21C, flds := [{ lo := 0, w := 32, clamp := .dep .rctlHeld }] },
  { base := tenBase n + 0x220, flds := [{ lo := 0, w := 8, reset := 1, clamp := .near 1 255 }, { lo := 8, w := 16 }] },
  { base := tenBase n + 0x224, flds := [{ lo := 0, w := 16, reset := 1000, clamp := .near 1 65535 }] },
  { base := tenBase n + 0x300, count := 16, flds := [{ lo := 0, w := 32 }] },
  { base := tenBase n + 0x1C00, flds :=
      if n = 0 then [{ lo := 0, w := 1, reset := 1, clamp := .dep .tenEn0 }, { lo := 3, w := 1 }]
      else if n < 4 then [{ lo := 0, w := 1 }, { lo := 3, w := 1 }]
      else [{ lo := 0, w := 1 }, { lo := 2, w := 1, clamp := .dep .tenAttach }, { lo := 3, w := 1 }] },
  { base := tenBase n + 0x1C04, flds := [
      { lo := 0, w := 9, reset := 64, clamp := if n = 0 then .near 8 480 else .near 1 480, acc := .rws }] }]
  ++ (if n < 4 then [] else [{ base := tenBase n + 0x1C08, flds := [{ lo := 0, w := 1, reset := 1, clamp := .dep .spiHeld },
      { lo := 1, w := 4, reset := 8, clamp := .dep .spiDummy }] }])

/-- Does the specification cover offset `off`? -/
def RegSpec.covers (r : RegSpec) (off : Nat) : Bool :=
  r.base ≤ off && off < r.base + r.count * r.stride && (off - r.base) % r.stride == 0

/-- The stored registers of the block that `off` lies in. -/
def specBlock (off : Nat) : List RegSpec :=
  if off < 0x2000 then specGlb
  else if off < 0x4000 then specPht
  else if off < 0x4800 then specLane 0
  else if off < 0x5000 then specLane 1
  else if off < 0x5800 then specLane 2
  else if off < 0x9000 then specMid
  else if off < 0x9400 then specCan 0
  else if off < 0x9800 then specCan 1
  else if off < 0x10000 then specHigh
  else if off < 0x20000 then specTen ((off - 0x10000) / 0x2000)
  else []

/-- The stored fields of the register at `off`; none where the register holds nothing a write changes (00 R10). -/
def regFlds (off : Nat) : List Fld :=
  match (specBlock off).find? (·.covers off) with
  | some r => r.flds
  | none => []

/-- Is `off` a staged register (15 R718)? -/
def isStaged (off : Nat) : Bool := (regFlds off).any fun f => f.acc == .rws

/-- The reset value of a stored register. EVT_ROUTE of tenant events 320 + 8n + k, k = 1–7, names tenant n's CQ (12 R631). -/
def regReset (off : Nat) : Nat :=
  if 0xA000 ≤ off ∧ off < 0xA800 then
    let e := (off - 0xA000) / 4
    if 320 ≤ e ∧ e < 384 ∧ e % 8 ≠ 0 then 2 ^ ((e - 320) / 8) else 0
  else (regFlds off).foldl (fun v f => v + f.reset * 2 ^ f.lo) 0

/-- The value in force of a stored register. -/
def regCur (s : State) (off : Nat) : Nat := ((tget s.reg.cur off).getD (word (regReset off))).toNat

/-- The staged value where there is one, else the value in force (00 R12). -/
def regHeld (s : State) (off : Nat) : Nat :=
  match tget s.reg.staged off with
  | some v => v.toNat
  | none => regCur s off

/-- A field of a stored register, in force. -/
def rfld (s : State) (off lo w : Nat) : Nat := bitsOf (regCur s off) lo w

/-- A one-bit field of a stored register, in force. -/
def rbit (s : State) (off i : Nat) : Bool := bitOf (regCur s off) i

/-- The registers with the value in force at `off` set; the reset value is not listed. -/
def RegSt.put (r : RegSt) (off v : Nat) : RegSt :=
  { r with cur := if v % 2 ^ 32 = regReset off then tdel r.cur off else tset r.cur off (word v) }

/-- The state with the value in force at `off` set. -/
def regSet (off v : Nat) (s : State) : State := { s with reg := s.reg.put off v }

/-- The state with one field in force set. -/
def fldSet (off lo w x : Nat) (s : State) : State := regSet off (putBits (regCur s off) lo w x) s

/-- A counter of access RC. -/
def ctrGet (s : State) (off : Nat) : Nat := tgetD s.reg.ctr off 0

/-- The width of the counter at `off`: INT_DETCNT is 16 bits, the rest 32 (13 R669, 03 R194). -/
def ctrMax (off : Nat) : Nat := if 0xC100 ≤ off ∧ off < 0xC200 then 0xFFFF else 0xFFFFFFFF

/-- A counter of access RC with `n` added, saturating (03 R194). -/
def count (off n : Nat) (s : State) : State :=
  { s with reg := { s.reg with ctr := tset s.reg.ctr off (min (ctrMax off) (ctrGet s off + n)) } }

/-- A counter cleared by a read. -/
def ctrClear (off : Nat) (s : State) : State := { s with reg := { s.reg with ctr := tdel s.reg.ctr off } }

/-- Is `off` a counter of access RC (15 R713–R718)? -/
def isCounter (off : Nat) : Bool :=
  off == 0x205C
  || (0x4000 ≤ off && off < 0x5800 && 0x80 ≤ off % 0x800 && off % 0x800 < 0xC0)
  || (0x6080 ≤ off && off ≤ 0x608C)
  || (0x7080 ≤ off && off ≤ 0x7090)
  || (0x8080 ≤ off && off ≤ 0x80A8)
  || (0x8880 ≤ off && off ≤ 0x88A4)
  || (0x9100 ≤ off && off ≤ 0x912C) || (0x9500 ≤ off && off ≤ 0x952C)
  || off == 0xA8C0
  || (0xC100 ≤ off && off < 0xC1C0)
  || off == 0xD024 || (0xD080 ≤ off && off ≤ 0xD08C)
  || off == 0xE008
  || (0x10000 ≤ off && off < 0x20000 && 0x400 ≤ off % 0x2000 && off % 0x2000 ≤ 0x424)

/-! ### Fields that other rules read -/

/-- TEN_S_CTRL.EN of tenant `n`. -/
def tenEn (s : State) (n : Nat) : Bool := rbit s (tenBase n + 0x1C00) 0

/-- TEN_S_CTRL.ATTACH: tenant `n` is an SPI tenant (09 R487). -/
def isSpi (s : State) (n : Nat) : Bool := decide (4 ≤ n ∧ n < 8) && rbit s (tenBase n + 0x1C00) 2

/-- TEN_RCTL.EN of tenant `n`. -/
def ringEn (s : State) (n : Nat) : Bool := rbit s (tenBase n + 0x200) 0

/-- A tenant by number; the record of an unused number past 7 never arises. -/
def tenOf (s : State) (n : Nat) : Ten := s.ten.tens.getD n {}

/-- Tenant `n` is enabled (09 R431). -/
def enabled (s : State) (n : Nat) : Bool :=
  decide (n < 8) && tenEn s n && (n == 0 || isSpi s n || (s.ten.vfEn && (tenOf s n).mse))

/-- Port `n` by number. -/
def portOf (s : State) (n : Nat) : CanPort := s.can.ports.getD n {}

/-- Bindings that use port `n` (11). -/
def portBinds (s : State) (n : Nat) : List (Nat × Bind) := s.can.binds.filter fun e => e.2.port == n

/-- Objects of port `n` that bindings hold: pool objects in object mode, pairs in queue mode (11 R580). -/
def poolUsed (s : State) (n : Nat) : Nat := (portOf s n).pool.length

/-- Perf events of the table of 12 R616. -/
def perfListed (e : Nat) : Bool :=
  e ≤ 9 || (16 ≤ e && e ≤ 43) || (48 ≤ e && e < 96 && e % 16 ≤ 9) || (96 ≤ e && e ≤ 98)
  || (112 ≤ e && e < 128 && e % 8 ≤ 6) || (128 ≤ e && e ≤ 130) || (144 ≤ e && e ≤ 146) || (160 ≤ e && e ≤ 162)

/-- Perf events marked T, that tenant counters count (12 R612, R616). -/
def perfTenant (e : Nat) : Bool :=
  (3 ≤ e && e ≤ 9) || (16 ≤ e && e ≤ 22) || (27 ≤ e && e ≤ 34) || e == 39 || (128 ≤ e && e ≤ 130) || e == 160 || e == 161

/-- May software gate clock domain `d` now (14 R695, R696)? -/
def gateAllowed (s : State) (d : Nat) : Bool :=
  (157 ≤ d && d ≤ 163 && !tenEn s (d - 156))
  || (164 ≤ d && d ≤ 169 && !rbit s (lanBase ((d - 164) / 2)) 0)
  || (170 ≤ d && d ≤ 193 && !bitOf (regHeld s (0x3000 + 4 * ((d - 170) / 8))) (4 * ((d - 170) % 8) + 3))
  || (194 ≤ d && d ≤ 195 && decide ((portOf s (d - 194)).st = .conf) && (portBinds s (d - 194)).isEmpty)
  || (200 ≤ d && d ≤ 203 && (!isSpi s (d - 196) || !tenEn s (d - 196)))

/-- Is clock domain `d` gated by software? -/
def gated (s : State) (d : Nat) : Bool := bitOf (regCur s (0x60 + 4 * (d / 32))) (d % 32)

/-- The gated domains a register's block lies in (14 R695): a side's registers in that side's engine, a lane's others in both; a picot
channel; a port; a tenant's tile, and an SPI port. -/
def gatesOf (off : Nat) : List Nat :=
  if 0x4000 ≤ off ∧ off < 0x5800 then
    let l := (off - 0x4000) / 0x800
    let r := off % 0x800
    if r = 0x08 ∨ r = 0x10 then [164 + 2 * l] else if r = 0x0C ∨ r = 0x14 then [165 + 2 * l] else [164 + 2 * l, 165 + 2 * l]
  else if 0x3100 ≤ off ∧ off < 0x3400 then [170 + (off - 0x3100) / 0x20]
  else if 0x3400 ≤ off ∧ off < 0x3580 then [170 + (off - 0x3400) / 0x10]
  else if 0x9000 ≤ off ∧ off < 0x9800 then [194 + (off - 0x9000) / 0x400]
  else if 0x40000 ≤ off ∧ off < 0x44000 then [194 + (off - 0x40000) / 0x2000]
  else if 0x12000 ≤ off ∧ off < 0x20000 then
    let n := (off - 0x10000) / 0x2000
    if off % 0x2000 = 0x1C08 ∧ 4 ≤ n then [196 + n] else [156 + n]
  else []

/-- The register's block is gated, and it ignores writes (14 R696). -/
def gateShut (s : State) (off : Nat) : Bool := !(gatesOf off).isEmpty && (gatesOf off).all fun d => gated s d

/-- Gated domains whose condition no longer holds. -/
def gatesFreed (s : State) : List Nat := (List.range 47).filterMap fun i => if gated s (157 + i) && !gateAllowed s (157 + i) then some (157 + i) else none

/-- The gate bits of domains whose condition no longer holds cleared. -/
def ungate (s : State) : State :=
  (gatesFreed s).foldl (fun s d => fldSet (0x60 + 4 * (d / 32)) (d % 32) 1 0 s) s

/-- Registers and windows are reachable (14 R716): not in OFF or START, nor in SHUTDOWN from step 5 of its table. -/
def reachable (s : State) : Bool :=
  match s.dev.st with
  | .off | .start => false
  | .shutdown => match s.int.shut with
    | .none | .keep | .decide => true
    | _ => false
  | _ => true

/-- A write to the register at `off`: none arrives while registers are out of reach; one is ignored while its block is
gated, but one that makes a gated block's condition false clears the gate bit first and then acts (14 R696). -/
def gatedWrite (off : Nat) (f : State → State) (s : State) : State :=
  let t := f s
  if !reachable s ∨ (gateShut s off ∧ (gatesFreed t).isEmpty) then s else ungate t

/-- A lane's LAN_CTRL bit. -/
def lanBit (s : State) (l i : Nat) : Bool := rbit s (lanBase l) i

/-- Ranges that depend on something else. `old` is the value held before the write, `v` the value written, `nw` the register as
far as it is checked (13 R644), `x` the field's written value. -/
def clampDep (d : Dep) (s : State) (off old v nw lo w x : Nat) : Nat :=
  let held := bitsOf old lo w
  let port := (off - 0x9000) / 0x400
  let ten := (off - 0x10000) / 0x2000
  match d with
  | .autostart => if s.dev.straps.getLsbD 3 then 0 else x
  | .clkGate => if x == 1 && !gateAllowed s (32 * ((off - 0x60) / 4) + lo) then 0 else x
  | .pinFunc =>
    let k := (off - 0x1000) / 4
    let y := if 6 ≤ x then 0 else x
    if s.dev.st = .safe ∨ s.dev.st = .shutdown then held
    else if 24 ≤ k then
      let y := if 4 ≤ y then held else y
      if (portOf s ((k - 24) / 3)).st ≠ .conf then held else y
    else if y == 4 && (List.range 24).any (fun j => j != k && rfld s (0x1000 + 4 * j) 0 3 == 4) then held
    else y
  | .pinPark => if s.dev.st = .safe ∨ s.dev.st = .shutdown then held else 1
  | .pinHeld => if s.dev.st = .safe ∨ s.dev.st = .shutdown then held else x
  | .conf => if x == 0 && (List.range 3).any (fun j => rfld s (0x1060 + 4 * (3 * port + j)) 0 3 != 1) then 1 else x
  | .canMode => if (portBinds s port).isEmpty then x else held
  | .canObj => max (min x 64) (if bitOf nw 0 then 0 else poolUsed s port)
  | .canFlt => max (min x 16) (if bitOf nw 0 then poolUsed s port else 0)
  | .canTx => if (portBinds s port).any (fun e => e.2.tx) then 1 else x
  | .ntseg1 =>
    let need := ceilDiv 80 (bitsOf nw 0 5 + 1)
    max (max x 1) (need - 3 - bitsOf v 13 7)
  | .nsjw => min x (bitsOf nw 13 7)
  | .dtseg1 =>
    let need := ceilDiv 16 (bitsOf nw 0 5 + 1)
    max x (need - 3 - bitsOf v 10 4)
  | .dsjw => min x (bitsOf nw 10 4)
  | .tdcEn => if 2 < rfld s (cbpBase port + 0x10) 0 5 + 1 then 0 else x
  | .rctlEn => if bitOf old 0 then 1 else if (tenOf s ten).rst then 0 else x
  | .rctlHeld => if ringEn s ten then held else x
  | .rctlSize => if bitOf old 0 then held else max 4 (min 12 x)
  | .tenEn0 => 1
  | .tenAttach => if bitOf nw 0 then held else x
  | .spiHeld => if tenEn s ten then held else x
  | .spiDummy => if tenEn s ten then held else max 4 x
  | .routeCq =>
    let e := (off - 0xA000) / 4
    if 320 ≤ e ∧ e < 384 ∧ e % 8 = 0 then 0 else x
  | .routeVec =>
    let vt := bitsOf v 11 3
    if x == 0 && bitOf v 14 && !isSpi s vt then 1 else x
  | .routeVen => if isSpi s (bitsOf v 11 3) then 0 else x
  | .pmcSel => if perfListed x then x else 0
  | .pmcTSel => if x ≤ 2 || perfTenant x then x else 0
  | .dbgHeld => if bitOf old 4 then held else x
  | .gaddr => if x % 2 == 0 then x + 1 else x

/-- The value stored for a field written `x` (00 R13). -/
def clampFld (f : Fld) (s : State) (off old v nw x : Nat) : Nat :=
  match f.clamp with
  | .full => x
  | .near lo hi => max lo (min hi x)
  | .snear lo hi => unsigned f.w (max lo (min hi (signed f.w x)))
  | .swap m => ((m.find? fun p => p.1 == x).map (·.2)).getD x
  | .swapNear m lo hi => max lo (min hi (((m.find? fun p => p.1 == x).map (·.2)).getD x))
  | .dep d => clampDep d s off old v nw f.lo f.w x

/-- A clamped field: lowest bit, width, value written, value stored (13 R645, R647). -/
structure Clamped where
  lo : Nat
  w : Nat
  written : Nat
  stored : Nat
  deriving DecidableEq, Repr

/-- The checks of a register write, field by field in ascending bit order (13 R644): the register's new value, and its clamps. -/
def regCheck (s : State) (off v : Nat) : Nat × List Clamped :=
  let old := regHeld s off
  (regFlds off).foldl (fun (a : Nat × List Clamped) f =>
    let x := bitsOf v f.lo f.w
    let y := clampFld f s off old v a.1 x
    (putBits a.1 f.lo f.w y, if y == x then a.2 else a.2 ++ [{ lo := f.lo, w := f.w, written := x, stored := y }])) (old, [])

/-- The values staged at `off`, newest first, with the clock of each write (04 R222). -/
def stagedAt (s : State) (off : Nat) : List (Word × Nat) :=
  match tget s.reg.staged off with
  | some v => (v, tgetD s.reg.stagedClk off 0) :: tgetD s.reg.earlier off []
  | none => []

/-- Staged values that a commit may still take, the newest first: those behind one that every later commit includes are done with
(04 R222). -/
def stillStaged (clk : Nat) : List (Word × Nat) → List (Word × Nat)
  | [] => []
  | e :: r => if 80000 ≤ clk - e.2 then [e] else e :: stillStaged clk r

/-- The staged values of `off` set. -/
def setStaged (off : Nat) (l : List (Word × Nat)) (s : State) : State :=
  match l with
  | [] => { s with reg := { s.reg with
      staged := tdel s.reg.staged off, stagedClk := tdel s.reg.stagedClk off, earlier := tdel s.reg.earlier off } }
  | e :: r => { s with reg := { s.reg with
      staged := tset s.reg.staged off e.1, stagedClk := tset s.reg.stagedClk off e.2
      earlier := if r.isEmpty then tdel s.reg.earlier off else tset s.reg.earlier off r } }

/-- The state with a checked value stored: staged for RWS, in force otherwise (00 R12, 04 R222). -/
def regStore (off v : Nat) (s : State) : State :=
  if isStaged off then setStaged off ((word v, s.tm.clk) :: stillStaged s.tm.clk (stagedAt s off)) s else regSet off v s

end Sys2Proof.Machine
end

