-- ==== Sys2Proof/Machine/Flags.lean ====
section
/-! DEFINITION. Events, completion rings, MSI-X, IRQ pins, performance counters and the clamp log (12, 09 R466–R475, 13 R644–R648):
the flags that every other meaning raises. -/

namespace Sys2Proof.Machine

/-- An action that raises event `ev` with its 16 DETAIL bytes. -/
abbrev Raise := Nat → List Byte → State → State

/-! ### DETAIL of event records (12 R600) -/

/-- DETAIL code N: an index and a value. -/
def detN (i v : Nat) : List Byte := leBytes 2 i ++ [0, 0] ++ leBytes 4 v ++ leBytes 8 0

/-- DETAIL code LA. -/
def detLA (la : Nat) : List Byte := leBytes 3 la ++ leBytes 13 0

/-- DETAIL code LS: lane, side, two further bytes, the related LAN counter. -/
def detLS (l sd x y ctr : Nat) : List Byte := leBytes 1 l ++ leBytes 1 sd ++ leBytes 1 x ++ leBytes 1 y ++ leBytes 4 ctr ++ leBytes 8 0

/-- DETAIL code ST: old and new state, and a value where an event carries one. -/
def detST (old new : Nat) (v : Nat := 0) : List Byte := leBytes 1 old ++ leBytes 1 new ++ [0, 0] ++ leBytes 4 v ++ leBytes 8 0

/-- DETAIL code HK: home key, node number, epoch. -/
def detHK (hk node epoch : Nat) : List Byte := leBytes 1 hk ++ leBytes 1 node ++ [0, 0] ++ leBytes 4 epoch ++ leBytes 8 0

/-- No DETAIL. -/
def detNone : List Byte := leBytes 16 0

/-! ### Small access to tenants -/

/-- The state with tenant `n`'s record changed. -/
def modTen (n : Nat) (f : Ten → Ten) (s : State) : State := { s with ten := { s.ten with tens := s.ten.tens.modify n f } }

/-- SQ entries of tenant `n` (09 R447). -/
def sqSize (s : State) (n : Nat) : Nat := 2 ^ rfld s (tenBase n + 0x200) 2 4

/-- CQ entries of tenant `n` (09 R447). -/
def cqSize (s : State) (n : Nat) : Nat := 2 ^ rfld s (tenBase n + 0x200) 6 4

/-- A 64-bit base of two registers. -/
def base64 (s : State) (off : Nat) : Nat := regCur s off + 2 ^ 32 * regCur s (off + 4)

/-- Does routing apply in this device state (12 R603)? -/
def powered (s : State) : Bool := s.dev.st != .off && s.dev.st != .start

/-- A posted write or message leaves, or waits for credit behind the earlier ones (07 R377). -/
def hostOut (o : Out) (s : State) : State :=
  if s.ten.noCredit then { s with ten := { s.ten with posted := s.ten.posted ++ [o] } } else { s with out := o :: s.out }

/-- Bytes written to a tenant's memory: host memory through its own function (09 R435), or its quarter of the ring RAM, where
addresses are taken modulo 4000h (09 R446). -/
def tenStore (n addr : Nat) (bytes : List Byte) (s : State) : State :=
  if isSpi s n then
    { s with ten := { s.ten with ram := (bytes.foldl (fun (p : Mem × Nat) b =>
        (memPut p.1 ((n - 4) * 0x4000 + p.2 % 0x4000) b, p.2 + 1)) (s.ten.ram, addr)).1 } }
  else hostOut (.hostWrite n addr bytes) s

/-- Bytes of an SPI tenant's ring RAM (09 R446). -/
def ramBytes (s : State) (n addr len : Nat) : List Byte :=
  (List.range len).map fun i => memGet s.ten.ram ((n - 4) * 0x4000 + (addr + i) % 0x4000)

/-! ### Performance counters (12 R611–R616) -/

/-- The selector of performance counter `i`: 0–15 global, 16 + 8n + j tenant (12 R631). -/
def pmcSelOff (i : Nat) : Nat := if i < 16 then 0xB100 + 0x10 * i else 0xB200 + 0x10 * (i - 16)

/-- Does counter `i` count occurrences of perf event `e` attributed to `ten`? -/
def pmcTakes (s : State) (e : Nat) (ten : Option Nat) (i : Nat) : Bool :=
  rfld s (pmcSelOff i) 0 8 == e && rbit s (pmcSelOff i) 8
    && (i < 16 || e ≤ 2 || ten == some ((i - 16) / 8))

/-- Counter `i` with `n` added; true when it passed FFFFFFFFFFFFh (12 R613). -/
def pmcAdd (i n : Nat) (s : State) : State × Bool :=
  let c := tgetD s.pmc.ctr i {}
  let v := c.val + n
  let wrap := decide (2 ^ 48 ≤ v)
  ({ s with pmc := { s.pmc with ctr := tset s.pmc.ctr i { c with val := v % 2 ^ 48, ovf := c.ovf || wrap } } }, wrap)

/-- Perf event `e` occurred `n` times, attributed to tenant `ten` (none: no tenant). -/
def perfWith (raise : Raise) (e n : Nat) (ten : Option Nat) (s : State) : State :=
  if n = 0 ∨ !powered s ∨ !rbit s 0xB000 0 then s
  else ((List.range 80).filter (pmcTakes s e ten)).foldl (fun s i =>
    let r := pmcAdd i n s
    if r.2 then raise 456 (detN i 0) r.1 else r.1) s

/-! ### MSI-X (12 R607, R608) -/

/-- The function of tenant `n` is live: the PF, or a VF not inert, enabled, with its memory space on (12 R607). -/
def fnLive (s : State) (n : Nat) : Bool := n == 0 || (!isSpi s n && s.ten.vfEn && (tenOf s n).mse)

/-- A vector's message leaves, and its gap starts (12 R608). -/
def msixMessage (n vec : Nat) (s : State) : State :=
  let s := hostOut (.msix n vec) s
  if rfld s 0xA880 0 16 = 0 then s
  else modTen n (fun t => { t with gap := t.gap ||| BitVec.ofNat 8 (2 ^ vec) }) s

/-- An event acts on vector `vec` of the function of tenant `n`. -/
def msixSignal (n vec : Nat) (s : State) : State :=
  let t := tenOf s n
  if !fnLive s n || !t.msixEn then s
  else if t.fnMask || t.vecMask.getLsbD vec then modTen n (fun t => { t with pba := t.pba ||| BitVec.ofNat 8 (2 ^ vec) }) s
  else if t.gap.getLsbD vec then modTen n (fun t => { t with gapEvt := t.gapEvt ||| BitVec.ofNat 8 (2 ^ vec) }) s
  else msixMessage n vec s

/-! ### Completion rings (09 R466–R475) -/

/-- The CQ of tenant `n` is full (09 R473). -/
def cqFull (s : State) (n : Nat) : Bool := ((tenOf s n).cqTail + 1) % cqSize s n == (tenOf s n).cqHead

/-- A CQ entry of 32 bytes at the tail: SQHD, OVF, FENCE and the phase bit filled in (09 R466, R467, R469). -/
def cqStore (n : Nat) (item : CqItem) (ovf : Bool) (s : State) : State :=
  let t := tenOf s n
  let b7 := (item.bytes.getD 7 0).toNat
  let e := splice item.bytes 4 (leBytes 2 t.sqHead)
  let e := splice e 7 (leBytes 1 (putBits b7 1 1 (b2n ovf)))
  let e := splice e 31 (leBytes 1 (t.fence % 16 + 128 * b2n t.phase))
  let s := tenStore n (base64 s (tenBase n + 0x210) + 32 * t.cqTail) e s
  let tail := (t.cqTail + 1) % cqSize s n
  modTen n (fun t => { t with
    cqTail := tail
    phase := if tail = 0 then !t.phase else t.phase
    sinceReady := t.sinceReady + 1
    oldest := some (t.oldest.getD s.tm.clk) }) s

/-- CQ_READY of tenant `n` fires (09 R472): vector 0 of its function for a PCIe tenant (12 R606); its pins follow the entries
beyond the head the node knows (12 R609). -/
def cqReady (raise : Raise) (n : Nat) (s : State) : State :=
  let s := modTen n (fun t => { t with sinceReady := 0, oldest := none }) s
  let s := { s with evt := { s.evt with cqCond := s.evt.cqCond ||| BitVec.ofNat 8 (2 ^ n) } }
  let s := raise (320 + 8 * n) detNone s
  if isSpi s n then s else if powered s then msixSignal n 0 s else s

/-- An entry written, and CQ_READY where the coalescing fires (09 R472). -/
def cqEntry (raise : Raise) (n : Nat) (item : CqItem) (ovf : Bool) (s : State) : State :=
  let s := cqStore n item ovf s
  let s := if isSpi s n then s else perfWith raise 129 1 (some n) s
  if item.irq || rfld s (tenBase n + 0x220) 0 8 ≤ (tenOf s n).sinceReady then cqReady raise n s else s

/-- How a completion or record fared at the ring. -/
inductive CqFate where
  | written | held | none
  deriving DecidableEq, Repr

/-- A completion or record handed to tenant `n`'s CQ: written, or in the overflow, or neither where both are full
(09 R473–R475). -/
def cqPutWith (raise : Raise) (n : Nat) (item : CqItem) (s : State) : State × CqFate :=
  let t := tenOf s n
  if t.ovf.isEmpty && !cqFull s n then (cqEntry raise n item false s, .written)
  else if 16 ≤ t.ovf.length then (s, .none)
  else
    let s := modTen n (fun t => { t with ovf := t.ovf ++ [item] }) s
    let s := count (tenBase n + 0x408) 1 s
    let s := perfWith raise 8 1 (some n) s
    let s := if t.ovf.isEmpty then raise (321 + 8 * n) detNone s else s
    if t.ovf.length = 15 then
      (raise (322 + 8 * n) detNone (count (tenBase n + 0x40C) 1 (modTen n (fun t => { t with stall := true }) s)), .held)
    else (s, .held)

/-- The bytes of an event record (09 R469). -/
def recBytes (ev : Nat) (detail : List Byte) (lost : Bool) (hoop : Word) : List Byte :=
  leBytes 2 ev ++ [0, 0, 0, 0, 0] ++ leBytes 1 (1 + 4 * b2n lost) ++ slice detail 0 16 ++ leBytes 4 hoop.toNat ++ leBytes 4 0

/-- One record of an event for tenant `n` (12 R605, 09 R475); true when it was written or held. -/
def recPut (raise : Raise) (ev : Nat) (detail : List Byte) (n : Nat) (s : State) : State × Bool :=
  let t := tenOf s n
  if t.rst ∨ !ringEn s n then (s, false)
  else
    let r := cqPutWith raise n { bytes := recBytes ev detail t.lostEv s.tm.hoop, evt := some ev } s
    match r.2 with
    | .none =>
      let s := count (tenBase n + 0x418) 1 r.1
      (raise (327 + 8 * n) detNone (modTen n (fun t => { t with lostEv := true }) s), false)
    | _ => (modTen n (fun t => { t with lostEv := false }) r.1, true)

/-- The pending bit and EVT_LAST (12 R601, R631). -/
def latch (ev : Nat) (s : State) : State :=
  { s with evt := { s.evt with
      pend := s.evt.pend ||| BitVec.ofNat 512 (2 ^ ev)
      last := word (ev + 2 ^ 16 * (s.tm.hoop.toNat % 2 ^ 16)) } }

/-- The tenants a raise of `ev` would write a record to: the route's CQ bits, enabled, unmasked (12 R605, R606). -/
def recTargets (s : State) (ev : Nat) (only : Option Nat) : List Nat :=
  let cq := match only with
    | some n => 2 ^ n
    | none => if 320 ≤ ev ∧ ev < 384 ∧ ev % 8 = 0 then 0 else if ev = 451 then 0 else rfld s (0xA000 + 4 * ev) 0 8
  (List.range 8).filter fun n =>
    bitOf cq n && enabled s n && !rbit s (tenBase n + 0x300 + 4 * (ev / 32)) (ev % 32)

/-- HOLDOFF withholds the records of this raise (12 R610). -/
def withheld (s : State) (ev : Nat) : Bool :=
  match tget s.evt.lastRec ev with
  | none => false
  | some r => decide (s.tm.rows - r < rfld s (0xA000 + 4 * ev) 19 8)

/-- Routing of a raised event: records in tenant order, then MSI-X (12 R604–R610). The pins follow `irqLow`. -/
def routeEvt (raise : Raise) (ev : Nat) (detail : List Byte) (only : Option Nat) (s : State) : State :=
  let ts := recTargets s ev only
  let route := regCur s (0xA000 + 4 * ev)
  let s :=
    if ts.isEmpty then s
    else if withheld s ev then count 0xA8C0 1 s
    else
      let r := ts.foldl (fun (p : State × Bool) n =>
        let q := recPut raise ev detail n p.1
        (q.1, p.2 || q.2)) (s, false)
      if r.2 then { r.1 with evt := { r.1.evt with lastRec := tset r.1.evt.lastRec ev r.1.tm.rows } } else r.1
  let ready := decide (320 ≤ ev ∧ ev < 384 ∧ ev % 8 = 0) && !isSpi s ((ev - 320) / 8)
  if bitOf route 14 && !ready then msixSignal (bitsOf route 11 3) (bitsOf route 8 3) s else s

/-- An event raised, nested raises bounded by `fuel`: where an event's own record overflows a ring and raises a further event,
the chain stops at the pending bit (DESIGN CHOICE, log 23). -/
def raiseF : Nat → Option Nat → Raise
  | 0, _, ev, _, s => latch ev s
  | f + 1, only, ev, d, s =>
    let s := latch ev s
    if powered s then routeEvt (raiseF f none) ev d only s else s

/-- Event `ev` is raised: handled at once, or with the others of its instant at the instant's end (12 R601, R602). -/
def raiseBy (only : Option Nat) (ev : Nat) (detail : List Byte) (s : State) : State :=
  match s.evt.hold with
  | none => raiseF 4 only ev detail s
  | some l => { s with evt := { s.evt with
      pend := s.evt.pend ||| BitVec.ofNat 512 (2 ^ ev), hold := some (l ++ [{ ev := ev, detail := detail, only := only }]) } }

/-- Event `ev` is raised (12 R601–R610). -/
def raise (ev : Nat) (detail : List Byte) (s : State) : State := raiseBy none ev detail s

/-- PICOT_CAPTURE, written to the channel's owner alone (12 R606). -/
def raiseTo (owner : Nat) (ev : Nat) (detail : List Byte) (s : State) : State := raiseBy (some owner) ev detail s

/-- An event in its place among others, in ascending number; of equal numbers the earlier first. -/
def placeEvt (r : RaisedEvt) : List RaisedEvt → List RaisedEvt
  | [] => [r]
  | x :: xs => if r.ev < x.ev then r :: x :: xs else x :: placeEvt r xs

/-- What happens in one instant: the events it raises are handled in ascending number (12 R602). The commands that can raise several
events out of order are bracketed by it; the others raise theirs in ascending order already, or apart (log 138). -/
def instant (f : State → State) (s : State) : State :=
  match s.evt.hold with
  | some _ => f s
  | none =>
    let t := f { s with evt := { s.evt with hold := some [] } }
    let l := (t.evt.hold.getD []).foldl (fun a r => placeEvt r a) []
    l.foldl (fun s r => raiseF 4 r.only r.ev r.detail s) { t with evt := { t.evt with hold := none } }

/-- PICOT_CAPTURE of a channel whose CAPEV is 0: the pending bit, MSI-X and pins, no record (12 R606). -/
def raiseNoRec (ev : Nat) (s : State) : State := raise ev detNone s

/-- A perf event occurred once. -/
def perf (e : Nat) (ten : Option Nat) (s : State) : State := perfWith raise e 1 ten s

/-- A perf event occurred `n` times. -/
def perfN (e n : Nat) (ten : Option Nat) (s : State) : State := perfWith raise e n ten s

/-- Pin IRQp is driven low (12 R609). -/
def irqLow (s : State) (p : Nat) : Bool :=
  (List.range 512).any fun ev =>
    bitOf (regCur s (0xA000 + 4 * ev)) (15 + p) &&
      (if 320 ≤ ev ∧ ev < 384 ∧ ev % 8 = 0 then s.evt.cqCond.getLsbD ((ev - 320) / 8) else s.evt.pend.getLsbD ev)

/-- A completion for tenant `n` (09 R473). -/
def cqPut (n : Nat) (item : CqItem) (s : State) : State × CqFate := cqPutWith raise n item s

/-- Overflow entries move to the CQ as it has room, first in first out, with OVF = 1 (09 R473); fetching resumes at 8 or fewer
(09 R474). The fuel is the overflow's length. -/
def ovfDrain (n : Nat) : Nat → State → State
  | 0, s => s
  | f + 1, s =>
    match (tenOf s n).ovf with
    | [] => s
    | item :: rest =>
      if cqFull s n then s
      else
        let s := modTen n (fun t => { t with ovf := rest, stall := t.stall && decide (8 < rest.length) }) s
        ovfDrain n f (cqEntry raise n item true s)

/-! ### The clamp log (13 R645–R648) -/

/-- The fields of a clamp that its cause fixes. -/
structure ClampBy where
  kind : Nat
  ten : Nat := 0
  debug : Bool := false
  op : Nat := 0
  deriving DecidableEq, Repr

/-- One clamp recorded, and CLAMP raised; the 64th record raises CLAMP_LOG_FULL; a full log only counts (13 R645, R648). -/
def logClamp (c : ClampRec) (s : State) : State :=
  let i := s.int.clamps.length
  if i < 64 then
    let s := { s with int := { s.int with clamps := s.int.clamps ++ [c], logDirty := true } }
    let s := raise 432 (detN i 0) s
    if i = 63 then raise 433 detNone s else s
  else
    let s := { s with int := { s.int with dropped := min 0xFFFF (s.int.dropped + 1) } }
    raise 432 (detN 0xFFFF 0) s

/-- The clamps of one register write recorded (13 R645, R647). -/
def logClamps (cause : ClampBy) (loc : Nat) (cs : List Clamped) (s : State) : State :=
  each cs (fun s c => logClamp {
    kind := cause.kind, ten := cause.ten, debug := cause.debug, op := cause.op, flsb := c.lo, fwid := c.w
    loc := loc, hoop := s.tm.hoop.toNat % 256, written := word c.written, stored := word c.stored } s) s

/-- The node's own clamp of a register field, KIND 2 (13 R645). -/
def ownClamp (off lo w written stored : Nat) (s : State) : State :=
  logClamps { kind := 2 } off [{ lo := lo, w := w, written := written, stored := stored }] s

/-- A register write after its checks: the value stored, the clamps recorded (00 R13). -/
def regPutChecked (cause : ClampBy) (off v : Nat) (s : State) : State :=
  let r := regCheck s off v
  logClamps cause off r.2 (regStore off r.1 s)

/-! ### Levels and event helpers shared by many meanings -/

/-- Lane number of a lane. -/
def laneIx : LaneId → Nat
  | .a => 0
  | .b => 1
  | .c => 2

/-- Side number of a side. -/
def sideIx : Side → Nat
  | .e1 => 0
  | .e2 => 1

/-- Lane by number. -/
def laneOfIx : Nat → LaneId
  | 0 => .a
  | 1 => .b
  | _ => .c

/-- Offset of LAN counter `i` of lane `l` (03 R194). -/
def lanCtr (l i : Nat) : Nat := lanBase l + 0x80 + 4 * i

/-- A lane event with the related counter as it stands (12, code LS). -/
def raiseLane (k l sd ctr : Nat) (s : State) : State := raise (64 + 16 * l + k) (detLS l sd 0 0 (ctrGet s (lanCtr l ctr))) s

/-- A PCIe DMA read request leaves (09 R434, R435): its identifier and use are kept. -/
def dmaRead (fn addr len : Nat) (use : DmaUse) (s : State) : State :=
  let id := s.ten.dmaId
  let s := { s with
    ten := { s.ten with dma := tset s.ten.dma id use, dmaId := id + 1 }
    out := .hostRead fn id addr len :: s.out }
  perf 128 (some fn) s

end Sys2Proof.Machine
end

