-- ==== Sys2Proof/Machine/Lines.lean ====
section
/-! DEFINITION. Line addresses, homes and regions (01, 06), the stored lines, filter entries and copies, pins, and the queue of
outgoing messages: the shared small operations of the coherence engine. -/

namespace Sys2Proof.Machine

/-! ### Addresses and homes (01 R15–R22, 06 R316) -/

/-- Home key of a line address (01 R17). -/
def laHk (la : Nat) : Nat := la / 65536 % 256

/-- Line index of a line address (01 R17). -/
def laLx (la : Nat) : Nat := la % 65536

/-- The role whose home key this is (00 R14). -/
def roleOf (hk : Nat) : Option Nat := if 0xE0 ≤ hk ∧ hk ≤ 0xE7 then some (hk - 0xE0) else none

/-- A reserved home key (00 R15). -/
def hkReserved (hk : Nat) : Bool := hk == 0 || 0xE8 ≤ hk

/-- Lines of the home with key `hk` (01 R18). -/
def homeLines (hk : Nat) : Nat := if 0xE0 ≤ hk then 0x400 else 0x2000

/-- Home-store index of a line address (06 R316). -/
def xOf (la : Nat) : Nat :=
  match roleOf (laHk la) with
  | some r => 0x2000 + 0x400 * r + laLx la
  | none => laLx la

/-- Line address of home-store index `x` at a node with home key `hk`. -/
def laOf (hk x : Nat) : Nat := if x < 0x2000 then hk * 65536 + x else (0xE0 + (x - 0x2000) / 0x400) * 65536 + x % 0x400

/-- The node holds role `r` now (05 TRN_ROLEFLAGS). -/
def holdsRole (s : State) (r : Nat) : Bool := s.trn.held.getLsbD r

/-- This node is the home of the line (01 R16, R22). -/
def homedHere (s : State) (la : Nat) : Bool :=
  match roleOf (laHk la) with
  | some r => holdsRole s r
  | none => laHk la == s.kee.hk

/-- Node number of a home key in the present roster, 0 when absent. -/
def nodeOfHk (s : State) (hk : Nat) : Nat :=
  match s.trn.roster.findIdx? (· == hk) with
  | some i => i + 1
  | none => 0

/-- Home key of a node number in the present roster. -/
def hkOfNode (s : State) (k : Nat) : Nat := if k = 0 then 0 else s.trn.roster.getD (k - 1) 0

/-- Node that serves the home of a line: while a role moves, its old holder (10 R546). 0 when none. -/
def homeNode (s : State) (la : Nat) : Nat :=
  match roleOf (laHk la) with
  | some r => match s.pat.moving.find? (fun e => e.1 == r) with
    | some e => e.2
    | none => s.trn.holders.getD r 0
  | none => nodeOfHk s (laHk la)

/-- The home key is in use in the train (05 R252). Without an epoch every key that is not reserved passes, so that remote
commands wait as 10 R555 states (DEDUCED, log 30). -/
def hkInUse (s : State) (hk : Nat) : Bool :=
  !hkReserved hk && (s.trn.nnodes == 0 || hk == s.kee.hk ||
    match roleOf hk with
    | some r => s.trn.holders.getD r 0 != 0
    | none => nodeOfHk s hk != 0)

/-! ### Regions (06 R285–R291) -/

/-- Class number of a class. -/
def clsIx : Cls → Nat
  | .c0 => 0
  | .c1 => 1
  | .c2 => 2

/-- Class of a class number; 3 is taken as 2 (10 R520). -/
def clsOf : Nat → Cls
  | 0 => .c0
  | 1 => .c1
  | _ => .c2

/-- The region that covers a line (06 R285). -/
def regionAt (s : State) (la : Nat) : Option (Nat × Region) :=
  s.home.regions.find? fun e => e.2.base ≤ la && la < e.2.base + e.2.count

/-- Class of a line's messages at this node: the class in force of its region (06 R290; log 31). -/
def clsAt (s : State) (la : Nat) (d : Cls) : Cls :=
  match regionAt s la with
  | some e => e.2.cls
  | none => d

/-! ### Home lines and the filter (08 R403, 06 R316–R319) -/

/-- A home line; one never committed has version 0, age 0 and data that no rule gives (log 1). -/
def homeLine (s : State) (la : Nat) : HomeLine := tgetD s.home.lines (xOf la) {}

/-- A home line changed. -/
def setLine (la : Nat) (h : HomeLine) (s : State) : State := { s with home := { s.home with lines := tset s.home.lines (xOf la) h } }

/-- Age of a home line (01 R29): 0 in the first row after a commit, one more in each row after it, at most 255. -/
def homeAge (s : State) (h : HomeLine) : Nat := min 255 (h.ageBase + (s.tm.rows - h.ageRow))

/-- The filter entry of a home line. -/
def fEntry (s : State) (la : Nat) : Option FEntry := tget s.home.filter (xOf la)

/-- The filter entry set; none: the line becomes U. -/
def setEntry (la : Nat) (e : Option FEntry) (s : State) : State :=
  match e with
  | some e => { s with home := { s.home with filter := tset s.home.filter (xOf la) e } }
  | none => { s with home := { s.home with filter := tdel s.home.filter (xOf la) } }

/-- Entries of a filter set, with their home-store index. -/
def fSet (s : State) (set : Nat) : List (Nat × FEntry) := s.home.filter.filter fun e => e.1 % 1024 == set

/-- The tracker keeps no request of its line waiting: a PUBLISH line's write that awaits the mirror's answer alone, a mirror send, a
transfer (06 R305, R306, R340). -/
def passed (t : Tracker) : Bool := t.phase == .mirror && (t.purpose != .request || !t.claim)

/-- A tracker works the line: BUSY (06 R303). -/
def isBusy (s : State) (la : Nat) : Bool := s.home.trks.any fun t => t.la == la && t.phase != .queued && !passed t

/-- The line's FIFO holds a request. -/
def hasFifo (s : State) (la : Nat) : Bool := s.home.trks.any fun t => t.la == la && !passed t

/-- Trackers changed. -/
def setTrks (l : List Tracker) (s : State) : State := { s with home := { s.home with trks := l } }

/-- The tracker with index `ix` changed. -/
def modTrk (ix : Nat) (f : Tracker → Tracker) (s : State) : State :=
  setTrks (s.home.trks.map fun t => if t.ix == ix then f t else t) s

/-- The tracker with index `ix` freed (06 R311). -/
def freeTrk (ix : Nat) (s : State) : State := setTrks (s.home.trks.filter fun t => t.ix != ix) s

/-- The tracker with index `ix`. -/
def trkOf (s : State) (ix : Nat) : Option Tracker := s.home.trks.find? fun t => t.ix == ix

/-! ### Bobbins -/

/-- A bobbin set. -/
def setBob (b : Nat) (v : Bobbin) (s : State) : State := { s with ten := { s.ten with bobs := tset s.ten.bobs b v } }

/-- A bobbin changed. -/
def modBob (b : Nat) (f : Bobbin → Bobbin) (s : State) : State := { s with ten := { s.ten with bobs := tmod s.ten.bobs b f } }

/-- A bobbin freed, and the way that was reserved for it and never used. -/
def freeBob (b : Nat) (s : State) : State :=
  { s with
    ten := { s.ten with bobs := tdel s.ten.bobs b }
    cc := { s.cc with ways := s.cc.ways.filter fun e => !(e.2.st == .i && e.2.held.isNone && e.2.bob == some b) } }

/-- A bobbin in use. -/
def bobOf (s : State) (b : Nat) : Option Bobbin := tget s.ten.bobs b

/-- A free bobbin of a range: the search starts where the last allocation left off, so that an index, and with it a writer key, is
not used again at once (DESIGN CHOICE, log 34). -/
def freeIn (s : State) (lo n : Nat) : Option Nat :=
  ((List.range n).map fun i => lo + (s.ten.seq + i) % n).find? fun i => (bobOf s i).isNone

/-- A free internal bobbin, 0–31 (09 R477, 11 R581). -/
def freeIntern (s : State) : Option Nat := freeIn s 0 32

/-! ### Outgoing messages (06 R338, 07 R346, R347) -/

/-- Level of a message type (07 R346); 33h is an answer with ACK = 1. -/
def levelOf (m : LineMsg) : Nat :=
  match m.typ with
  | .rdShared | .rdOwn | .ownNodata | .wrPublish | .wrMasked | .atomicReq | .lockReq | .unlockReq | .subReq | .unsubReq
  | .writeback | .evictClean | .readHome => 3
  | .update | .invalidate | .recall | .leaseBreak | .migLine | .migDir => 2
  | .migDone => if m.flg.getLsbD 0 then 1 else 2
  | _ => 1

/-- Use of a message's stitch (04 R198, 03 R272). -/
def useOf (m : LineMsg) : Use :=
  match m.typ with
  | .rdShared | .rdOwn | .ownNodata | .wrPublish | .wrMasked | .atomicReq | .lockReq | .unlockReq | .subReq | .unsubReq
  | .writeback | .evictClean | .readHome => .req
  | .invAck | .recallData | .recallNodata => .rsp
  | .migLine | .migDir => .mig
  | .migDone => if m.flg.getLsbD 0 then .rsp else .mig
  | _ => .hom

/-- A message queued for its stitch. -/
def queueMsg (m : LineMsg) (bob : Option Nat) (s : State) : State :=
  { s with lan := { s.lan with txq := s.lan.txq ++ [{ msg := .line m, cls := m.cls, use := useOf m, level := levelOf m, bob := bob }] } }

/-- Probes outstanding to node `k` (07 R368). -/
def creditOf (s : State) (k : Nat) : Nat := tgetD s.lan.credit k 0

/-- A probe queued to node `k`, or kept until an answer returns credit (07 R368). -/
def queueProbe (k : Nat) (m : LineMsg) (s : State) : State :=
  if creditOf s k < 16 then
    queueMsg m none { s with lan := { s.lan with credit := tset s.lan.credit k (creditOf s k + 1) } }
  else { s with lan := { s.lan with probeWait := s.lan.probeWait ++ [(k, { msg := .line m, cls := m.cls, use := useOf m, level := levelOf m })] } }

/-- An answer from node `k` returns credit, and the first probe waiting for it leaves (07 R368). -/
def returnCredit (k : Nat) (s : State) : State :=
  match s.lan.probeWait.find? fun e => e.1 == k with
  | some e => { s with lan := { s.lan with probeWait := s.lan.probeWait.erase e, txq := s.lan.txq ++ [e.2] } }
  | none => { s with lan := { s.lan with credit := tset s.lan.credit k (creditOf s k - 1) } }

/-- A message queued that answers the committed write of key `k` (05 R265). -/
def queueWrote (m : LineMsg) (k : Option WKey) (s : State) : State :=
  { s with lan := { s.lan with txq := s.lan.txq ++ [{ msg := .line m, cls := m.cls, use := useOf m, level := levelOf m, wrote := k }] } }

/-- An UPDATE of a new commit queued; an unsent UPDATE or push of the line gives way to it, and it takes its own place in the order of
commits (06 R333, R339; 07 R370). -/
def queueUpdate (m : LineMsg) (s : State) : State :=
  let same := fun (i : TxItem) => match i.msg with
    | .line x => x.typ == .update && x.la == m.la
    | _ => false
  queueMsg m none { s with lan := { s.lan with txq := s.lan.txq.filter fun i => !same i } }

/-! ### Copies (08 R378–R387) -/

/-- Set of a line address (08 R378). -/
def setOf (la : Nat) : Nat := (laLx la % 1024) ^^^ (laHk la % 32 * 0x20)

/-- Index of the way-quadrant of way `w` in a set: way × 4 + quadrant (08 R380). -/
def wqOf (set w : Nat) : Nat := w * 4 + set / 256

/-- A way-quadrant's record. -/
def wq (s : State) (i : Nat) : WayQ := tgetD s.cc.wqs i {}

/-- Ways of a set with their copies. -/
def waysOf (s : State) (set : Nat) : List (Nat × Copy) := s.cc.ways.filter fun e => e.1 / 16 == set

/-- The copy of a line: its way key and record. A held line is no copy (07 R359). -/
def copyOf (s : State) (la : Nat) : Option (Nat × Copy) :=
  (waysOf s (setOf la)).find? fun e => e.2.la == la && e.2.held.isNone && e.2.st != .i

/-- The held line of an address (07 R359). -/
def heldOf (s : State) (la : Nat) : Option (Nat × Copy) := (waysOf s (setOf la)).find? fun e => e.2.la == la && e.2.held.isSome

/-- State of the copy of a line (06 R299). -/
def copyState (s : State) (la : Nat) : CState :=
  match copyOf s la with
  | some e => e.2.st
  | none => .i

/-- A way's record set. -/
def setCopy (k : Nat) (c : Copy) (s : State) : State := { s with cc := { s.cc with ways := tset s.cc.ways k c } }

/-- A way freed. -/
def dropWay (k : Nat) (s : State) : State := { s with cc := { s.cc with ways := tdel s.cc.ways k } }

/-- The copy of a line changed. -/
def modCopy (la : Nat) (f : Copy → Copy) (s : State) : State :=
  match copyOf s la with
  | some e => setCopy e.1 (f e.2) s
  | none => s

/-- The copy of a line dropped. -/
def dropCopy (la : Nat) (s : State) : State :=
  match copyOf s la with
  | some e => dropWay e.1 s
  | none => s

/-- A hit: the way is the most recently used of its set (08 R384). -/
def touch (la : Nat) (s : State) : State :=
  let s := { s with cc := { s.cc with lru := s.cc.lru + 1 } }
  modCopy la (fun c => { c with lru := s.cc.lru }) s

/-- Effective age of a copy (06 R298). -/
def copyAge (s : State) (c : Copy) : Nat := min 255 (c.age + (s.tm.rows - c.ageRow))

/-- A transient copy state (06 R299). -/
def transient : CState → Bool
  | .is | .im | .sm | .ip | .mi | .ci => true
  | _ => false

/-- ON ways of a quadrant (08 R385). -/
def onWays (s : State) (q : Nat) : Nat := ((List.range 16).filter fun w => (wq s (w * 4 + q)).st == .on).length

/-- The pin limit of a set (08 R385). -/
def pinLimit (s : State) (set : Nat) : Nat := min 8 (onWays s (set / 256) - 4)

/-- Pin reservations in force in a set. -/
def pinsIn (s : State) (set : Nat) : Nat := (s.cc.pins.filter fun p => setOf p.la == set && !p.demoted).length

/-- Pin reservations in force in the whole cache. -/
def pinsAll (s : State) : Nat := (s.cc.pins.filter fun p => !p.demoted).length

/-- The line is pinned. -/
def isPinned (s : State) (la : Nat) : Bool := s.cc.pins.any fun p => p.la == la && !p.demoted

/-- Would the lines fit the pin limits of every set they touch and of the cache (08 R385, R386)? -/
def pinsFit (s : State) (las : List Nat) : Bool :=
  decide (pinsAll s + las.length ≤ 8192) &&
    las.all fun a => pinsIn s (setOf a) + (las.filter fun b => setOf b == setOf a).length ≤ pinLimit s (setOf a)

/-! ### Phases, and a bobbin at its acceptance (02 R53; 01 R30; 12 R617, R618) -/

/-- Row phase now, in 1/256 pu (02 R53): the anchor plus the time since it at the hoop's period. -/
def phaseAt (clk anchor : Nat) (ph : Phase) (period : Nat) : Phase :=
  ph + BitVec.ofNat 32 ((clk - anchor) * 2 ^ 32 / (max 1 period * 2))

/-- Row phase now. -/
def rowPhase (s : State) : Phase := phaseAt s.tm.clk s.tm.rowClk s.tm.rowPh s.tm.period

/-- The two phases are one: the rows are locked to the mains (02 R55), or the true phase follows the virtual hoop (02 R118). -/
def tied (s : State) : Bool := s.tm.locked || s.tm.virt

/-- True phase now: the row phase while the two are one (02 R55, R118), else from its own anchor. -/
def truePhase (s : State) : Phase := if tied s then rowPhase s else phaseAt s.tm.clk s.tm.trueClk s.tm.truePh s.tm.tperiod

/-- Whether an accepted job meets the sampler's filters (12 R617). -/
def sampleFilter (s : State) (ten op : Nat) (intern : Bool) : Bool :=
  let g := rfld s 0xB040 3 3
  let grp := if op < 0x10 then 1 else if op < 0x20 then 2 else if op < 0x30 then 3 else if op < 0x40 then 4 else if op < 0x50 then 5 else 6
  rbit s 0xB040 0 && (if intern then rbit s 0xB040 2 else bitOf (rfld s 0xB040 6 8) ten) && (g == 0 || g == grp)

/-- An accepted job counted by the sampler; it chooses one in every PERIOD (12 R617). -/
def sampleChoose (b : Nat) (ten op : Nat) (intern : Bool) (s : State) : State :=
  if !sampleFilter s ten op intern then s
  else if rfld s 0xB040 22 10 ≤ s.pmc.jobs + 1 then
    modBob b (fun v => { v with sampled := true }) { s with pmc := { s.pmc with jobs := 0 } }
  else { s with pmc := { s.pmc with jobs := s.pmc.jobs + 1 } }

/-- A bobbin that accepts a line command now: the class, mode and age limit of the region that covers its line, and the instant
(01 R30, 10 R559). -/
def lineBobbin (s : State) (kind : BobKind) (job : Job) : Bobbin :=
  let r : Option Region := (regionAt s job.la).map (·.2)
  { kind := kind, job := job, cls := (r.map (·.cls)).getD .c2, home := homedHere s job.la,
    par := b2n (r.any (·.claim)) + 2 * (r.map (·.agelim)).getD 0,
    accClk := s.tm.clk, accHoop := s.tm.hoop, accPh := BitVec.ofNat 32 ((rowPhase s).toNat / 256), seq := s.ten.seq }

/-- A bobbin taken for a command accepted now, counted by the sampler. -/
def acceptBob (b : Nat) (v : Bobbin) (s : State) : State :=
  sampleChoose b v.job.ten v.job.op (v.kind != .job) (setBob b v { s with ten := { s.ten with seq := s.ten.seq + 1 } })

/-- Internal bobbins that port `p` holds (11 R581); their jobs carry the port as tag. -/
def portHeld (s : State) (p : Nat) : Nat :=
  (s.ten.bobs.filter fun e => e.2.job.tag == p && (match e.2.kind with
    | .bindWrite _ | .bindSub _ => true
    | _ => false)).length

/-- An internal bobbin for port `p`: at most 12 each, 24 together (11 R581). -/
def portBob (s : State) (p : Nat) : Option Nat := if portHeld s p < 12 then freeIntern s else none

/-- A binding's subscription has a bobbin already. -/
def bindSubOut (s : State) (i : Nat) : Bool := s.ten.bobs.any fun e => e.2.kind == .bindSub i

/-- A transmit binding's subscription starts on an internal bobbin (10 R530, 11 R589); nothing where none is free: the binding's next
load tries again (log 33). -/
def bindSubStart (i : Nat) (e : Bind) (s : State) : State :=
  if bindSubOut s i then s
  else match portBob s e.port with
    | none => s
    | some b => acceptBob b (lineBobbin s (.bindSub i) { ten := e.ten, op := 0x0D, tag := e.port, la := e.la }) s

/-! ### Subscriptions (10 R515, R516) -/

/-- Tenants that subscribe a line; 8 stands for the binding engine. -/
def subsOf (s : State) (la : Nat) : List Nat := (s.home.subs.filter fun e => e.1 == la).map (·.2)

/-- A tenant's interest recorded. -/
def addSub (la t : Nat) (s : State) : State :=
  if s.home.subs.contains (la, t) then s else { s with home := { s.home with subs := s.home.subs ++ [(la, t)] } }

/-- A tenant's interest removed. -/
def delSub (la t : Nat) (s : State) : State := { s with home := { s.home with subs := s.home.subs.filter (· != (la, t)) } }

/-- SUB_LOST to each local tenant that subscribed the line (06 R300, R321; 09 R471): its interest ends. Transmit bindings on the
line lose their subscription and subscribe again (11 R589). -/
def subLost (la : Nat) (s : State) : State :=
  let ts := (subsOf s la).filter (· < 8)
  let s := each ts (fun s t => raise (325 + 8 * t) (detLA la) (delSub la t s)) s
  let hit := s.can.binds.filter fun e => e.2.tx && e.2.la == la && e.2.sub
  let s := delSub la 8 s
  let s := { s with can := { s.can with binds := s.can.binds.map fun e =>
      (e.1, if e.2.tx && e.2.la == la then { e.2 with sub := false } else e.2) } }
  each hit (fun s e => raise (256 + 32 * e.2.port + 15) (detN e.1 0) (bindSubStart e.1 e.2 s)) s

/-- A new version of the line makes its transmit bindings pending; one already pending is counted as coalesced (11 R587). -/
def bindPend (la : Nat) (s : State) : State :=
  let hit := s.can.binds.filter fun e => e.2.tx && e.2.la == la
  let s := each hit (fun s e => if e.2.pend then
      perf (112 + 8 * e.2.port + 4) none (count (cbpBase e.2.port + 0x118) 1 s) else s) s
  { s with can := { s.can with binds := s.can.binds.map fun e =>
      (e.1, if e.2.tx && e.2.la == la then { e.2 with pend := true } else e.2) } }

/-- Version `a` is newer than version `b` (06 R296). -/
def newer (a b : Word) : Bool := 1 ≤ (a - b).toNat && (a - b).toNat ≤ 0x7FFFFFFF

/-! ### States of the node that the coherence engine asks for -/

/-- Time state SYNC or HOLDOVER (02 R96). -/
def timed (s : State) : Bool := s.tm.tstate == .sync || s.tm.tstate == .holdover

/-- From Freeze until Resume (05 R256). -/
def frozen (s : State) : Bool := s.trn.frozen

/-- The node takes line messages: it has a node number and serves its lines (01 R46). -/
def onTrain (s : State) : Bool :=
  (s.trn.memb == .member || s.trn.memb == .listenOnly || s.trn.memb == .joining) && s.trn.node != 0

/-- Holder node number of the MIRROR role. -/
def mirrorNode (s : State) : Nat := s.trn.holders.getD 4 0

end Sys2Proof.Machine
end

