-- ==== Sys2Proof/Machine/Complete.lean ====
section
/-! DEFINITION. Completions: the output buffer, the CQ entry, the sample record, the end of a bobbin, and the result of one line
of a command (09 R455–R477, 10 R497–R513, 12 R617–R619). -/

namespace Sys2Proof.Machine

/-- Status codes of 10 R502 that this model names. -/
def stOk : Nat := 0x00
def stAged : Nat := 0x01
def stClamped : Nat := 0x02
def stDemoted : Nat := 0x03
def stReplayed : Nat := 0x04
def stDenied : Nat := 0x10
def stNotMapped : Nat := 0x11
def stNotLocked : Nat := 0x12
def stLockedOut : Nat := 0x13
def stLeaseExpired : Nat := 0x14
def stOrphan : Nat := 0x15
def stLineLost : Nat := 0x16
def stBusyRun : Nat := 0x17
def stCapacity : Nat := 0x18
def stBadParam : Nat := 0x19
def stTimeout : Nat := 0x1A
def stVersion : Nat := 0x1C
def stPattern : Nat := 0x1D
def stBadOpcode : Nat := 0x1E
def stAborted : Nat := 0x1F
def stDataError : Nat := 0x20

/-- The fields of a completion that its command gives (09 R466, 10 R501). -/
structure Done where
  status : Nat := 0
  age : Nat := 0
  version : Word := 0
  res0 : Nat := 0
  res1 : Nat := 0
  casFail : Bool := false
  /-- A result of the output; none: the command produces none. -/
  out : Option (List Byte) := none
  deriving DecidableEq, Repr

/-- Is `op` a line command, 01h–15h (10 R501)? -/
def isLineOp (op : Nat) : Bool := (1 ≤ op && op ≤ 0x0E) || (0x10 ≤ op && op ≤ 0x15)

/-- Does the completion of `op` carry the job's line address (10 R492)? -/
def takesLa (op : Nat) : Bool := isLineOp op || (0x20 ≤ op && op ≤ 0x23) || op == 0x25

/-- The 32 bytes of a completion, SQHD, FENCE and the phase bit still open (09 R466). -/
def doneBytes (j : Job) (d : Done) (trunc : Bool) (hoop : Word) : List Byte :=
  leBytes 2 j.tag ++ leBytes 1 d.status ++ leBytes 1 j.op ++ [0, 0] ++ leBytes 1 (if isLineOp j.op then min 255 d.age else 0)
    ++ leBytes 1 (flagAt d.casFail 2 + flagAt trunc 3) ++ leBytes 4 (if isLineOp j.op then d.version.toNat else 0)
    ++ leBytes 4 d.res0 ++ leBytes 8 d.res1 ++ leBytes 4 hoop.toNat ++ leBytes 3 (if takesLa j.op then j.la else 0) ++ [0]

/-- Output bytes written across fragments in table order (09 R455). -/
def storeFrags (n : Nat) : List (Nat × Nat) → List Byte → State → State
  | [], _, s => s
  | (a, len) :: fs, bs, s => if bs.isEmpty then s else storeFrags n fs (bs.drop len) (tenStore n a (bs.take len) s)

/-- The output buffer written (09 R456): OLEN bytes at most. -/
def storeOut (b : Bobbin) (bs : List Byte) (s : State) : State :=
  let w := bs.take b.job.olen
  if w.isEmpty then s
  else if b.job.oind then storeFrags b.job.ten b.ofrags w s else tenStore b.job.ten b.job.oaddr w s

/-- The sample record of a chosen job (12 R618). -/
def sampleBytes (b : Bobbin) (d : Done) (latNs sseq : Nat) : List Byte :=
  let intern := b.kind != .job
  let tag := match b.kind with
    | .bindWrite i => i
    | .bindSub i => i
    | _ => b.job.tag
  leBytes 2 tag ++ leBytes 1 b.job.op ++ leBytes 1 d.status ++ leBytes 3 (if takesLa b.job.op then b.job.la else 0)
    ++ leBytes 1 (b.job.ten % 8 + 8 * (b.lane % 4) + 32 * clsIx b.cls + flagAt intern 7)
    ++ leBytes 4 (min 0xFFFFFFFF latNs) ++ leBytes 2 b.stitches ++ leBytes 1 (min 255 d.age)
    ++ leBytes 1 (b.naks % 8 + flagAt b.elder 3 + flagAt b.replay 4 + flagAt b.home 5)
    ++ leBytes 4 b.accHoop.toNat ++ leBytes 3 b.accPh.toNat ++ [0] ++ leBytes 4 d.version.toNat ++ leBytes 2 sseq ++ [0, 0]

/-- The sample of a completing job (12 R617, R619). -/
def sampleEnd (b : Bobbin) (d : Done) (s : State) : State :=
  let lat := (s.tm.clk - b.accClk) / 8
  if !b.sampled || lat < regCur s 0xB048 || s.pmc.full then s
  else
    let wrap := rbit s 0xB040 1
    let r := (b.job.ten, sampleBytes b d lat s.pmc.sseq)
    let next := (s.pmc.sseq + 1) % 65536
    if 256 ≤ s.pmc.buf.length then
      if wrap then { s with pmc := { s.pmc with buf := s.pmc.buf.drop 1 ++ [r], sseq := next } }
      else raise 457 detNone { s with pmc := { s.pmc with full := true, sseq := next } }
    else
      let s := { s with pmc := { s.pmc with buf := s.pmc.buf ++ [r], sseq := next } }
      if s.pmc.buf.length = rfld s 0xB040 14 8 then raise 458 (detN 0 s.pmc.buf.length) s else s

/-- The counters of a completion (09 R489, 12 R616). Perf event 5 counts statuses from 10h up, those that are no success
(DESIGN CHOICE, log 32). -/
def countDone (b : Bobbin) (d : Done) (s : State) : State :=
  let n := b.job.ten
  let s := count (tenBase n + 0x404) 1 s
  let s := if d.status = stDenied then count (tenBase n + 0x414) 1 s else s
  let s := perf 4 (some n) s
  let s := if 0x10 ≤ d.status then perf 5 (some n) s else s
  let s := if d.status = stAged then perf 31 (some n) s else s
  if isLineOp b.job.op then
    let s := if b.cls = .c0 then perf 160 (some n) s else s
    if regCur s 0xB004 ≤ (s.tm.clk - b.accClk) / 8 then perf 161 (some n) s else s
  else s

/-- A binding's resource is given back: a pool object or pair that no other binding of the port shares; a released object returns to
off (11 R595). Its waiting frame is discarded. -/
def releaseBind (i : Nat) (s : State) : State :=
  match tget s.can.binds i with
  | none => s
  | some e =>
    let s := { s with can := { s.can with binds := tdel s.can.binds i } }
    let last := (portBinds s e.port).all fun x => x.2.obj != e.obj
    let queue := rbit s (cbpBase e.port + 8) 0
    let gone := if !last then [] else if !queue && e.tx && decide (32 < e.len) then [e.obj, e.obj + 1] else [e.obj]
    let s := { s with can := { s.can with ports := lmod s.can.ports e.port fun p => { p with
        pool := if queue && e.tx then p.pool else p.pool.filter fun o => !gone.contains o
        mem := if queue then p.mem else gone.foldl (fun m o => memPuts m (64 * o + 4) (leBytes 4 0)) p.mem
        txpend := if queue then p.txpend else gone.foldl (fun t o => t &&& ~~~(BitVec.ofNat 128 (2 ^ o))) p.txpend
        bfifo := p.bfifo.filter fun x => x.1 != i
        qbind := if p.qbind = some i then none else p.qbind } } }
    if queue && !e.tx && last then { s with reg := (s.reg.put (cbpBase e.port + 0x200 + 8 * e.obj) 0).put (cbpBase e.port + 0x204 + 8 * e.obj) 0 }
    else s

/-- A binding write ended (11 R584, R586): the version written, or the value lost, with BIND_WRITE_FAIL. -/
def bindWriteDone (i : Nat) (d : Done) (s : State) : State :=
  match tget s.can.binds i with
  | none => s
  | some e =>
    if d.status < 0x10 then
      perf (112 + 8 * e.port + 2) none <| count (cbpBase e.port + 0x110) 1
        { s with can := { s.can with binds := tset s.can.binds i { e with ver := d.version } } }
    else raise (256 + 32 * e.port + 12) (detN i d.status) (count (cbpBase e.port + 0x120) 1 s)

/-- The completion of a job or of a CMD entry: output first, then the CQ entry, then the bobbin is free; with both rings full the
bobbin keeps the completion (09 R456, R467, R468; 07 R373). A resetting tenant's is discarded (07 R365). -/
def completeJob (b : Nat) (v : Bobbin) (d : Done) (s : State) : State :=
  match v.kind with
  | .cmd ix =>
    let s := freeBob b s
    if d.status = stOk ∨ d.status = stClamped ∨ d.status = stDemoted then s else raise 16 (detN ix d.status) s
  | _ =>
    if v.absorb then freeBob b s
    else
      let trunc := match d.out with
        | some o => decide (v.job.olen < o.length)
        | none => false
      let s := match d.out with
        | some o => storeOut v o s
        | none => s
      let bytes := doneBytes v.job d trunc s.tm.hoop
      let s := countDone v d (sampleEnd v d s)
      let r := cqPut v.job.ten { bytes := bytes, irq := v.job.irq } s
      match r.2 with
      | .none => setBob b { v with wait := .cqFull, kept := some (bytes, v.job.irq) } r.1
      | _ => freeBob b r.1

/-- The BIND_CAN that waits for binding `i`'s subscription (10 R530). -/
def bindWaiter (s : State) (i : Nat) : Option (Nat × Bobbin) :=
  s.ten.bobs.find? fun e => e.2.job.op == 0x23 && e.2.wait == .answer && e.2.par == i

/-- A transmit binding's subscription ended (10 R530, 11 R588): the binding sends from now on; where it failed, a BIND_CAN that
waits for it fails with its status and leaves no binding (DEDUCED, log 45). -/
def bindSubDone (i : Nat) (d : Done) (s : State) : State :=
  let ok := decide (d.status < 0x10)
  let s := { s with can := { s.can with binds := tmod s.can.binds i fun e => { e with sub := ok } } }
  match bindWaiter s i with
  | none => s
  | some w =>
    if ok then completeJob w.1 w.2 { res0 := i, status := if w.2.clamped then stClamped else stOk } s
    else completeJob w.1 w.2 { status := d.status } (releaseBind i s)

/-- The end of a bobbin's command. -/
def complete (b : Nat) (d : Done) (s : State) : State :=
  match bobOf s b with
  | none => s
  | some v =>
    match v.kind with
    | .intern => freeBob b s
    | .bindWrite i => bindWriteDone i d (freeBob b (sampleEnd v d s))
    | .bindSub i => bindSubDone i d (freeBob b (sampleEnd v d s))
    | _ => completeJob b v d s

/-- Completions kept by bobbins enter the overflow, oldest first, as it has room (07 R373). The fuel is the number of bobbins. -/
def keptDrain (n : Nat) : Nat → State → State
  | 0, s => s
  | f + 1, s =>
    match s.ten.bobs.find? (fun e => e.2.job.ten == n && e.2.kept.isSome && e.2.kind == .job) with
    | none => s
    | some e =>
      match e.2.kept with
      | none => s
      | some k =>
        let r := cqPut n { bytes := k.1, irq := k.2 } s
        match r.2 with
        | .none => s
        | _ => keptDrain n f (freeBob e.1 r.1)

/-- The head of a CQ moved: overflow entries first, then kept completions (09 R473, R474; 07 R373). -/
def cqAdvance (n : Nat) (s : State) : State :=
  let s := ovfDrain n 16 s
  let s := keptDrain n 512 s
  let s := ovfDrain n 16 s
  let t := tenOf s n
  if t.cqHead = t.cqTail then { s with evt := { s.evt with cqCond := s.evt.cqCond &&& ~~~(BitVec.ofNat 8 (2 ^ n)) } } else s

/-- The success status of a job with these qualifications, first that applies (10 R497). -/
def okStatus (replayed demoted clamped aged : Bool) : Nat :=
  if replayed then stReplayed else if demoted then stDemoted else if clamped then stClamped else if aged then stAged else stOk

/-- The result of one line of a line command. -/
structure LineRes where
  /-- 00h for success, else the status that ends the command. -/
  status : Nat := 0
  version : Word := 0
  age : Nat := 0
  data : Option Line := none
  res0 : Nat := 0
  res1 : Nat := 0
  casFail : Bool := false
  replayed : Bool := false
  /-- The data is older than AGELIM or from a stale copy (06 R298, R336). -/
  aged : Bool := false
  deriving DecidableEq, Repr

/-- Lines of a block command (10 R503). -/
def blkCount (j : Job) : Nat :=
  if j.op = 3 then max 1 (min 64 (leAt j.arg 0 2)) else if j.op = 6 then j.alen / 64 else 1

/-- The line address a command works now: for a block, its next line (10 R510). -/
def curLa (v : Bobbin) : Nat := v.job.la + v.blk

/-- Is the op a block? -/
def isBlk (op : Nat) : Bool := op == 3 || op == 6

/-- One line of bobbin `b`'s command has its result (10 R497, R501, R510, R513; absorbed where its tenant was reset, 07 R365): a
block goes on to its next line when its row
performs it again, any other command completes. -/
def finishLine (b : Nat) (r : LineRes) (s : State) : State :=
  match bobOf s b with
  | none => s
  | some v =>
    let st := if r.status = stOk ∧ v.broke then stLeaseExpired else r.status
    if v.absorb then freeBob b s
    else
    let v := { v with aged := v.aged || r.aged, replayed := v.replayed || r.replayed }
    let final := okStatus v.replayed v.demoted v.clamped v.aged
    if isBlk v.job.op then
      let bytes := match r.data with
        | some l => lineBytes l
        | none => []
      if st ≠ stOk then
        complete b { status := st, age := v.maxAge, version := v.due, res0 := v.blk, out := if v.job.op = 3 then some v.out else none }
          (setBob b v s)
      else
        let v := { v with blk := v.blk + 1, maxAge := max v.maxAge r.age, out := v.out ++ bytes, due := r.version, req := none, left := none
                          naks := 0, elder := false, replay := false }
        if v.blk < blkCount v.job then setBob b { v with wait := .ready } s
        else complete b { status := final, age := v.maxAge, version := r.version, res0 := v.blk, out := if v.job.op = 3 then some v.out else none }
          (setBob b v s)
    else
      let out := if v.job.op = 1 ∨ v.job.op = 2 then r.data.map lineBytes else none
      complete b
        { status := if st = stOk then final else st, age := r.age, version := r.version, res0 := r.res0, res1 := r.res1
          casFail := r.casFail, out := out }
        (setBob b v s)

/-- A read's data against the region's limit (06 R298; 0 never reports). -/
def overAge (s : State) (la age : Nat) : Bool :=
  match regionAt s la with
  | some e => e.2.agelim != 0 && e.2.agelim < age
  | none => false

/-- A fault of the coherence engine's own: none of its bobbins is used for a lane transaction of the node's own, and none is
free (07 R368). The action then waits: nothing is sent (DESIGN CHOICE, log 33). -/
def withIntern (job : Job) (cls : Cls) (m : LineMsg) (s : State) : State × Bool :=
  match freeIntern s with
  | none => (s, false)
  | some b =>
    let m := { m with trk := b, cls := cls }
    let s := { s with ten := { s.ten with seq := s.ten.seq + 1 } }
    (queueMsg m (some b) (setBob b { kind := .intern, job := job, wait := .answer, cls := cls, req := some m, accClk := s.tm.clk,
                                     accHoop := s.tm.hoop, accPh := BitVec.ofNat 32 ((rowPhase s).toNat / 256) } s), true)

end Sys2Proof.Machine
end

