-- ==== Sys2Proof/Machine/Home.lean ====
section
/-! DEFINITION. The home agent (06 R303–R344, 07 R346–R371, 08 R403–R408): joining a line's FIFO, working a request, probes and
their answers, commits, mirror sends, the filter and victim recall, leases. -/

namespace Sys2Proof.Machine

/-- COH counter `i` of 06 R345. -/
def cohCount (i : Nat) (s : State) : State := count (0x8080 + 4 * i) 1 s

/-- The tenant an own request is attributed to (12 R612). -/
def trkTen (s : State) (t : Tracker) : Option Nat :=
  t.bob.bind fun b => (bobOf s b).bind fun v => if v.kind == .job then some v.job.ten else none

/-- The version that an answer carries: of its own commit where it has waited for the mirror. -/
def ansVersion (s : State) (t : Tracker) : Word := if t.phase == .mirror then t.ver else (homeLine s t.la).version

/-- The writer key of a tracker's request (06 R334). -/
def keyOf (t : Tracker) : WKey := { hk := t.srcHk, ten := t.msg.ten, trk := t.msg.trk }

/-- The result of a local command's line; it is discarded where the command has ended without it (06 R337). -/
def finishTrk (t : Tracker) (b : Nat) (r : LineRes) (s : State) : State :=
  match bobOf s b with
  | some v => if v.seq = t.bobSeq ∧ v.wait = .home then finishLine b r s else s
  | none => s

/-- A final message of a request to its sender (06 R294). -/
def reply (t : Tracker) (typ : MsgType) (flg : BitVec 3) (param : Nat) (s : State) : LineMsg :=
  let h := homeLine s t.la
  { typ := typ, cls := clsAt s t.la t.msg.cls, dst := t.src, trk := t.msg.trk, ten := t.msg.ten, flg := flg, la := t.la,
    age := homeAge s h, version := ansVersion s t, param := word param, data := h.data }

/-- The request is answered with a status: ACK to another node (06 R292), the line's result to an own bobbin. Its tracker is free. -/
def ackTrk (t : Tracker) (status : Nat) (s : State) : State :=
  let s1 := freeTrk t.ix s
  match t.bob with
  | some b => finishTrk t b { status := status, version := ansVersion s t } s1
  | none => queueMsg (reply t .ack 0 status s) none s1

/-- A committed write is answered with a status; while its ACK is unsent, its key goes with it (05 R265). -/
def ackWrite (t : Tracker) (status : Nat) (s : State) : State :=
  match t.bob with
  | some _ => ackTrk t status s
  | none => queueWrote (reply t .ack 0 status s) (some (keyOf t)) (freeTrk t.ix s)

/-- Reads of the line by other nodes that wait next behind tracker `t`, of its type: one DATA_SHARED serves them all (06 R295). -/
def readersAfter (s : State) (t : Tracker) : List Tracker :=
  (s.home.trks.filter fun u => u.la == t.la && u.ix != t.ix && u.phase == .queued).takeWhile fun u =>
    u.msg.typ == t.msg.typ && u.bob.isNone && u.purpose == .request && u.claim == t.claim

/-- The data of the line for a read (06 R305, R307): a LOST line is answered with LINE_LOST ahead of its data, and the mark is
cleared (05 R262, 06 R343; the ACK that carries the status, log 35). -/
def dataTrk (t : Tracker) (typ : MsgType) (flg : BitVec 3) (s : State) : State :=
  let h := homeLine s t.la
  let lost := h.lost && (typ == .dataShared)
  let s1 := freeTrk t.ix (if lost then cohCount 8 (setLine t.la { h with lost := false } s) else s)
  match t.bob with
  | some b =>
    let age := homeAge s h
    finishTrk t b { status := if lost then stLineLost else stOk, version := h.version, age := age, data := some h.data
                    aged := overAge s t.la age } s1
  | none =>
    let s1 := if lost then queueMsg (reply t .ack 0 stLineLost s) none s1 else s1
    let more := if typ == .dataShared && !lost && (flg == 0 || flg == 4) then readersAfter s t else []
    let m := reply t typ flg 0 s
    queueMsg (if more.isEmpty then m else { m with dst := 63 }) none (each more (fun s u => freeTrk u.ix s) s1)

/-- Entries of the replay table that hold C0 writes, and all (05 R265). -/
def replayUsed (s : State) : Nat := s.home.replay.length

/-- A committed write recorded in the replay table, from entry into INAUG until Resume (05 R265): one entry for a key and line. With 1024
entries in use a further write goes unrecorded (DESIGN CHOICE, log 131). -/
def replayAdd (la : Nat) (key : WKey) (version : Word) (c0 : Bool) (s : State) : State :=
  let rest := s.home.replay.filter fun r => !(r.la == la && r.key == key)
  if rest.length < 1024 then
    { s with home := { s.home with replay := rest ++ [{ la := la, key := key, version := version, c0 := c0 }] } }
  else s

/-- The writer key that goes with a line: in an inauguration that of the newest write recorded for it in the replay table, else that of its
last commit (05 R265, R268, R271; 10 R546). -/
def replayKey (s : State) (la : Nat) : Option WKey :=
  if s.dev.st == .inaug then ((s.home.replay.filter fun r => r.la == la).getLast?).map (·.key) else (homeLine s la).key

/-- The message that carries a line to the mirror or to a role's new holder, with its replay key where there is one (05 R268, R271). -/
def migLineMsg (s : State) (la dst : Nat) (cls : Cls) (mirror owned : Bool) : LineMsg :=
  let h := homeLine s la
  let key := replayKey s la
  let k := key.getD { hk := 0, ten := 0, trk := 0 }
  { typ := .migLine, cls := cls, dst := dst, la := la, age := homeAge s h, version := h.version, data := h.data,
    flg := BitVec.ofNat 3 (b2n mirror + 2 * b2n owned),
    param := word (k.trk % 1024 + 1024 * (k.ten % 8) + 2 ^ 13 * (k.hk % 256) + flagAt key.isSome 21 + flagAt h.orphan 22 + flagAt h.lost 23) }

/-- Is the line mirrored (06 R285, 05 R276)? -/
def isMirrored (s : State) (la : Nat) : Bool :=
  match regionAt s la, roleOf (laHk la) with
  | some e, some r => e.2.persist && r != 4
  | _, _ => false

/-- The lowest free tracker index of a range. -/
def freeTrkIx (s : State) (lo n : Nat) : Option Nat :=
  ((List.range n).map (· + lo)).find? fun i => (s.home.trks.all fun t => t.ix != i)

/-- A reserved tracker, 896–1023 (06 R315). -/
def takeReserved (s : State) : Option Nat := freeTrkIx s 896 128

/-- A line sent to the MIRROR holder on a reserved tracker, in a home-originated stitch of the line's class (05 R272, R276; 06 R315); with
none free it waits for the next row (DESIGN CHOICE, log 132). -/
def mirrorOut (la : Nat) (s : State) : State :=
  match takeReserved s with
  | none => { s with home := { s.home with mirrWait := s.home.mirrWait.filter (· != la) ++ [la] } }
  | some ix =>
    let m := migLineMsg s la (mirrorNode s) (clsAt s la .c1) true false
    setTrks ({ ix := ix, kind := .reserved, purpose := .mirror, la := la, msg := m, phase := .mirror, row := s.tm.rows
               ver := m.version } :: s.home.trks)
      { s with lan := { s.lan with txq := s.lan.txq ++ [{ msg := .line m, cls := m.cls, use := .hom, level := 2 }] } }

/-- Lines that waited for a reserved tracker are sent to the mirror, as far as trackers are free. -/
def mirrorRetry (s : State) : State :=
  each s.home.mirrWait (fun s la => mirrorOut la s) { s with home := { s.home with mirrWait := [] } }

/-- A commit of a mirrored line is sent to the MIRROR holder, or MIRROR_UNPROTECTED is raised (05 R276); true: an answer comes. -/
def mirrorSend (la : Nat) (s : State) : State × Bool :=
  if !isMirrored s la then (s, false)
  else if mirrorNode s = 0 ∨ mirrorNode s = s.trn.node then (raise 140 (detLA la) s, false)
  else (mirrorOut la s, true)

/-- A moving role's old holder sends each commit made after a line's MIG_LINE as a further MIG_LINE (10 R546). -/
def movingSend (la : Nat) (s : State) : State :=
  match s.trn.migOut.find? (fun m => some m.role == roleOf (laHk la) && !m.mirror && m.doneRow.isNone && !m.acked) with
  | some m =>
    if s.dev.st == .run && !m.todo.contains (laLx la) then
      queueMsg (migLineMsg s la m.dst .c1 false false) none
        { s with trn := { s.trn with migOut := s.trn.migOut.map fun x => if x == m then { x with sentLines := x.sentLines + 1 } else x } }
    else s
  | none => s

/-- The home stores new data and increments the version (01 R24, 06 R296, R297): 1 when the metadata was lost or an ORPHAN mark is
cleared (08 R406, 05 R277). Subscribers get an UPDATE (06 R305), bindings of the line become pending. -/
def homeCommit (la : Nat) (data : Line) (key : Option WKey) (ten : Option Nat) (s : State) : State :=
  let h := homeLine s la
  let ver := if h.metaLost || h.orphan then 1 else h.version + 1
  let cls := clsAt s la .c1
  let s := setLine la { h with
    data := data, version := ver, ageBase := 0, ageRow := s.tm.rows + 1, key := key
    orphan := false, errData := false, metaLost := false } s
  let s := perf 39 ten s
  let s := match key with
    | some k => if s.dev.st == .inaug then replayAdd la k ver (cls == .c0) s else s
    | none => s
  let s := bindPend la (movingSend la s)
  match fEntry s la with
  | some e =>
    if e.st == .pub && e.vec != 0 then
      perf 37 none (queueUpdate { typ := .update, cls := cls, dst := 63, la := la, age := 0, version := ver, data := data } s)
    else s
  | none => s

/-! ### Atomics (06 R322, R323) -/

/-- The field after the operation, and whether a CAS failed (06 R323). -/
def atomicOp (op width : Nat) (sgn : Bool) (old opnd cmp : Nat) : Nat × Bool :=
  let w := 8 * 2 ^ width
  let a := old % 2 ^ w
  let b := opnd % 2 ^ w
  let lt := if sgn then decide (signed w a < signed w b) else decide (a < b)
  match op with
  | 0 => ((a + b) % 2 ^ w, false)
  | 1 => (if lt then a else b, false)
  | 2 => (if lt then b else a, false)
  | 3 => (a &&& b, false)
  | 4 => (a ||| b, false)
  | 5 => (a ^^^ b, false)
  | _ => if a = cmp % 2 ^ w then (b, false) else (a, true)

/-- An ATOMIC_REQ performed on a line: new line, old value, CASFAIL (06 R292, R293, R323). -/
def atomicLine (l : Line) (param : Word) (data : Line) : Line × Nat × Bool :=
  let p := param.toNat
  let width := bitsOf p 3 2
  let off := bitsOf p 6 6
  let bytes := 2 ^ width
  let old := leNat (lineGet l off bytes)
  let r := atomicOp (bitsOf p 0 3) width (bitOf p 5) old (leNat (lineGet data 0 8)) (leNat (lineGet data 8 8))
  (linePut l off (leBytes bytes r.1), old, r.2)

/-- The end of a write-through or atomic: ACK with the version, or ATOMIC_RESULT; a broken lease shows as LEASE_EXPIRED
(06 R305, R307, R329; the ACK ahead of an ATOMIC_RESULT, log 35). One that the replay table answers carries its version, REPLAYED (05 R265). -/
def writeDone (t : Tracker) (s : State) : State :=
  let st := if t.leaseBroken then stLeaseExpired else stOk
  if t.replayed then
    match t.bob with
    | some b => finishTrk t b { replayed := true, version := ansVersion s t } (freeTrk t.ix s)
    | none => perf 43 none (queueMsg (reply t .ack 0 stReplayed s) none (freeTrk t.ix s))
  else if t.msg.typ == .atomicReq then
    match t.bob with
    | some b => finishTrk t b { status := st, version := ansVersion s t, res1 := t.old.toNat, casFail := t.cas } (freeTrk t.ix s)
    | none =>
      let s := if t.leaseBroken then queueMsg (reply t .ack 0 st s) none s else s
      let m := reply t .atomicResult (BitVec.ofNat 3 (b2n t.cas)) 0 s
      queueWrote { m with data := BitVec.setWidth 512 t.old } (if t.cas then none else some (keyOf t)) (freeTrk t.ix s)
  else ackWrite t st s

/-- The committed write of tracker `t` is answered once the mirror has its line, or at once where it has none (05 R276). -/
def afterCommit (t : Tracker) (s : State) : State :=
  let ver := (homeLine s t.la).version
  let r := mirrorSend t.la s
  let t := { t with ver := ver }
  if r.2 then modTrk t.ix (fun u => { u with phase := .mirror, row := r.1.tm.rows, old := t.old, cas := t.cas, ver := ver, replayed := t.replayed }) r.1
  else writeDone t r.1

/-- A write or atomic performed at the home, and its answer or its wait for the mirror (05 R276). From Freeze to Resume a local one goes
back and waits for Resume (05 R256). -/
def writeTrk (t : Tracker) (s : State) : State :=
  let h := homeLine s t.la
  let ten := trkTen s t
  let commit := fun (d : Line) (t : Tracker) (s : State) => afterCommit t (homeCommit t.la d (some (keyOf t)) ten s)
  match frozen s, t.bob with
  | true, some b => modBob b (fun v => if v.seq = t.bobSeq ∧ v.wait = .home then { v with wait := .state } else v) (freeTrk t.ix s)
  | _, _ => match t.msg.typ with
    | .wrMasked => commit (lineMerge h.data t.msg.data t.msg.mask) t s
    | .atomicReq =>
      let r := atomicLine h.data t.msg.param t.msg.data
      let t := { t with old := BitVec.ofNat 64 r.2.1, cas := r.2.2 }
      if r.2.2 then writeDone t s else commit r.1 t s
    | _ => commit t.msg.data t s

/-! ### Trackers (06 R311–R315) -/

/-- Trackers of a kind in use. -/
def trksOf (s : State) (k : TrkKind) : List Tracker := s.home.trks.filter fun t => t.kind == k

/-- The tracker a request may use (06 R312, R314): its index and kind. -/
def takeTrk (s : State) (cls : Cls) (elder : Bool) : Option (Nat × TrkKind) :=
  let low := ((trksOf s .general).filter fun t => t.cls != .c0).length
  let general := if cls == .c0 || low < 832 - s.home.q0 then (freeTrkIx s 0 832).map (·, TrkKind.general) else none
  if elder then ((freeTrkIx s 832 64).map (·, TrkKind.elder)) <|> general else general

/-! ### Probes (06 R307, R320; 07 R368) -/

/-- A probe of tracker `t` to node `k`. -/
def probeMsg (t : Tracker) (s : State) : LineMsg :=
  let cls := clsAt s t.la t.msg.cls
  if t.isRecall then
    { typ := .recall, cls := cls, trk := t.ix, la := t.la, flg := BitVec.ofNat 3 (b2n t.keepS),
      param := word (t.fwd % 64 + (if t.fwd = 0 then 0 else t.msg.trk % 1024 * 64 + t.msg.ten % 8 * 65536)) }
  else { typ := .invalidate, cls := cls, trk := t.ix, la := t.la, flg := BitVec.ofNat 3 (b2n t.victimFlag) }

/-- Probes of tracker `t` sent to nodes, counted (06 R345, 12 R616). -/
def sendProbes (t : Tracker) (nodes : List Nat) (s : State) : State :=
  each nodes (fun s k =>
    let s := queueProbe k { probeMsg t s with dst := k } s
    if t.isRecall then perf 36 none (cohCount 5 s) else perf 35 none (cohCount 4 s)) s

/-- Tracker `t` makes its line BUSY and awaits answers from `vec`. -/
def startProbe (t : Tracker) (vec : Sharers) (s : State) : State :=
  let t := { t with phase := .probe, awaited := vec, row := s.tm.rows }
  sendProbes t (nodesOf vec) (modTrk t.ix (fun _ => t) s)

/-- A reserved tracker made for the home's own work on a line, and its probes; false when none is free (06 R315). -/
def ownProbe (la : Nat) (p : Purpose) (isRecall keepS victim : Bool) (vec : Sharers) (s : State) : State × Bool :=
  match takeReserved s with
  | none => (s, false)
  | some ix =>
    let t : Tracker := { ix := ix, kind := .reserved, purpose := p, la := la, msg := { typ := .recall, cls := clsAt s la .c1, la := la },
                         isRecall := isRecall, keepS := keepS, victimFlag := victim }
    (startProbe t vec { s with home := { s.home with trks := t :: s.home.trks } }, true)

/-- The line lies in a C0 PUBLISH region. -/
def c0Line (s : State) (la : Nat) : Bool := (regionAt s la).any fun e => e.2.cls == .c0 && !e.2.claim

/-- The victim of a full set: the non-anchored entry allocated longest ago whose line is not BUSY (06 R319); a C0 PUBLISH line is none
(06 R321). -/
def victimOf (s : State) (set : Nat) : Option (Nat × FEntry) :=
  ((fSet s set).filter fun e => !e.2.anchor && !isBusy s (laOf s.kee.hk e.1) && !c0Line s (laOf s.kee.hk e.1)).foldl (fun (a : Option (Nat × FEntry)) e =>
    match a with
    | none => some e
    | some b => if e.2.seq < b.2.seq then some e else some b) none

/-- A victim's copies are recalled on a reserved tracker (06 R320). -/
def recallVictim (set : Nat) (s : State) : State :=
  match victimOf s set with
  | none => s
  | some e =>
    let la := laOf s.kee.hk e.1
    if e.2.vec = 0 then setEntry la none s
    else
      let r := ownProbe la .victim (e.2.st == .ex) false true e.2.vec s
      if r.2 then perf 41 none (cohCount 3 r.1) else s

/-- Victims of a set that are being recalled. -/
def openVictims (s : State) (set : Nat) : Nat := (s.home.trks.filter fun t => t.purpose == .victim && xOf t.la % 1024 == set).length

/-- Requests that wait for a way of a set, but for tracker `ix`. -/
def wayWaiters (s : State) (set ix : Nat) : Nat :=
  (s.home.trks.filter fun t => t.phase == .way && xOf t.la % 1024 == set && t.ix != ix).length

/-- A victim recalled for one more of `n` entries that need a way of the set: one for each (06 R319). -/
def recallFor (set n : Nat) (s : State) : State := if openVictims s set < n then recallVictim set s else s

/-- The set of a line has a way for its entry: an entry already, or fewer than 12 (06 R317). -/
def hasWay (s : State) (la : Nat) : Bool := (fEntry s la).isSome || (fSet s (xOf la % 1024)).length < 12

/-- The line's entry set, allocated in order where it is new (06 R319). -/
def putEntry (la : Nat) (st : FState) (vec : Sharers) (s : State) : State :=
  match fEntry s la with
  | some e => setEntry la (some { e with st := st, vec := vec }) s
  | none => setEntry la (some { st := st, vec := vec, seq := s.home.fseq }) { s with home := { s.home with fseq := s.home.fseq + 1 } }

/-- With a filter way the request goes on; without, it waits in its FIFO while a victim is recalled (06 R319, R344). -/
def withWay (t : Tracker) (go : State → State) (s : State) : State :=
  if hasWay s t.la then go s
  else
    let set := xOf t.la % 1024
    let s := recallFor set (wayWaiters s set t.ix + 1) s
    if hasWay s t.la then go s else modTrk t.ix (fun u => { u with phase := .way }) s

/-- A directory entry that waits for a way is written when one frees (07 R371). -/
def dirTrk (t : Tracker) (e : FEntry) (s : State) : State :=
  withWay t (fun s => freeTrk t.ix (setEntry t.la (some { e with seq := s.home.fseq }) { s with home := { s.home with fseq := s.home.fseq + 1 } })) s

/-- The line's sharers removed; an anchored entry stays, empty (06 R318). -/
def clearEntry (la : Nat) (s : State) : State :=
  match fEntry s la with
  | some e => setEntry la (if e.anchor then some { e with st := .pub, vec := 0 } else none) s
  | none => s

/-! ### Leases (06 R325–R330) -/

/-- The lease on a line. -/
def leaseOn (s : State) (la : Nat) : Option Lease := s.home.leases.find? fun l => l.la == la

/-- A lease of another holder stands on the line (06 R326, R328). -/
def leasedElse (s : State) (la node ten : Nat) : Bool :=
  match leaseOn s la with
  | some l => l.node != node || l.ten != ten
  | none => false

/-- A LOCK_REQ worked (06 R325–R327, 10 R514). A new lease ends the record of an earlier one that expired (06 R329). -/
def lockTrk (t : Tracker) (s : State) : State :=
  if clsAt s t.la t.msg.cls = .c0 then ackTrk t stDenied s
  else if leasedElse s t.la t.src t.msg.ten then ackTrk t stLockedOut s
  else if (leaseOn s t.la).isNone ∧ 64 ≤ s.home.leases.length then ackTrk t stCapacity s
  else
    let expiry := s.tm.hoop + word (t.msg.param.toNat % 256)
    let l : Lease := { la := t.la, node := t.src, ten := t.msg.ten, expiry := expiry }
    let s := { s with home := { s.home with
      leases := (s.home.leases.filter fun x => x.la != t.la) ++ [l], brokenAt := s.home.brokenAt.filter (· != (t.la, t.src, t.msg.ten)) } }
    match t.bob with
    | some b =>
      let s := { s with heldLeases := (s.heldLeases.filter fun x => !(x.la == t.la && x.ten == t.msg.ten)) ++
                   [{ la := t.la, ten := t.msg.ten, hoops := t.msg.param.toNat % 256, expiry := expiry }] }
      finishTrk t b { version := (homeLine s t.la).version, res0 := expiry.toNat } (freeTrk t.ix s)
    | none => queueMsg { reply t .leaseGrant 0 expiry.toNat s with param := expiry } none (freeTrk t.ix s)

/-- An UNLOCK_REQ worked: the holder's lease ends (06 R328, 10 R514). One on an internal bobbin comes from a tenant reset and is
answered with LEASE_BREAK, EXPIRED = 0 (07 R364; DEDUCED, log 36). -/
def unlockTrk (t : Tracker) (s : State) : State :=
  let mine := (leaseOn s t.la).isSome
  let s := { s with home := { s.home with leases := s.home.leases.filter fun x => x.la != t.la } }
  if mine ∧ t.bob.isNone ∧ t.msg.trk < 32 then
    cohCount 10 (queueMsg (reply t .leaseBreak 0 0 s) none (freeTrk t.ix s))
  else
    let s := { s with heldLeases := if t.bob.isSome then s.heldLeases.filter fun x => !(x.la == t.la && x.ten == t.msg.ten) else s.heldLeases }
    ackTrk t (if t.leaseBroken then stLeaseExpired else stOk) s

/-! ### Working a request (06 R305, R307) -/

/-- The owner or sharers other than the requester. -/
def others (e : Option FEntry) (src : Nat) : Sharers :=
  match e with
  | some e => dropNode e.vec src
  | none => 0

/-- The requester is recorded in the entry. -/
def holdsLine (e : Option FEntry) (src : Nat) : Bool :=
  match e with
  | some e => hasNode e.vec src
  | none => false

/-- Is the entry EX? -/
def isEx (e : Option FEntry) : Bool :=
  match e with
  | some e => e.st == .ex
  | none => false

/-- A request for a line of a PUBLISH region worked (06 R305). -/
def workPublish (t : Tracker) (s : State) : State :=
  let e := fEntry s t.la
  let vec := match e with
    | some e => e.vec
    | none => 0
  match t.msg.typ with
  | .subReq => withWay t (fun s =>
      let s := putEntry t.la .pub (vec ||| nodeBit t.src) s
      if clsAt s t.la t.msg.cls = .c0 then freeTrk t.ix s
      else queueMsg (reply t .dataShared 2 0 s) none (freeTrk t.ix s)) s
  | .unsubReq =>
    let v := dropNode vec t.src
    let s := match e with
      | some e => if v = 0 ∧ !e.anchor then setEntry t.la none s else setEntry t.la (some { e with vec := v }) s
      | none => s
    ackTrk t stOk s
  | .wrPublish | .wrMasked | .atomicReq => writeTrk t s
  | .readHome | .rdShared => dataTrk t .dataShared 4 s
  | .rdOwn | .ownNodata | .writeback => ackTrk t stDenied s
  | .lockReq => lockTrk t s
  | .unlockReq => unlockTrk t s
  | _ => ackTrk t stOk s

/-- A read of another node served as a sharer beside `vec`, and with it the reads that wait next: one DATA_SHARED for every node
serves them together (06 R295, R307; DEDUCED, log 139). -/
def shareTrk (t : Tracker) (vec : Sharers) (s : State) : State :=
  let v := (readersAfter s t).foldl (fun v u => v ||| nodeBit u.src) (vec ||| nodeBit t.src)
  dataTrk t .dataShared 0 (putEntry t.la .sh v s)

/-- The end of a CLAIM request once no other copy stands in its way (06 R307, R310). -/
def finishClaim (t : Tracker) (s : State) : State :=
  let own := t.src = 0
  match t.msg.typ with
  | .rdShared =>
    if t.fwdDone then
      freeTrk t.ix (putEntry t.la .sh (t.kept ||| nodeBit t.src) s)
    else if own then
      dataTrk t .dataShared 0 (if t.kept = 0 then (if t.isRecall then clearEntry t.la s else s) else putEntry t.la .sh t.kept s)
    else shareTrk t t.kept s
  | .rdOwn =>
    if own then ackTrk t stOk (clearEntry t.la s)
    else dataTrk t .dataOwn 0 (putEntry t.la .ex (nodeBit t.src) s)
  | .ownNodata =>
    let grant := t.msg.flg.getLsbD 0 || (!t.isRecall && holdsLine (fEntry s t.la) t.src)
    if own then ackTrk t stOk (clearEntry t.la s)
    else dataTrk t (if grant then .grantOwn else .dataOwn) 0 (putEntry t.la .ex (nodeBit t.src) s)
  | _ => writeTrk t (clearEntry t.la s)

/-- A request for a line of a CLAIM region worked (06 R307). -/
def workClaim (t : Tracker) (s : State) : State :=
  let e := fEntry s t.la
  let oth := others e t.src
  let listen := s.trn.memb == .listenOnly
  match t.msg.typ with
  | .rdShared =>
    if isEx e && holdsLine e t.src then (if listen then shareTrk t 0 s else dataTrk t .dataShared 1 s)
    else if isEx e then startProbe { t with isRecall := true, keepS := true, fwd := t.src } oth s
    else if t.src = 0 then dataTrk t .dataShared 0 s
    else withWay t (fun s =>
      if e.isNone && !listen then dataTrk t .dataShared 1 (putEntry t.la .ex (nodeBit t.src) s)
      else shareTrk t oth s) s
  | .rdOwn | .ownNodata =>
    let go := fun (s : State) =>
      if isEx e && holdsLine e t.src then
        dataTrk t (if t.msg.typ == .ownNodata && t.msg.flg.getLsbD 0 then .grantOwn else .dataOwn) 0 s
      else if oth = 0 then finishClaim t s
      else startProbe { t with isRecall := isEx e } oth s
    if t.src = 0 then go s else withWay t go s
  | .wrPublish | .wrMasked | .atomicReq =>
    let vec := match e with
      | some e => e.vec
      | none => 0
    if vec = 0 then finishClaim t s else startProbe { t with isRecall := isEx e } vec s
  | .writeback =>
    if isEx e && holdsLine e t.src then
      let keep := t.msg.flg.getLsbD 0
      afterCommit t (homeCommit t.la t.msg.data (some (keyOf t)) none (if keep then s else clearEntry t.la s))
    else ackTrk t stOk s
  | .evictClean =>
    if holdsLine e t.src then
      let v := oth
      ackTrk t stOk (if v = 0 then clearEntry t.la s else putEntry t.la .sh v s)
    else ackTrk t stOk s
  | .readHome => dataTrk t .dataShared 4 s
  | .lockReq => lockTrk t s
  | .unlockReq => unlockTrk t s
  | _ => ackTrk t stDenied s

/-- A write at the home that clears ERRDATA or ORPHAN (08 R406, 05 R277). -/
def healing (s : State) (t : Tracker) (h : HomeLine) (publish : Bool) : Bool :=
  match t.bob with
  | some b =>
    let ten := match bobOf s b with
      | some v => v.job.ten
      | none => 8
    t.msg.typ == .wrPublish && (!h.orphan || ten == 0)
  | none => t.msg.typ == .wrPublish && publish && !h.orphan

/-- A request that the replay table answers: its line goes to the mirror again where it is mirrored, and the write is not committed again
(05 R265, R276). -/
def replayTrk (t : Tracker) (ver : Word) (s : State) : State :=
  let r := mirrorSend t.la s
  let u := { t with phase := .mirror, row := s.tm.rows, ver := ver, replayed := true }
  if r.2 then modTrk t.ix (fun _ => u) r.1 else writeDone u r.1

/-- The request at the head of its line's FIFO is worked (06 R304). -/
def workTrk (t : Tracker) (s : State) : State :=
  let h := homeLine s t.la
  let key := keyOf t
  let writes := t.msg.typ == .wrPublish || t.msg.typ == .wrMasked || t.msg.typ == .atomicReq || t.msg.typ == .writeback
  match s.home.replay.find? (fun r => t.msg.replay && r.la == t.la && r.key == key) with
  | some r => replayTrk t r.version s
  | none =>
    if t.bob.isNone && writes && h.key == some key then ackTrk t stOk s
    else if t.lockedOut then ackTrk t stLockedOut s
    else if h.orphan && !healing s t h (!t.claim) then ackTrk t stOrphan s
    else if h.errData && !healing s t h (!t.claim) then ackTrk t stDataError s
    else if t.claim then workClaim t s
    else workPublish t s

/-- The first request of the line's FIFO is started when nothing works the line; one that waits for a filter way tries again
(06 R304, R319). -/
def startNext (la : Nat) (s : State) : State :=
  match s.home.trks.find? fun t => t.la == la && t.phase == .way with
  | some t => match t.purpose with
    | .dir e => dirTrk t e s
    | _ => workTrk { t with phase := .queued } (modTrk t.ix (fun u => { u with phase := .queued }) s)
  | none =>
    if isBusy s la then s
    else match s.home.trks.find? fun t => t.la == la && !passed t with
      | some t => workTrk t s
      | none => s

/-- The permission that a request of another node needs at the home, RRD or RWR (06 R289): RWR where it writes, or holds the line to
write it (DEDUCED, log 133). -/
def needsRwr : MsgType → Bool
  | .rdOwn | .ownNodata | .wrPublish | .wrMasked | .atomicReq | .lockReq | .unlockReq | .writeback => true
  | _ => false

/-- Requests that a LISTEN-ONLY home denies (06 R342). -/
def listenDenies : MsgType → Bool
  | .rdOwn | .ownNodata | .wrPublish | .wrMasked | .atomicReq | .lockReq => true
  | _ => false

/-- The status with which the home refuses a request of another node for a line, before it joins the FIFO (06 R289, R342). -/
def homeRefuses (s : State) (la : Nat) (typ : MsgType) : Option Nat :=
  match regionAt s la with
  | none => some stNotMapped
  | some e =>
    if !(if needsRwr typ then e.2.rwr else e.2.rrd) then some stDenied
    else if s.trn.memb = .listenOnly ∧ listenDenies typ then some stDenied
    else none

/-- Requests that a lease of another holder locks out (06 R328). -/
def leaseBars : MsgType → Bool
  | .wrPublish | .wrMasked | .atomicReq | .rdOwn | .ownNodata | .unlockReq => true
  | _ => false

/-- Requests that show a lease's expiry at the home (06 R329). -/
def leaseShows : MsgType → Bool
  | .wrPublish | .wrMasked | .atomicReq | .unlockReq => true
  | _ => false

/-- NAK_RETRY answered so far to the request with this key for this line (06 R313). -/
def nakCount (s : State) (key : WKey) (la : Nat) : Nat :=
  match s.home.nakCnt.find? fun e => e.1 == key && e.2.1 == la with
  | some e => e.2.2
  | none => 0

/-- A request refused with NAK_RETRY, which counts this refusal (DEDUCED, log 38), or dropped where the NAK queue is full (06 R313, 07 R369). -/
def nakReq (t : Tracker) (s : State) : State :=
  if 256 ≤ s.home.naks then raise 128 (detLA t.la) s
  else
    let key := keyOf t
    let n := nakCount s key t.la + 1
    let s := perf 34 none (cohCount 0 { s with home := { s.home with
      naks := s.home.naks + 1
      nakCnt := (s.home.nakCnt.filter fun e => e.1 != key) ++ [(key, t.la, n)] } })
    queueMsg { reply t .nakRetry 0 0 s with param := word (min 7 n) } none s

/-- Does the replay table refuse this write (05 R265)? From entry into INAUG until Freeze. -/
def replayFull (s : State) (cls : Cls) (typ : MsgType) : Bool :=
  s.dev.st == .inaug && !frozen s && (typ == .wrPublish || typ == .wrMasked || typ == .atomicReq || typ == .writeback)
    && decide ((if cls = .c0 then 1024 else 768) ≤ replayUsed s)

/-- A request joins its line's FIFO (06 R304, R311; 07 R348, R357), and is worked at once when it is the first. A role's old holder
that has sent MIG_DONE holds it (10 R546). -/
def joinFifo (t : Tracker) (s : State) : State :=
  let broke := s.home.brokenAt.contains (t.la, t.src, t.msg.ten) && leaseShows t.msg.typ
  let t := { t with lockedOut := leaseBars t.msg.typ && leasedElse s t.la t.src t.msg.ten, leaseBroken := broke }
  let s := if broke then { s with home := { s.home with brokenAt := s.home.brokenAt.filter (· != (t.la, t.src, t.msg.ten)) } } else s
  let handed := s.dev.st == .run && s.trn.migOut.any fun m =>
    some m.role == roleOf (laHk t.la) && !m.mirror && m.doneRow.isSome && !m.acked
  let first := !hasFifo s t.la && !handed
  let s := perf 32 (trkTen s t) s
  let s := if first then s else perf 33 (trkTen s t) s
  let s := { s with home := { s.home with trks := s.home.trks ++ [t] } }
  if first then workTrk t s else s

/-- A write that reaches the home from Freeze on is not committed (05 R256); its requester sends it again after Resume (DEDUCED, log 134). -/
def tooLate (s : State) (typ : MsgType) : Bool :=
  frozen s && (typ == .wrPublish || typ == .wrMasked || typ == .atomicReq || typ == .writeback)

/-- The request is with the home already (06 R334). -/
def atHomeAlready (s : State) (r : Rx) : Bool :=
  s.home.trks.any fun t => t.bob.isNone && t.la == r.msg.la && t.srcHk == r.srcHk && t.msg.ten == r.msg.ten && t.msg.trk == r.msg.trk
    && t.purpose == .request

/-- A request of another node reaches the home (06 R289, R311–R314, R342; 07 R348, R360, R369; 05 R256). -/
def homeRequest (r : Rx) (s : State) : State :=
  let m := r.msg
  let la := m.la
  let stub : Tracker := { ix := 0, kind := .general, la := la, src := r.src, srcHk := r.srcHk, msg := m }
  let forMe := homedHere s la && (m.dst = 0 || m.dst = s.trn.node)
  if !onTrain s || !forMe || tooLate s m.typ || atHomeAlready s r then s
  else match homeRefuses s la m.typ, regionAt s la with
    | some st, _ => queueMsg (reply stub .ack 0 st s) none s
    | none, none => s
    | none, some e =>
      if replayFull s e.2.cls m.typ ∧ !m.elder then nakReq stub s
      else match takeTrk s e.2.cls m.elder with
        | none => nakReq stub s
        | some k =>
          let s := if m.elder then perf 42 none (cohCount 2 s) else s
          joinFifo { stub with ix := k.1, kind := k.2, cls := e.2.cls, claim := e.2.claim }
            { s with home := { s.home with nakCnt := s.home.nakCnt.filter fun x => x.1 != keyOf stub } }

/-- A local tenant's or binding's request on a line homed here (06 R304, R310); false when no tracker is free, and it waits. -/
def homeLocal (b : Nat) (m : LineMsg) (claim : Bool) (s : State) : State × Bool :=
  match takeTrk s (clsAt s m.la m.cls) false with
  | none => (s, false)
  | some k =>
    let seq := ((bobOf s b).map (·.seq)).getD 0
    (joinFifo { ix := k.1, kind := k.2, cls := clsAt s m.la m.cls, la := m.la, srcHk := s.kee.hk, bob := some b, bobSeq := seq, msg := m
                claim := claim } s, true)

/-! ### Answers to probes (06 R308, 07 R349, R350) -/

/-- A tracker's probes are all answered: its work ends (06 R307, R308, R320; 08 R405, R408). -/
def probesIn (t : Tracker) (s : State) : State :=
  match t.purpose with
  | .request => finishClaim t s
  | .restore =>
    if t.kept = 0 then
      let h := homeLine s t.la
      freeTrk t.ix (setLine t.la { h with errData := !t.fwdDone } (clearEntry t.la s))
    else freeTrk t.ix (putEntry t.la .sh t.kept s)
  | .filter =>
    let claim : Bool := match regionAt s t.la with
      | some e => e.2.claim
      | none => false
    if claim ∧ !t.isRecall then
      startProbe { t with isRecall := true, keepS := false } (BitVec.ofNat 62 (2 ^ s.trn.nnodes - 1) &&& ~~~(nodeBit s.trn.node)) s
    else
      let anchor : Bool := match regionAt s t.la with
        | some e => homedHere s t.la && !e.2.claim && e.2.cls == .c0
        | none => false
      let s := freeTrk t.ix s
      if anchor then setEntry t.la (some { st := .pub, anchor := true, seq := s.home.fseq }) { s with home := { s.home with fseq := s.home.fseq + 1 } }
      else setEntry t.la none s
  | .unmap _ => freeTrk t.ix (setEntry t.la none s)
  | _ => freeTrk t.ix (clearEntry t.la s)

/-- Node `k` answered tracker `ix`; the work ends with the last answer (06 R308). -/
def answered (ix k : Nat) (f : Tracker → Tracker) (s : State) : State :=
  match trkOf s ix with
  | none => s
  | some t =>
    let t := { f t with awaited := dropNode t.awaited k }
    let s := modTrk ix (fun _ => t) s
    if t.awaited = 0 then probesIn t s else s

/-- An answer to a probe is for this node: DST names it, or every node, or the home of the line (03 R143, 06 R295). -/
def forHome (s : State) (m : LineMsg) : Bool :=
  onTrain s && (m.dst == 63 || m.dst == s.trn.node || (m.dst == 0 && homedHere s m.la))

/-- The tracker that awaits an answer from `k` for `la` (06 R308: a response for which no tracker waits is discarded). -/
def awaiting (s : State) (m : LineMsg) (k : Nat) : Option Tracker :=
  (trkOf s m.trk).bind fun t =>
    if forHome s m && t.la == m.la && (t.phase == .probe || t.phase == .wb) && hasNode t.awaited k then some t else none

/-- An INV_ACK at its home (06 R308). -/
def takeInvAck (r : Rx) (s : State) : State :=
  match awaiting s r.msg r.src with
  | some t => if t.isRecall then s else answered t.ix r.src id (returnCredit r.src s)
  | none => s

/-- The commit of a recalled owner's modified data, and its mirror send (06 R297, 05 R276). -/
def commitRecall (la : Nat) (data : Line) (key : Option WKey) (s : State) : State := (mirrorSend la (homeCommit la data key none s)).1

/-- A RECALL_DATA at its home (06 R307–R309): a modified line is committed; a restore takes data and version (08 R405). -/
def takeRecallData (r : Rx) (s : State) : State :=
  match awaiting s r.msg r.src with
  | none => s
  | some t =>
    if !t.isRecall then s
    else
      let dirty := r.msg.flg.getLsbD 0
      let kept := r.msg.flg.getLsbD 1
      let s := returnCredit r.src s
      let s := if t.purpose == .restore then
          let h := homeLine s t.la
          raise 136 (detLA t.la) (setLine t.la { h with data := r.msg.data, version := r.msg.version, errData := false, metaLost := false } s)
        else s
      let s := if dirty then commitRecall t.la r.msg.data none s else s
      answered t.ix r.src (fun t => { t with
        kept := if kept then t.kept ||| nodeBit r.src else t.kept
        fwdDone := if t.purpose == .restore then true else t.fwd != 0 }) s

/-- A WRITEBACK taken by the busy transaction that has recalled its sender (07 R349): committed, and acknowledged once the mirror has it
(05 R276); one that the home refuses is answered so, and the home's data stands (06 R289). -/
def takeWriteback (t : Tracker) (r : Rx) (s : State) : State :=
  let stub : Tracker := { t with src := r.src, srcHk := r.srcHk, msg := r.msg, bob := none, phase := .queued }
  let s := match homeRefuses s t.la .writeback with
    | some st => queueMsg (reply stub .ack 0 st s) none s
    | none =>
      let s := homeCommit t.la r.msg.data (some (keyOf stub)) none s
      let ver := (homeLine s t.la).version
      let m := mirrorSend t.la s
      if m.2 then { m.1 with home := { m.1.home with mirrAcks := m.1.home.mirrAcks ++ [{ stub with phase := .mirror, ver := ver }] } }
      else queueWrote (reply stub .ack 0 stOk m.1) (some (keyOf stub)) m.1
  let s := if t.phase == .wb then s else returnCredit r.src s
  answered t.ix r.src (fun t => { t with
    kept := if r.msg.flg.getLsbD 0 && t.keepS then t.kept ||| nodeBit r.src else t.kept }) s

/-- A WRITEBACK reaches its home: taken by a recall of its sender, else a request like others (06 R305, R307; 07 R349). -/
def homeWriteback (r : Rx) (s : State) : State :=
  match s.home.trks.find? fun t => t.la == r.msg.la && (t.phase == .probe || t.phase == .wb) && t.isRecall && hasNode t.awaited r.src with
  | some t => if forHome s r.msg && homedHere s r.msg.la then takeWriteback t r s else s
  | none => homeRequest r s

/-- A WRITEBACK of node `k` that waits in the line's FIFO (06 R308). -/
def queuedWriteback (s : State) (la k : Nat) : Option Tracker :=
  s.home.trks.find? fun t => t.la == la && t.phase == .queued && t.bob.isNone && t.msg.typ == .writeback && t.src == k

/-- A RECALL_NODATA at its home: with CLEAN = 1 the home's data stands, with CLEAN = 0 a WRITEBACK of the sender supplies it: the one that
has arrived, or the next (06 R308). -/
def takeRecallNodata (r : Rx) (s : State) : State :=
  match awaiting s r.msg r.src with
  | none => s
  | some t =>
    if !t.isRecall then s
    else if r.msg.flg.getLsbD 0 then answered t.ix r.src id (returnCredit r.src s)
    else if t.phase == .wb then s
    else match queuedWriteback s t.la r.src with
      | some w => takeWriteback t { src := w.src, srcHk := w.srcHk, lane := r.lane, msg := w.msg } (freeTrk w.ix s)
      | none => modTrk t.ix (fun t => { t with phase := .wb }) (returnCredit r.src s)

/-- The mirror answered for `la` with `version`: what waited for that version or an older one of the line is complete (05 R276). -/
def mirrorAnswer (la : Nat) (version : Word) (s : State) : State :=
  let due := fun (t : Tracker) => t.la == la && t.phase == .mirror && (t.purpose == .request || t.purpose == .mirror) && !newer t.ver version
  let acks := s.home.mirrAcks.filter fun t => t.la == la && !newer t.ver version
  let s := each (s.home.trks.filter due) (fun s t => if t.purpose == .mirror then freeTrk t.ix s else writeDone t s) s
  each acks (fun s t => queueWrote (reply t .ack 0 stOk s) (some (keyOf t)) s)
    { s with home := { s.home with mirrAcks := s.home.mirrAcks.filter fun t => !(t.la == la && !newer t.ver version) } }

/-- HOME_TMO rows have passed: each probe without an answer is sent again (06 R335); a mirror send likewise (log 37). -/
def homeResendOp (ix : Nat) (s : State) : State :=
  match trkOf s ix with
  | none => s
  | some t =>
    if s.tm.rows - t.row < rfld s 0x8000 8 8 then s
    else if t.phase == .probe then
      let s := modTrk ix (fun t => { t with row := s.tm.rows }) s
      each (nodesOf t.awaited) (fun s k => cohCount 7 (queueMsg { probeMsg t s with dst := k } none s)) s
    else if t.purpose == .mirror then
      let m := migLineMsg s t.la (mirrorNode s) (clsAt s t.la .c1) true false
      modTrk ix (fun t => { t with row := s.tm.rows })
        { s with lan := { s.lan with txq := s.lan.txq ++ [{ msg := .line m, cls := m.cls, use := .hom, level := 2 }] } }
    else s

/-- A lease ends at a row-hoop boundary: the home tells a holder elsewhere, and records a holder here (06 R329). -/
def leaseEnd (l : Lease) (s : State) : State :=
  let s := { s with home := { s.home with
    leases := s.home.leases.filter (· != l)
    brokenAt := s.home.brokenAt ++ [(l.la, l.node, l.ten)] } }
  let s := cohCount 10 s
  if l.node = 0 then
    { s with heldLeases := s.heldLeases.map fun h => if h.la == l.la && h.ten == l.ten then { h with broken := true } else h }
  else queueMsg { typ := .leaseBreak, cls := clsAt s l.la .c1, dst := l.node, la := l.la, ten := l.ten, flg := 1,
                  version := (homeLine s l.la).version } none s

end Sys2Proof.Machine
end

