-- ==== Sys2Proof/Machine/Operands.lean ====
section
/-! DEFINITION. The operands of a job: the fields of its SQ entry and of its argument (09 R452–R455, 10 R491–R495), and the
messages they make. -/

namespace Sys2Proof.Machine

/-- Argument byte `i`; bytes beyond ALEN read 0 (10 R491). -/
def argB (j : Job) (i : Nat) : Nat := (j.arg.getD i 0).toNat

/-- The little-endian number of `n` argument bytes from `i`. -/
def argN (j : Job) (i n : Nat) : Nat := leAt j.arg i n

/-- HOOPS of a LOCK, 1–255 (10 R503). -/
def lockHoops (j : Job) : Nat := max 1 (argB j 0)

/-- PARAM of an ATOMIC_REQ: OP, WIDTH, SIGNED, OFFSET (06 R292, 10 R512). -/
def atomicParam (j : Job) : Word :=
  word (argB j 0 % 8 + 8 * (argB j 1 % 4) + 32 * (argB j 2 % 2) + 64 * (argB j 3 % 64))

/-- Data of an ATOMIC_REQ: the operand in bytes 0–7, the compare value in bytes 8–15 (06 R293). -/
def atomicData (j : Job) : Line := lineOf (slice j.arg 8 16 ++ leBytes 48 0)

/-- The data that a write command writes to its line number `i` (10 R503). -/
def writeData (j : Job) (i : Nat) : Line :=
  if j.op = 5 then lineOf (slice j.arg 8 64)
  else if j.op = 6 then lineOf (slice j.arg (64 * i) 64)
  else if j.op = 4 then lineOf (slice j.arg 0 64)
  else 0

/-- The mask of a WRITE_MASKED. -/
def writeMask (j : Job) : BitVec 64 := BitVec.ofNat 64 (argN j 0 8)

/-- The contents of a copy after the write command `j` is performed in it: CLAIM changes no data (10 R509). -/
def writeInto (j : Job) (i : Nat) (old : Line) : Line :=
  if j.op = 8 then old else if j.op = 5 then lineMerge old (writeData j i) (writeMask j) else writeData j i

/-- The write-through message of a write command (06 R301, 08 R394). -/
def writeMsg (j : Job) (i la : Nat) : LineMsg :=
  if j.op = 5 then { typ := .wrMasked, la := la, data := writeData j i, mask := writeMask j }
  else { typ := .wrPublish, la := la, data := writeData j i }

/-- The mode of the region a line command was accepted under: CLAIM (06 R285, 10 R559). -/
def claimJob (v : Bobbin) : Bool := v.par % 2 == 1

/-- Data of this age exceeds the limit of the region the command was accepted under (06 R298). -/
def jobAged (v : Bobbin) (age : Nat) : Bool := decide (v.par / 2 ≠ 0) && decide (v.par / 2 < age)

/-- The class of a remote line's messages: the home's, once it is known, else the own region's (06 R290). -/
def remoteCls (s : State) (la : Nat) (d : Cls) : Cls := (tget s.home.hcls la).getD d

/-- The class that a message of the home shows for its line is remembered where it differs (06 R290; log 31). -/
def learnCls (la : Nat) (c : Cls) (s : State) : State :=
  if clsAt s la c = c then (if (tget s.home.hcls la).isSome then { s with home := { s.home with hcls := tdel s.home.hcls la } } else s)
  else { s with home := { s.home with hcls := tset s.home.hcls la c } }

end Sys2Proof.Machine
end

