-- ==== Sys2Proof/Machine/Requester.lean ====
section
/-! DEFINITION. The requester side: ways, fills, requests and their answers, maintenance of copies (06 R299–R302, 07 R352–R365,
08 R381–R395, 10 R503–R519, R555). -/

namespace Sys2Proof.Machine

/-! ### When a command runs (10 R555) -/

/-- Whether a command runs now, waits for a state in which it runs, or is refused. -/
inductive Gate where
  | run | wait | deny
  deriving DecidableEq, Repr

/-- A command on a line homed elsewhere (10 R555, R556; 05 R279). -/
def remoteGate (s : State) (write : Bool) (cls : Cls) : Gate :=
  match s.dev.st with
  | .run => match s.trn.memb with
    | .isolated => .deny
    | .listenOnly => if write then .deny else .run
    | _ => .run
  | .inaug => if !frozen s && cls == .c0 && s.trn.node != 0 then .run else .wait
  | _ => .wait

/-- A command on a line homed here (10 R555, 05 R256). -/
def homeGate (s : State) (write : Bool) : Gate :=
  match s.dev.st with
  | .standby | .acquire | .run => .run
  | .inaug => if write && frozen s then .wait else .run
  | _ => .wait

/-- The bobbin has not begun: its row may perform it. -/
def canPerform (v : Bobbin) : Bool :=
  match v.wait with
  | .ready | .way | .sync | .state | .unsub => true
  | _ => false

/-- The bobbin's command may be performed now: one that waits for a state waits until a halted sequencer resumes (10 R558). -/
def mayRun (s : State) (v : Bobbin) : Bool := canPerform v && !(s.dbg.halted && (v.wait == .state || v.wait == .sync))

/-- The bobbin waits for `w`. -/
def waitAs (b : Nat) (w : BWait) (s : State) : State := modBob b (fun v => { v with wait := w }) s

/-- A command of the same tenant on the same line was accepted earlier and is not complete (06 R302). -/
def earlier (s : State) (b : Nat) (v : Bobbin) (la : Nat) : Bool :=
  s.ten.bobs.any fun e => e.1 != b && e.2.kind == .job && v.kind == .job && e.2.job.ten == v.job.ten && isLineOp e.2.job.op
    && decide (e.2.seq < v.seq) && decide (e.2.job.la ≤ la ∧ la < e.2.job.la + blkCount e.2.job) && e.2.kept.isNone

/-! ### Requests -/

/-- The bobbin's request is queued for its stitch: it names the bobbin in TRK, and its tenant (06 R334, 03 R142). -/
def sendReq (b : Nat) (m : LineMsg) (s : State) : State :=
  match bobOf s b with
  | none => s
  | some v =>
    let m := { m with cls := remoteCls s m.la v.cls, dst := 0, trk := b, ten := v.job.ten, elder := v.elder, replay := v.replay }
    queueMsg m (some b) (setBob b { v with wait := .answer, req := some m, left := none } s)

/-- A message of the node's own on an internal bobbin, on behalf of tenant `ten` (07 R364, R368; 11 R581). -/
def sendOwn (ten op la : Nat) (d : Cls) (m : LineMsg) (s : State) : State × Bool :=
  withIntern { ten := ten, op := op, la := la } (remoteCls s la (clsAt s la d)) { m with la := la, ten := ten } s

/-- What the node counts when a message of its own is sent: a refresh of a stale copy (06 R336, R345; 12 R616). -/
def ownSent (op : Nat) (s : State) : State := if op = 0x0D then perf 27 none (cohCount 9 s) else s

/-- A message of the node's own; with no internal bobbin free it waits, once, for a row start that has one (DESIGN CHOICE, log 33). -/
def sendOwed (ten op la : Nat) (d : Cls) (m : LineMsg) (s : State) : State :=
  let r := sendOwn ten op la d m s
  let o : Owed := { ten := ten, op := op, la := la, cls := d, msg := m }
  if r.2 then ownSent op r.1
  else if s.ten.owed.contains o then s
  else { s with ten := { s.ten with owed := s.ten.owed ++ [o] } }

/-- A SUB_REQ with REFRESH for a stale copy (06 R336, 07 R362). -/
def refreshLine (la : Nat) (s : State) : State := sendOwed 0 0x0D la .c1 { typ := .subReq, flg := 1 } s

/-- A write or UNLOCK that relied on a lease recorded as broken completes with LEASE_EXPIRED, once (06 R329). -/
def relyLease (b la : Nat) (s : State) : State :=
  match bobOf s b with
  | none => s
  | some v =>
    let mine := fun (h : HeldLease) => h.la == la && h.ten == v.job.ten && h.broken
    if s.heldLeases.any mine then
      setBob b { v with broke := true } { s with heldLeases := s.heldLeases.filter fun h => !mine h }
    else s

/-! ### Ways (08 R381–R387) -/

/-- How a search for a way ended. -/
inductive WayAns where
  | got (k : Nat)
  /-- A way will free: an M copy goes through WRITEBACK first. -/
  | later
  | none
  deriving DecidableEq, Repr

/-- The entry with the least value of `f`. -/
def leastBy (f : Copy → Nat) (l : List (Nat × Copy)) : Option (Nat × Copy) :=
  l.foldl (fun a e => match a with
    | none => some e
    | some b => if f e.2 < f b.2 then some e else some b) none

/-- The WRITEBACK of a copy on bobbin `b`: the copy moves to MI (06 R300). -/
def startWriteback (b : Nat) (k : Nat) (c : Copy) (keep : Bool) (s : State) : State :=
  setCopy k { c with st := .mi, back := .m, bob := some b, keep := keep, recalled := none, again := none } s

/-- An M copy's WRITEBACK on an internal bobbin (08 R381); nothing where none is free. -/
def evictM (k : Nat) (c : Copy) (keep : Bool) (s : State) : State :=
  let b := freeIntern s
  let r := sendOwn 0 0x10 c.la .c1 { typ := .writeback, flg := BitVec.ofNat 3 (b2n keep), version := c.version, data := c.data } s
  match b, r.2 with
  | some b, true => startWriteback b k c keep (perf 21 none r.1)
  | _, _ => s

/-- A P copy leaves: UNSUB_REQ, and SUB_LOST to each tenant that subscribed the line (08 R383). -/
def evictP (k : Nat) (c : Copy) (s : State) : State :=
  subLost c.la (dropWay k (sendOwed 0 0x0E c.la .c1 { typ := .unsubReq } s))

/-- A way of the line's set taken for bobbin `b` by 08 R381. A LISTEN-ONLY node writes no M copy back (10 R556), and so replaces
none (DEDUCED, log 42). -/
def takeWay (b la : Nat) (s : State) : State × WayAns :=
  let set := setOf la
  let on := (List.range 16).filter fun w => (wq s (wqOf set w)).st == .on
  let mine : Copy := { la := la, st := .i, bob := some b }
  let held := (waysOf s set).filter fun e => on.contains (e.1 % 16)
  match on.find? fun w => (tget s.cc.ways (16 * set + w)).isNone with
  | some w => (setCopy (16 * set + w) mine s, .got (16 * set + w))
  | none =>
    let loose := held.filter fun e => e.2.held.isNone && !isPinned s e.2.la
    match leastBy (·.lru) (loose.filter fun e => e.2.st == .s || e.2.st == .e || e.2.st == .p) with
    | some e =>
      let s := if e.2.st == .p then evictP e.1 e.2 s else s
      (setCopy e.1 mine s, .got e.1)
    | none =>
      if held.any fun e => e.2.st == .mi || e.2.st == .ci then (s, .later)
      else match leastBy (·.lru) (loose.filter fun e => e.2.st == .m && s.trn.memb != .listenOnly) with
        | some e => (evictM e.1 e.2 false s, .later)
        | none => match leastBy (fun c => (c.held.getD (0, 0)).2) (held.filter fun e => e.2.held.isSome) with
          | some e => (setCopy e.1 mine (raise 129 (detLA e.2.la) s), .got e.1)
          | none => (s, .none)

/-- The way reserved for bobbin `b` and line `la`. -/
def reservedWay (s : State) (b la : Nat) : Option Nat :=
  ((waysOf s (setOf la)).find? fun e => e.2.st == .i && e.2.held.isNone && e.2.bob == some b && e.2.la == la).map (·.1)

/-- The way of bobbin `b` for a fill of `la`: the one reserved at acceptance, else one taken now. -/
def wayFor (b la : Nat) (s : State) : State × WayAns :=
  match reservedWay s b la with
  | some k => (s, .got k)
  | none => takeWay b la s

/-- A fill of `la` begins on bobbin `b` in way `k`: the copy enters `st` from I. -/
def startFill (b k la : Nat) (st : CState) (m : LineMsg) (s : State) : State :=
  sendReq b m (setCopy k { la := la, st := st, back := .i, bob := some b } s)

/-! ### The line's commands -/

/-- The frame of every line command: its bobbin has not begun, no earlier command of the tenant on the line is open, and the line
is homed here or elsewhere (06 R302, R310). -/
def lineJob (op b : Nat) (home remote : Bobbin → Nat → State → State) (s : State) : State :=
  match bobOf s b with
  | none => s
  | some v =>
    let la := curLa v
    if v.job.op ≠ op ∨ !mayRun s v ∨ earlier s b v la then s
    else if homedHere s la then home v la s
    else remote v la s

/-- The part of a command that needs the lanes: in the states of 10 R555, and for a line that is C0 at its home in time SYNC or HOLDOVER
(02 R96, 10 R504). In INAUG the wait is that of 05 R279. -/
def onLanes (b : Nat) (v : Bobbin) (write : Bool) (go : State → State) (s : State) : State :=
  let c := remoteCls s (curLa v) v.cls
  let sync := c == .c0 && !timed s
  match remoteGate s write c with
  | .run => if sync then waitAs b .sync s else go s
  | .wait => waitAs b (if sync && s.dev.st != .inaug then .sync else .state) s
  | .deny => finishLine b { status := stDenied } s

/-- A request on a line homed here joins the line's FIFO; without a free tracker the bobbin stays as it is (06 R304, R310). -/
def atHome (b : Nat) (v : Bobbin) (write : Bool) (m : LineMsg) (s : State) : State :=
  match homeGate s write with
  | .run =>
    let m := { m with cls := v.cls, trk := b, ten := v.job.ten, replay := v.replay }
    let r := homeLocal b m (claimJob v) (waitAs b .home s)
    if r.2 then r.1 else s
  | _ => waitAs b .state s

/-- A read served by the copy (06 R298, R300; 08 R384). -/
def readCopy (b : Nat) (v : Bobbin) (c : Copy) (s : State) : State :=
  let age := copyAge s c
  finishLine b { version := c.version, age := age, data := some c.data, aged := c.stale || jobAged v age }
    (perf 16 (some v.job.ten) (touch c.la s))

/-- READ_HOME on bobbin `b`. -/
def readHomeReq (b la : Nat) (s : State) : State := sendReq b { typ := .readHome, la := la } s

/-- READ of a line homed elsewhere (06 R300; 08 R381, R382, R397). -/
def readRemote (b : Nat) (v : Bobbin) (la : Nat) (s : State) : State :=
  if s.cc.lostM.contains la then
    finishLine b { status := stDataError } { s with cc := { s.cc with lostM := s.cc.lostM.filter (· != la) } }
  else match copyOf s la with
    | some e =>
      if e.2.st == .s || e.2.st == .e || e.2.st == .m || e.2.st == .p then readCopy b v e.2 s else s
    | none =>
      onLanes b v false (fun s =>
        if claimJob v then
          let r := wayFor b la s
          match r.2 with
          | .got k => startFill b k la .is { typ := .rdShared, la := la } (perf 17 (some v.job.ten) r.1)
          | .later => waitAs b .way r.1
          | .none => readHomeReq b la (perf 17 (some v.job.ten) s)
        else readHomeReq b la (perf 17 (some v.job.ten) s)) s

/-- READ, and READ_BLOCK's next line (10 R503, R510). -/
def readJob (op b : Nat) (s : State) : State :=
  lineJob op b (fun v la s => atHome b v false { typ := .rdShared, la := la } s) (readRemote b) s

/-- READ_FRESH (10 R511). -/
def readFreshJob (b : Nat) (s : State) : State :=
  lineJob 2 b (fun v la s => atHome b v false { typ := .readHome, la := la } s) (fun v la s =>
    match copyOf s la with
    | some e =>
      if claimJob v && (e.2.st == .s || e.2.st == .e || e.2.st == .m) then readCopy b v e.2 s
      else onLanes b v false (readHomeReq b la) s
    | none => onLanes b v false (readHomeReq b la) s) s

/-- A write command performed in an E or M copy (06 R300, 10 R508): it completes with the version of the copy. -/
def writeCopy (b : Nat) (v : Bobbin) (k : Nat) (c : Copy) (s : State) : State :=
  let s := setCopy k { c with st := .m, bob := none, data := writeInto v.job v.blk c.data, again := none } s
  finishLine b { version := c.version } (touch c.la s)

/-- A write command on a CLAIM line homed elsewhere (06 R300, 08 R394). -/
def claimRemote (b : Nat) (v : Bobbin) (la : Nat) (s : State) : State :=
  let zero := v.job.op = 7
  match copyOf s la with
  | some e => match e.2.st with
    | .e | .m => writeCopy b v e.1 e.2 (perf 18 (some v.job.ten) s)
    | .s => sendReq b { typ := .ownNodata, la := la }
        (setCopy e.1 { e.2 with st := .sm, back := .s, bob := some b, again := none } (perf 20 (some v.job.ten) s))
    | _ => s
  | none =>
    let r := wayFor b la s
    match r.2 with
    | .got k =>
      let s := perf 19 (some v.job.ten) r.1
      if zero then startFill b k la .im { typ := .ownNodata, la := la, flg := 1 } s
      else startFill b k la .im { typ := .rdOwn, la := la } s
    | _ => waitAs b .way r.1

/-- WRITE, WRITE_MASKED, WRITE_BLOCK's next line, ZERO_LINE and CLAIM (10 R503, R508–R510; 06 R301, R310). -/
def writeJob (op b : Nat) (s : State) : State :=
  lineJob op b
    (fun v la s =>
      let s := if op = 8 then s else relyLease b la s
      if op = 8 then atHome b v true { typ := .rdOwn, la := la } s else atHome b v true (writeMsg v.job v.blk la) s)
    (fun v la s => onLanes b v true (fun s =>
      let s := if op = 8 then s else relyLease b la s
      if claimJob v then claimRemote b v la s else sendReq b (writeMsg v.job v.blk la) s) s) s

/-- ATOMIC (06 R322–R324, 10 R512). The own S or E copy of a CLAIM line is dropped when the request is sent; an M copy is written
back first (DEDUCED, log 39). -/
def atomicJob (b : Nat) (s : State) : State :=
  let msg := fun (v : Bobbin) (la : Nat) => ({ typ := .atomicReq, la := la, param := atomicParam v.job, data := atomicData v.job } : LineMsg)
  lineJob 10 b (fun v la s => atHome b v true (msg v la) (relyLease b la s)) (fun v la s =>
    onLanes b v true (fun s =>
      let send := fun (s : State) => sendReq b (msg v la) (perf 28 (some v.job.ten) (relyLease b la s))
      match copyOf s la with
      | none => send s
      | some e => match e.2.st with
        | .s | .e => send (dropWay e.1 s)
        | .p | .ip => send s
        | .m => evictM e.1 e.2 false s
        | _ => s) s) s

/-- LOCK (06 R325–R327, 10 R514). -/
def lockJob (b : Nat) (s : State) : State :=
  let msg := fun (v : Bobbin) (la : Nat) => ({ typ := .lockReq, la := la, param := word (lockHoops v.job) } : LineMsg)
  lineJob 11 b (fun v la s => atHome b v true (msg v la) s)
    (fun v la s => onLanes b v true (fun s => sendReq b (msg v la) s) s) s

/-- UNLOCK (06 R328, R329; 10 R514). -/
def unlockJob (b : Nat) (s : State) : State :=
  let msg := fun (la : Nat) => ({ typ := .unlockReq, la := la } : LineMsg)
  lineJob 12 b (fun v la s => atHome b v true (msg la) (relyLease b la s))
    (fun v la s => onLanes b v true (fun s => sendReq b (msg la) (relyLease b la s)) s) s

/-! ### Subscriptions (10 R515, R516) -/

/-- An UNSUB_REQ of the line is outstanding, or waits to be sent (10, "Two tenants of one node subscribe and unsubscribe at once"). -/
def unsubOut (s : State) (la : Nat) : Bool :=
  (s.ten.owed.any fun o => o.msg.typ == .unsubReq && o.la == la) || s.ten.bobs.any fun e => match e.2.req with
    | some m => m.typ == .unsubReq && m.la == la && e.2.wait == .answer
    | none => false

/-- Who subscribes through a bobbin: its tenant, or the binding engine. -/
def subscriber (v : Bobbin) : Nat :=
  match v.kind with
  | .bindSub _ => 8
  | _ => v.job.ten

/-- SUBSCRIBE. -/
def subscribeJob (b : Nat) (s : State) : State :=
  lineJob 13 b
    (fun v la s => match homeGate s false with
      | .run =>
        let h := homeLine s la
        let age := homeAge s h
        if h.orphan then finishLine b { status := stOrphan } s
        else if h.errData then finishLine b { status := stDataError } s
        else finishLine b { version := h.version, age := age, aged := jobAged v age } (addSub la (subscriber v) s)
      | _ => waitAs b .state s)
    (fun v la s =>
      if claimJob v then s
      else match copyOf s la with
        | some e =>
          if e.2.st == .p then
            let age := copyAge s e.2
            finishLine b { version := e.2.version, age := age, aged := e.2.stale || jobAged v age } (addSub la (subscriber v) s)
          else s
        | none =>
          if unsubOut s la then waitAs b .unsub s
          else onLanes b v false (fun s =>
            let r := wayFor b la s
            match r.2 with
            | .got k => startFill b k la .ip { typ := .subReq, la := la } r.1
            | _ => waitAs b .way r.1) s) s

/-- The version a node sees of a line: its copy's, or its home store's. -/
def lineVersion (s : State) (la : Nat) : Word :=
  if homedHere s la then (homeLine s la).version
  else match copyOf s la with
    | some e => e.2.version
    | none => 0

/-- The status of a command on a line homed here that does nothing there: an ORPHAN line shows itself (05 R277). -/
def idleStatus (s : State) (la : Nat) : Nat := if homedHere s la ∧ (homeLine s la).orphan then stOrphan else stOk

/-- UNSUBSCRIBE (10 R505, R516). -/
def unsubscribeJob (b : Nat) (s : State) : State :=
  let done := fun (la : Nat) (s : State) => finishLine b { status := idleStatus s la, version := lineVersion s la } s
  lineJob 14 b
    (fun v la s => match homeGate s false with
      | .run => done la (delSub la v.job.ten s)
      | _ => waitAs b .state s)
    (fun v la s =>
      if claimJob v ∨ !(subsOf s la).contains v.job.ten then done la s
      else if (subsOf s la).any (· != v.job.ten) then done la (delSub la v.job.ten s)
      else match copyOf s la with
        | some e =>
          if e.2.st == .p then
            onLanes b v false (fun s => sendReq b { typ := .unsubReq, la := la } (dropWay e.1 (delSub la v.job.ten s))) s
          else if transient e.2.st then s else done la (delSub la v.job.ten s)
        | none => done la (delSub la v.job.ten s)) s

/-! ### Maintenance (08 R390–R395, 07 R354, R355, 10 R517–R519) -/

/-- EVICT_CLEAN on bobbin `b`: the copy moves to CI. -/
def evictClean (b k : Nat) (c : Copy) (s : State) : State :=
  sendReq b { typ := .evictClean, la := c.la } (setCopy k { c with st := .ci, back := c.st, bob := some b, again := none } s)

/-- WRITEBACK on bobbin `b`. -/
def writeBack (b k : Nat) (c : Copy) (keep : Bool) (s : State) : State :=
  sendReq b { typ := .writeback, la := c.la, flg := BitVec.ofNat 3 (b2n keep), version := c.version, data := c.data }
    (startWriteback b k c keep s)

/-- The maintenance operation `op` (10h FLUSH, 11h INVALIDATE, 12h CLEAN) of bobbin `b` on a copy of a line homed elsewhere, by the
copy's state (08 R390, R391; 10 R556). -/
def maintain (op b : Nat) (v : Bobbin) (la : Nat) (s : State) : State :=
  let ten := some v.job.ten
  let ok := fun (s : State) => finishLine b { version := lineVersion s la } s
  match copyOf s la with
  | none => ok s
  | some e => match e.2.st with
    | .s | .e =>
      if op = 0x12 then ok s
      else onLanes b v false (fun s => evictClean b e.1 e.2 (perf 22 ten s)) s
    | .m =>
      if op = 0x11 then
        onLanes b v false (fun s => evictClean b e.1 e.2 (perf 22 ten (count 0x888C 1 s))) s
      else onLanes b v true (fun s => writeBack b e.1 e.2 (op == 0x12) (perf 21 ten s)) s
    | .p =>
      if op = 0x12 then ok s
      else onLanes b v false (fun s =>
        sendReq b { typ := .subReq, la := la, flg := 1 } (perf 27 ten (setCopy e.1 { e.2 with stale := true } s))) s
    | _ => match e.2.bob with
      | some k => waitAs b (.attach k) s
      | none => s

/-- A command of the same tenant on the line was accepted earlier, beside the fill of bobbin `k` and what is attached to it (06 R302,
07 R355). -/
def earlierThan (s : State) (b : Nat) (v : Bobbin) (la k : Nat) : Bool :=
  earlier { s with ten := { s.ten with bobs := s.ten.bobs.filter fun e => e.1 != k && e.2.wait != .attach k } } b v la

/-- FLUSH, INVALIDATE, CLEAN and RELEASE: with an outstanding fill or eviction they attach to its bobbin; at an ISOLATED node and
on a line homed here they do nothing (07 R354; 08 R390, R395; 10 R509, R557). -/
def maintainJob (op b : Nat) (s : State) : State :=
  match bobOf s b with
  | none => s
  | some v =>
    let la := curLa v
    let ok := fun (s : State) => finishLine b { status := idleStatus s la, version := lineVersion s la } s
    let attach : Option Nat := match copyOf s la with
      | some e => if transient e.2.st then e.2.bob else none
      | none => none
    let release := decide (op = 9)
    if v.job.op ≠ op ∨ !mayRun s v then s
    else if homedHere s la then (if earlier s b v la then s else ok s)
    else if s.dev.st = .run ∧ s.trn.memb = .isolated then ok s
    else match attach with
      | some k => if earlierThan s b v la k then s else if release then ok s else waitAs b (.attach k) s
      | none =>
        if earlier s b v la then s
        else if release then (if copyState s la = .e ∨ copyState s la = .m then maintain 0x10 b v la s else ok s)
        else maintain op b v la s

/-- Operations attached to bobbin `b`, in submission order. -/
def attachedTo (s : State) (b : Nat) : List (Nat × Bobbin) :=
  ((s.ten.bobs.filter fun e => e.2.wait == .attach b).mergeSort fun x y => decide (x.2.seq ≤ y.2.seq))

/-- The fill or eviction of bobbin `b` has ended: attached operations are applied from the state the fill reached, or complete with
OK after a fill that brought no data and after an eviction (07 R355, 08 R390). -/
def attachedApply (b : Nat) (filled : Bool) (s : State) : State :=
  each (attachedTo s b) (fun s e =>
    let s := waitAs e.1 .ready s
    if filled then maintain e.2.job.op e.1 e.2 (curLa e.2) s
    else finishLine e.1 { version := lineVersion s (curLa e.2) } s) s

/-- PREFETCH (08 R390, R393; R382). -/
def prefetchJob (b : Nat) (s : State) : State :=
  match bobOf s b with
  | none => s
  | some v =>
    let la := curLa v
    let ok := fun (s : State) => finishLine b { status := idleStatus s la, version := lineVersion s la } s
    if v.job.op ≠ 0x15 ∨ !mayRun s v ∨ earlier s b v la then s
    else if homedHere s la ∨ !claimJob v ∨ (copyOf s la).isSome then ok s
    else if s.dev.st = .run ∧ s.trn.memb = .isolated then ok s
    else onLanes b v false (fun s =>
      let r := wayFor b la s
      match r.2 with
      | .got k => startFill b k la .is { typ := .rdShared, la := la } r.1
      | .later => waitAs b .way r.1
      | .none => ok s) s

/-- PIN (08 R386, R388; 10 R517). -/
def pinJob (b : Nat) (s : State) : State :=
  match bobOf s b with
  | none => s
  | some v =>
    let la := v.job.la
    let done := fun (st : Nat) (s : State) => finishLine b { status := st, version := lineVersion s la, res0 := pinsIn s (setOf la) } s
    if v.job.op ≠ 0x13 ∨ !mayRun s v then s
    else if homedHere s la then done (idleStatus s la) s
    else if s.cc.pins.any (fun p => p.la == la) then done stOk s
    else if !pinsFit s [la] then done stCapacity s
    else done stOk { s with cc := { s.cc with pins := s.cc.pins ++ [{ la := la, rgn := none }] } }

/-- UNPIN (08 R386, R388; 10 R517). -/
def unpinJob (b : Nat) (s : State) : State :=
  match bobOf s b with
  | none => s
  | some v =>
    let la := v.job.la
    let done := fun (st : Nat) (s : State) => finishLine b { status := st, version := lineVersion s la, res0 := pinsIn s (setOf la) } s
    if v.job.op ≠ 0x14 ∨ !mayRun s v then s
    else if homedHere s la then done (idleStatus s la) s
    else if s.cc.pins.any (fun p => p.la == la && p.rgn.isSome) then done stDenied s
    else done stOk { s with cc := { s.cc with pins := s.cc.pins.filter fun p => p.la != la } }

end Sys2Proof.Machine
end

