-- ==== Sys2Proof/Machine/Can.lean ====
section
/-! DEFINITION. Car-bus ports: frames and their storage, arbitration, delivery, configuration and fault confinement (11 R561–R579,
R590–R599). -/

namespace Sys2Proof.Machine

/-! ### Ports, frames and stamps -/

/-- Port `p` changed. -/
def modPort (p : Nat) (f : CanPort → CanPort) (s : State) : State := { s with can := { s.can with ports := s.can.ports.modify p f } }

/-- Port event `k` (11 R597). -/
def portEvent (p k i v : Nat) (s : State) : State := raise (256 + 32 * p + k) (detN i v) s

/-- Port counter `i` of 11 R598. -/
def portCount (p i : Nat) (s : State) : State := count (cbpBase p + 0x100 + 4 * i) 1 s

/-- Queue mode (11 R577). -/
def queueMode (s : State) (p : Nat) : Bool := rbit s (cbpBase p + 8) 0

/-- First object of the binding pool (11 R571). -/
def poolBase (s : State) (p : Nat) : Nat := 128 - rfld s (cbpBase p + 8) 5 7

/-- First reserved pair (11 R578). -/
def pairBase (s : State) (p : Nat) : Nat := 32 - rfld s (cbpBase p + 8) 12 5

/-- Data bytes of a DLC (ISO 11898-1). -/
def dlcLen (fd : Bool) (dlc : Nat) : Nat :=
  if dlc ≤ 8 then dlc else if !fd then 8 else [12, 16, 20, 24, 32, 48, 64].getD (dlc - 9) 64

/-- The smallest DLC whose length is at least `len` (11 R588). -/
def dlcFor (len : Nat) : Nat := ((List.range 16).find? fun d => len ≤ dlcLen true d).getD 15

/-- Word 0 of an object or entry (11 R599). -/
def idWord (f : CanFrame) : Nat := f.id + flagAt f.ide 29 + flagAt f.rtr 30

/-- DLC, FDF, BRS and ESI of word 1 (11 R599). -/
def dlcWord (f : CanFrame) : Nat := f.dlc + flagAt f.fdf 4 + flagAt f.brs 5 + flagAt f.esi 6

/-- The frame in an object or buffer at `a` whose data begins at offset `d`. -/
def frameAt (m : Mem) (a d cap : Nat) : CanFrame :=
  let w0 := memWord m a
  let w1 := memWord m (a + 4)
  let ide := bitOf w0 29
  let fd := bitOf w1 4
  { id := if ide then bitsOf w0 0 29 else bitsOf w0 0 11, ide := ide, rtr := bitOf w0 30, fdf := fd, brs := bitOf w1 5
    dlc := bitsOf w1 0 4, data := if bitOf w0 30 && !fd then [] else memGets m (a + d) (min cap (dlcLen fd (bitsOf w1 0 4))) }

/-- Word 1 of object `k`. -/
def objCtl (s : State) (p k : Nat) : Nat := memWord (portOf s p).mem (64 * k + 4)

/-- Status word of object `k`. -/
def objStat (s : State) (p k : Nat) : Nat := memWord (portOf s p).mem (64 * k + 8)

/-- A status bit of object `k` set or cleared: 0 NEWDAT, 1 MSGLOST, 2 LOCKED, 3 TXPEND, 4 OVR, 5 TRUNC. -/
def objFlag (p k i : Nat) (on : Bool) (s : State) : State :=
  modPort p (fun c => { c with
    mem := memPuts c.mem (64 * k + 8) (leBytes 4 (putBits (memWord c.mem (64 * k + 8)) i 1 (b2n on)))
    txpend := if i = 3 then (if on then c.txpend ||| BitVec.ofNat 128 (2 ^ k) else c.txpend &&& ~~~(BitVec.ofNat 128 (2 ^ k))) else c.txpend }) s

/-- Object `k` is the second of a linked pair: its CTRL word is ignored (11 R573). -/
def linkedTail (s : State) (p k : Nat) : Bool := k % 2 == 1 && bitOf (objCtl s p (k - 1)) 11

/-- TYPE of object `k`: 0 off, 1 receive, 2 transmit. -/
def objType (s : State) (p k : Nat) : Nat := if linkedTail s p k then 0 else bitsOf (objCtl s p k) 8 2

/-- Data bytes that object `k` holds (11 R573). -/
def objCap (s : State) (p k : Nat) : Nat := if k % 2 == 0 && bitOf (objCtl s p k) 11 then 64 else 32

/-- CBP_TSC now (11 R567). -/
def tscNow (s : State) : Word := BitVec.ofNat 32 ((s.tm.clk - s.tm.tscClk) / 800)

/-- The phase stamp of the instant when CBP_TSC read `tsc` (11 R569): the phase now, taken back by the time since. -/
def phaseStamp (s : State) (p : Nat) (tsc : Word) : Word :=
  if !rbit s (cbpBase p) 6 then 0
  else
    let row := rbit s (cbpBase p) 7
    let back := (tscNow s - tsc).toNat * 800 * 2 ^ 32 / ((if row then max 1 s.tm.period else max 1 s.tm.tperiod) * 2)
    let now := if row then s.tm.hoop.toNat * 2 ^ 32 + (rowPhase s).toNat else s.tm.thoop.toNat * 2 ^ 32 + (truePhase s).toNat
    let t := (now + 2 ^ 64 - back % 2 ^ 64) % 2 ^ 64
    word (t / 256 % 2 ^ 24 * 256 + t / 2 ^ 32 % 256)

/-! ### States of a port (11 R566, R590–R592; ISO 11898-1) -/

/-- ROM of CBPn_CTRL. -/
def romOn (s : State) (p : Nat) : Bool := rbit s (cbpBase p) 1

/-- The state of a port on the bus: restricted, error-passive or error-active. -/
def busState (s : State) (p : Nat) : CanState :=
  if romOn s p then .rom
  else if 128 ≤ (portOf s p).tecCnt ∨ 128 ≤ (portOf s p).recCnt then .passive else .active

/-- The port takes part in bus traffic. -/
def onBus (s : State) (p : Nat) : Bool :=
  match (portOf s p).st with
  | .active | .passive | .rom => true
  | _ => false

/-- The port may send: on the bus, not restricted, and not about to enter CONF (11 R564, R591, R592). -/
def maySend (s : State) (p : Nat) : Bool :=
  ((portOf s p).st == .active || (portOf s p).st == .passive) && !(portOf s p).confReq

/-- The port's state after its counters or ROM changed. -/
def settleBus (p : Nat) (s : State) : State := if onBus s p then modPort p (fun c => { c with st := busState s p }) s else s

/-! ### Arbitration (11 R576, R577, R579) -/

/-- Priority of an identifier: the lower wins, and a base identifier before an extended one with the same first bits. -/
def idKey (f : CanFrame) : Nat := if f.ide then 2 * f.id + 1 else 2 * (f.id * 2 ^ 18)

/-- The frame in transmit object or buffer `k`. -/
def txFrame (s : State) (p k : Nat) : CanFrame :=
  if queueMode s p then frameAt (portOf s p).mem (0x50 * k) 16 64 else frameAt (portOf s p).mem (64 * k) 20 (objCap s p k)

/-- Transmit requests waiting. -/
def txWaiting (s : State) (p : Nat) : List Nat :=
  if queueMode s p then (List.range 3).filter fun b => (portOf s p).qtx.getD b 0 == 1
  else (List.range 128).filter fun k => (portOf s p).txpend.getLsbD k

/-- FD frames are sent and received (FDOE). -/
def fdOn (s : State) (p : Nat) : Bool := rbit s (cbpBase p + 8) 2

/-- The request of highest priority (11 R576): the lowest identifier or the lowest number. -/
def bestTx (s : State) (p : Nat) : Option Nat :=
  let l := (txWaiting s p).filter fun k => fdOn s p || !(txFrame s p k).fdf
  if rbit s (cbpBase p + 8) 1 then l.head?
  else l.foldl (fun a k => match a with
    | none => some k
    | some j => if idKey (txFrame s p k) < idKey (txFrame s p j) then some k else some j) none

/-- A frame enters arbitration where none is in it (11 R576). -/
def arbitrate (p : Nat) (s : State) : State :=
  if !maySend s p || (portOf s p).sending.isSome then s
  else match bestTx s p with
    | none => s
    | some k =>
      let f := txFrame s p k
      { modPort p (fun c => { c with sending := some k }) s with out := .can p f :: s.out }

/-- Object `k` belongs to the binding pool: software's writes and commands on it are ignored (11 R571). -/
def inPool (s : State) (p k : Nat) : Bool := decide (poolBase s p ≤ k)

/-- A request of object `k` or buffer `k` ends, and the next one enters arbitration. -/
def endAttempt (p k : Nat) (s : State) : State :=
  let s := modPort p (fun c => { c with sending := none, cancelAfter := false }) s
  arbitrate p (if queueMode s p then s else objFlag p k 3 false s)

/-- The state of transmit buffer `b` set: 0 free, 1 pending, 2 sent, 3 aborted. -/
def setQtx (p b v : Nat) (s : State) : State :=
  modPort p (fun c => { c with qtx := c.qtx.set b v, qbind := if b = 2 ∧ v ≠ 1 then none else c.qbind }) s

/-- A transmit request of object `k` (11 R576). -/
def txRequest (p k : Nat) (s : State) : State :=
  if queueMode s p ∨ inPool s p k ∨ objType s p k ≠ 2 ∨ bitOf (objStat s p k) 3 then s else arbitrate p (objFlag p k 3 true s)

/-- TXCANCEL of object `k` (11 R576). -/
def txCancel (p k : Nat) (s : State) : State :=
  if queueMode s p ∨ inPool s p k then s
  else if (portOf s p).sending = some k then modPort p (fun c => { c with cancelAfter := true }) s
  else objFlag p k 3 false s

/-- A buffer that software may use: buffer 2 is the binding engine's while BINDTX is 1 (11 R577). -/
def softBuf (s : State) (p b : Nat) : Bool := decide (b < 3) && !(b == 2 && rbit s (cbpBase p + 8) 17)

/-- QTXCMD request of buffer `b` (11 R579). -/
def qtxRequest (p b : Nat) (s : State) : State :=
  if !queueMode s p ∨ !softBuf s p b ∨ (portOf s p).qtx.getD b 0 = 1 then s else arbitrate p (setQtx p b 1 s)

/-- QTXCMD cancel of buffer `b` (11 R576, R579). -/
def qtxCancel (p b : Nat) (s : State) : State :=
  if !queueMode s p ∨ !softBuf s p b ∨ (portOf s p).qtx.getD b 0 ≠ 1 then s
  else if (portOf s p).sending = some b then modPort p (fun c => { c with cancelAfter := true }) s
  else setQtx p b 3 s

/-- TXREQ. -/
def execTxreq (port obj : Nat) (s : State) : Host.Outcome State Fault Refusal := .next (gatedWrite (cbpBase port) (txRequest port obj) s)

/-- TXCANCEL. -/
def execTxcancel (port obj : Nat) (s : State) : Host.Outcome State Fault Refusal := .next (gatedWrite (cbpBase port) (txCancel port obj) s)

/-- QTXCMD request. -/
def execQtxRequest (port buf : Nat) (s : State) : Host.Outcome State Fault Refusal := .next (gatedWrite (cbpBase port) (qtxRequest port buf) s)

/-- QTXCMD cancel. -/
def execQtxCancel (port buf : Nat) (s : State) : Host.Outcome State Fault Refusal := .next (gatedWrite (cbpBase port) (qtxCancel port buf) s)

/-! ### Reception (11 R572–R579, R583) -/

/-- The frame and its stamps stored in object `k` (11 R568, R569, R573, R599): 32 data bytes where it is not linked. -/
def storeObj (p k : Nat) (x : CanRx) (s : State) : State :=
  let cap := objCap s p k
  let trunc := decide (cap < x.f.data.length)
  let s := modPort p (fun c =>
    let w0 := memWord c.mem (64 * k)
    let w1 := memWord c.mem (64 * k + 4)
    let m := memPuts c.mem (64 * k) (leBytes 4 (putBits (putBits w0 0 30 (idWord x.f % 2 ^ 30)) 30 1 (bitsOf w0 30 1)))
    let m := memPuts m (64 * k + 4) (leBytes 4 (putBits w1 0 7 (dlcWord x.f)))
    let m := memPuts m (64 * k + 12) (leBytes 4 x.tsc.toNat ++ leBytes 4 x.ph.toNat)
    { c with mem := memPuts m (64 * k + 20) (x.f.data.take cap) }) s
  if trunc then objFlag p k 5 true s else s

/-- A frame becomes the new data of software object `k` (11 R574, R597 RX_NEW). -/
def newData (p k : Nat) (x : CanRx) (s : State) : State :=
  let s := objFlag p k 0 true (storeObj p k x s)
  if bitOf (objCtl s p k) 12 then portEvent p 0 k 0 s else s

/-- An overrun counted and raised (11 R575, R579). -/
def overrun (p k : Nat) (s : State) : State := portEvent p 3 k 0 (perf (112 + 8 * p + 5) none (portCount p 2 s))

/-- Delivery to software object `k` (11 R574, R575). -/
def deliverObj (p k : Nat) (x : CanRx) (s : State) : State :=
  let st := objStat s p k
  if bitOf st 2 then
    if (portOf s p).shadow.isSome then overrun p k (objFlag p k 4 true s)
    else modPort p (fun c => { c with shadow := some (k, x) }) s
  else if bitOf st 0 then newData p k x (overrun p k (objFlag p k 1 true s))
  else newData p k x s

/-- The receive bindings that share object or pair `o` of a port. -/
def rxBindsOf (s : State) (p o : Nat) : List (Nat × Bind) := (portBinds s p).filter fun e => !e.2.tx && e.2.obj == o

/-- A bound frame waits for its write (11 R582, R583): it replaces a waiting one; in queue mode a new one takes a FIFO entry. -/
def deliverBind (p : Nat) (x : CanRx) (s : State) (e : Nat × Bind) : State :=
  let coal := fun (s : State) => perf (112 + 8 * p + 4) none (portCount p 6 s)
  if x.f.data.isEmpty then s
  else if queueMode s p then
    let fifo := (portOf s p).bfifo
    if fifo.any (fun y => y.1 == e.1) then
      coal (modPort p (fun c => { c with bfifo := c.bfifo.map fun y => if y.1 == e.1 then (e.1, x) else y }) s)
    else if 16 ≤ fifo.length then portEvent p 17 e.1 0 (perf (112 + 8 * p + 5) none (portCount p 2 s))
    else modPort p (fun c => { c with bfifo := c.bfifo ++ [(e.1, x)] }) s
  else
    let s := if e.2.wait.isSome then coal s else s
    { s with can := { s.can with binds := tmod s.can.binds e.1 fun b => { b with wait := some x } } }

/-- A frame matches identifier `id` under `mask` and the format conditions of 11 R572. -/
def idMatch (f : CanFrame) (id mask : Nat) (ide mide fdf : Bool) : Bool :=
  ((f.id ^^^ id) &&& mask) == 0 && (f.ide == ide || !mide) && f.fdf == fdf

/-- Software receive object `k` matches a frame (11 R572). -/
def objMatch (s : State) (p : Nat) (f : CanFrame) (k : Nat) : Bool :=
  let w0 := memWord (portOf s p).mem (64 * k)
  let mk := regCur s (cbpBase p + 0x200 + 4 * k)
  objType s p k == 1 && (!f.rtr || bitOf w0 30)
    && idMatch f (bitsOf w0 0 29) (bitsOf mk 0 29) (bitOf w0 29) (bitOf mk 29) (bitOf (objCtl s p k) 4)

/-- Pair `j` matches a frame (11 R578). -/
def pairMatch (s : State) (p : Nat) (f : CanFrame) (j : Nat) : Bool :=
  let m := regCur s (cbpBase p + 0x200 + 8 * j)
  let k := regCur s (cbpBase p + 0x204 + 8 * j)
  bitOf m 31 && idMatch f (bitsOf m 0 29) (bitsOf k 0 29) (bitOf m 29) (bitOf k 29) (bitOf m 30)

/-- A binding's object or pair matches a frame: all 29 bits, and the formats (11 R580). A remote frame reaches no binding. -/
def bindMatch (e : Bind) (f : CanFrame) : Bool := !f.rtr && f.id == e.id && f.ide == e.ide && f.fdf == e.fd

/-- The bound object or pair, lowest first, that takes a frame. -/
def boundFor (s : State) (p : Nat) (f : CanFrame) : Option Nat :=
  ((portBinds s p).filter fun e => !e.2.tx && bindMatch e.2 f).foldl (fun a e => match a with
    | none => some e.2.obj
    | some o => some (min o e.2.obj)) none

/-- A frame written to receive queue `q` (11 R579). -/
def queueFrame (p q : Nat) (pair : Nat) (x : CanRx) (s : State) : State :=
  let r := (portOf s p).rxq.getD q (0, 0, false)
  if 32 ≤ r.2.1 then
    overrun p q (modPort p (fun c => { c with rxq := c.rxq.set q (r.1, r.2.1, true) }) s)
  else
    let a := (if q = 0 then 0x100 else 0xB00) + 0x50 * ((r.1 + r.2.1) % 32)
    let s := modPort p (fun c => { c with
      mem := memPuts (memPuts c.mem a (leBytes 4 (idWord x.f) ++ leBytes 4 (dlcWord x.f + 2 ^ 16 * pair) ++ leBytes 4 x.tsc.toNat
        ++ leBytes 4 x.ph.toNat)) (a + 16) (slice x.f.data 0 64)
      rxq := c.rxq.set q (r.1, r.2.1 + 1, r.2.2) }) s
    portEvent p 0 q 0 s

/-- A frame that matches nothing (11 R572, R578). -/
def noMatch (p : Nat) (s : State) : State := portEvent p 16 0 0 (portCount p 3 s)

/-- Delivery in object mode (11 R572): pool objects in ascending number, then the others. -/
def deliverObjects (p : Nat) (x : CanRx) (s : State) : State :=
  match boundFor s p x.f with
  | some o => each (rxBindsOf s p o) (deliverBind p x) (storeObj p o x s)
  | none => match (List.range (poolBase s p)).find? (objMatch s p x.f) with
    | some k => deliverObj p k x s
    | none => noMatch p s

/-- Delivery in queue mode (11 R578). -/
def deliverQueues (p : Nat) (x : CanRx) (s : State) : State :=
  match boundFor s p x.f with
  | some o => each (rxBindsOf s p o) (deliverBind p x) s
  | none => match (List.range (pairBase s p)).find? (pairMatch s p x.f) with
    | some j => queueFrame p (bitsOf (regCur s (cbpBase p + 0x204 + 8 * j)) 30 1) j x s
    | none => match rfld s (cbpBase p + 8) 3 2 with
      | 1 => queueFrame p 0 0 x s
      | 2 => queueFrame p 1 0 x s
      | _ => portCount p 3 s

/-- An error detected (11 R590): the error code, the counters that ISO 11898-1 gives, the state and its events. -/
def canError (p code tec rec' : Nat) (s : State) : State :=
  let old := portOf s p
  let keep := romOn s p
  let t := if keep then old.tecCnt else tec
  let r := if keep then old.recCnt else rec'
  let was := max old.tecCnt old.recCnt
  let now := max t r
  let s := modPort p (fun c => { c with lec := code, tecCnt := t % 512, recCnt := r % 256 }) s
  let s := perf (112 + 8 * p + 6) none (portCount p 9 s)
  let s := if was < 96 ∧ 96 ≤ now then portEvent p 4 0 0 s else s
  let s := if was < 128 ∧ 128 ≤ now then portEvent p 5 0 0 s else s
  let off := decide (255 < t)
  let s := if off then
      let manual := rbit s (cbpBase p) 2
      portEvent p 6 0 0 (portCount p 10 (modPort p (fun c => { c with st := if manual then .busOff else .recovering, manual := manual
                                                                      sending := none, cancelAfter := false }) s))
    else settleBus p s
  portEvent p 9 0 code s

/-- A frame received (11 R562, R568, R569, R572; R593): a recessive res bit makes the port integrate, or is a form error. -/
def canReceive (p : Nat) (f : CanFrame) (tsc : Word) (excRes : Bool) (s : State) : State :=
  if !onBus s p then s
  else if excRes then
    if rbit s (cbpBase p) 4 then canError p 2 (portOf s p).tecCnt ((portOf s p).recCnt + 1) s
    else portEvent p 8 0 0 (portCount p 11 (modPort p (fun c => { c with st := .integrating, sending := none }) s))
  else if f.fdf && !fdOn s p then s
  else
    let s := modPort p (fun c => { c with
      lec := 0
      recCnt := if romOn s p then c.recCnt else if 127 < c.recCnt then 127 else c.recCnt - 1 }) s
    let s := perf (112 + 8 * p) none (portCount p 0 (settleBus p s))
    let x : CanRx := { f := f, tsc := tsc, ph := phaseStamp s p tsc }
    if queueMode s p then deliverQueues p x s else deliverObjects p x s

/-- CAN_FRAME_RECEIVED. -/
def execCanFrameReceived (port : Nat) (f : CanFrame) (tsc : Word) (excRes : Bool) (s : State) : Host.Outcome State Fault Refusal :=
  .next (canReceive port f tsc excRes s)

/-! ### Transmission's end (11 R565, R568, R576, R588) -/

/-- The frame in `sending` was sent. -/
def canSent (p : Nat) (tsc : Word) (s : State) : State :=
  match (portOf s p).sending with
  | none => s
  | some k =>
    let f := txFrame s p k
    let ph := phaseStamp s p tsc
    let m := (Config.tdcDelay p tsc).toNat
    let tdc := f.fdf && rbit s (cbpBase p + 0x14) 0 && decide (rfld s (cbpBase p + 0x14) 8 7 ≤ m)
    let s := modPort p (fun c => { c with
      lec := 0
      tecCnt := c.tecCnt - 1
      tdcv := if tdc then m else c.tdcv }) s
    let s := perf (112 + 8 * p + 1) none (portCount p 1 (settleBus p s))
    let queue := queueMode s p
    let bound := if queue then k == 2 && (portOf s p).qbind.isSome else inPool s p k
    let s := if bound then perf (112 + 8 * p + 3) none (portCount p 5 s) else s
    let s := if queue then
        setQtx p k 2 (modPort p (fun c => { c with mem := memPuts c.mem (0x50 * k + 8) (leBytes 4 tsc.toNat ++ leBytes 4 ph.toNat) }) s)
      else modPort p (fun c => { c with mem := memPuts c.mem (64 * k + 12) (leBytes 4 tsc.toNat ++ leBytes 4 ph.toNat) }) s
    let s := if queue || bitOf (objCtl s p k) 12 then portEvent p 1 k 0 s else s
    endAttempt p k s

/-- TX_DONE. -/
def execTxDone (port : Nat) (tsc : Word) (s : State) : Host.Outcome State Fault Refusal := .next (canSent port tsc s)

/-- Is the frame in arbitration attempted once (11 R576 DAR)? -/
def darOf (s : State) (p k : Nat) : Bool := bitOf (memWord (portOf s p).mem ((if queueMode s p then 0x50 * k else 64 * k) + 4)) 10

/-- The attempt ended unsent (11 R576): with DAR, or where a cancel waits, the request ends; otherwise the frame of highest priority
enters arbitration again. -/
def canAborted (p : Nat) (s : State) : State :=
  match (portOf s p).sending with
  | none => s
  | some k =>
    if darOf s p k ∨ (portOf s p).cancelAfter then
      let s := if queueMode s p then setQtx p k 3 s else s
      endAttempt p k (portEvent p 2 k 0 s)
    else arbitrate p (modPort p (fun c => { c with sending := none }) s)

/-- TX_ABORTED. -/
def execTxAborted (port : Nat) (s : State) : Host.Outcome State Fault Refusal := .next (canAborted port s)

/-- ERR_FRAME: codes 1 to 6 are those of LEC; 8 and more are a delay measurement above 127 cycles, TDC_RANGE, with the code less 8
(11 R565, R590). A frame that is sent again enters arbitration anew. -/
def execErrFrame (port code tec rec' : Nat) (s : State) : Host.Outcome State Fault Refusal :=
  if !onBus s port then .next s
  else
    let s := canError port (code % 8) tec rec' s
    let s := if 8 ≤ code then portEvent port 10 0 0 s else s
    .next (match (portOf s port).sending with
      | some k => if darOf s port k ∨ (portOf s port).cancelAfter then s
        else arbitrate port (modPort port (fun c => { c with sending := none }) s)
      | none => s)

/-- Recovery ends (11 R591): the counters are 0, BUS_ON, and held transmissions resume. -/
def execBusOn (port : Nat) (s : State) : Host.Outcome State Fault Refusal :=
  .next (if (portOf s port).st = .recovering then
    let s := modPort port (fun c => { c with tecCnt := 0, recCnt := 0, manual := false, wasOff := false }) s
    arbitrate port (portEvent port 7 0 0 (modPort port (fun c => { c with st := busState s port }) s))
  else s)

/-- BOREQ (11 R591). -/
def recoverReq (p : Nat) (s : State) : State :=
  if (portOf s p).st = .busOff ∧ rbit s (cbpBase p) 2 then modPort p (fun c => { c with st := .recovering }) s else s

/-- BOREQ. -/
def execBoreq (port : Nat) (s : State) : Host.Outcome State Fault Refusal := .next (gatedWrite (cbpBase port) (recoverReq port) s)

/-! ### Configuration (11 R564, R566, R592, R596, R598) -/

/-- The port enters CONF (11 R564, R566): CBn_TXD is recessive, transmissions are held. -/
def enterConf (p : Nat) (s : State) : State :=
  modPort p (fun c => { c with
    st := .conf
    confReq := false
    wasOff := c.st == .busOff || c.st == .recovering || (c.st == .conf && c.wasOff)
    sending := none
    cancelAfter := false
    lec := 7 }) s

/-- A write of CBPn_CTRL (11 R598): the fields are stored; CONF = 1 asks for CONF after the frame in progress, CONF = 0 leaves it, ROM
and STBY take effect. -/
def ctrlWrite (cause : ClampBy) (p v : Nat) (s : State) : State :=
  let was := rbit s (cbpBase p) 0
  let s := regPutChecked cause (cbpBase p) v s
  let now := rbit s (cbpBase p) 0
  let s := { s with dev := { s.dev with canStby := s.dev.canStby.set p (rbit s (cbpBase p) 5) } }
  let s := if now && !was then modPort p (fun c => { c with confReq := true }) s else s
  let s := if !now && was then
      (if (portOf s p).st = .conf then
        modPort p (fun c => { c with
          confReq := false
          st := if !c.wasOff then .integrating else if rbit s (cbpBase p) 2 then .busOff else .recovering
          wasOff := false }) s
      else modPort p (fun c => { c with confReq := false }) s)
    else s
  let s := settleBus p s
  let s := if bitOf v 3 then recoverReq p s else s
  arbitrate p s

/-- A steward's register write. -/
def byStewardWrite : ClampBy := { kind := 0 }

/-- CONF_REQUEST: a write of CBPn_CTRL with CONF = 1. -/
def execConfRequest (port : Nat) (v : Word) (s : State) : Host.Outcome State Fault Refusal :=
  .next (gatedWrite (cbpBase port) (ctrlWrite byStewardWrite port (putBits v.toNat 0 1 1)) s)

/-- CONF_LEAVE: a write of CBPn_CTRL with CONF = 0. -/
def execConfLeave (port : Nat) (v : Word) (s : State) : Host.Outcome State Fault Refusal :=
  .next (gatedWrite (cbpBase port) (ctrlWrite byStewardWrite port (putBits v.toNat 0 1 0)) s)

/-- CONF_DONE: the frame in progress has ended (11 R564). -/
def execConfDone (port : Nat) (s : State) : Host.Outcome State Fault Refusal :=
  .next (if (portOf s port).confReq then portEvent port 11 0 0 (enterConf port s) else s)

/-- The registers that take writes only while CONF is 1 (11 R564): CBPn_NBT, CBPn_DBT, CBPn_TDC. -/
def bitTiming (p off : Nat) : Bool := off == cbpBase p + 0x0C || off == cbpBase p + 0x10 || off == cbpBase p + 0x14

/-- A bit-timing write outside CONF is ignored, and CONF_REFUSED is raised (11 R564). -/
def confRefused (p off : Nat) (s : State) : State :=
  if bitTiming p off && !rbit s (cbpBase p) 0 then portEvent p 18 off 0 s else s

/-- CONF_REFUSED. -/
def execConfRefused (port off : Nat) (s : State) : Host.Outcome State Fault Refusal := .next (gatedWrite (cbpBase port) (confRefused port off) s)

/-- INTEGRATION_DONE: after 11 recessive bits the port joins the bus, and held transmissions arbitrate (11 R564, R593). -/
def execIntegrationDone (port : Nat) (s : State) : Host.Outcome State Fault Refusal :=
  .next (if (portOf s port).st = .integrating then arbitrate port (modPort port (fun c => { c with st := busState s port }) s) else s)

/-- A port at entry into SAFE or SHUTDOWN (11 R596): it enters CONF after the frame in progress, and CBn_STBY is high. -/
def stopPort (p : Nat) (s : State) : State :=
  let s := regSet (cbpBase p) (putBits (putBits (regCur s (cbpBase p)) 0 1 1) 5 1 1) s
  let s := { s with dev := { s.dev with canStby := s.dev.canStby.set p true } }
  if (portOf s p).sending.isSome then modPort p (fun c => { c with confReq := true }) s else enterConf p s

/-! ### Objects and queues by software (11 R574, R579, R598) -/

/-- A command of OBJCMD acts on object `k` in object mode, outside the pool. -/
def softObj (s : State) (p k : Nat) : Bool := !queueMode s p && !inPool s p k && decide (k < 128)

/-- LOCK (11 R574). -/
def objLock (p k : Nat) (s : State) : State := if softObj s p k then objFlag p k 2 true s else s

/-- UNLOCK: the shadow frame of the object becomes its new data (11 R574). -/
def objUnlock (p k : Nat) (s : State) : State :=
  if !softObj s p k then s
  else
    let s := objFlag p k 2 false s
    match (portOf s p).shadow with
    | some x => if x.1 = k then newData p k x.2 (modPort p (fun c => { c with shadow := none }) s) else s
    | none => s

/-- CLEAR: NEWDAT, MSGLOST, OVR and TRUNC (11 R598). -/
def objClear (p k : Nat) (s : State) : State :=
  if softObj s p k then objFlag p k 0 false (objFlag p k 1 false (objFlag p k 4 false (objFlag p k 5 false s))) else s

/-- OBJCMD LOCK. -/
def execObjLock (port obj : Nat) (s : State) : Host.Outcome State Fault Refusal := .next (gatedWrite (cbpBase port) (objLock port obj) s)

/-- OBJCMD UNLOCK. -/
def execObjUnlock (port obj : Nat) (s : State) : Host.Outcome State Fault Refusal := .next (gatedWrite (cbpBase port) (objUnlock port obj) s)

/-- OBJCMD CLEAR. -/
def execObjClear (port obj : Nat) (s : State) : Host.Outcome State Fault Refusal := .next (gatedWrite (cbpBase port) (objClear port obj) s)

/-- A write of `m` to RXQq_ACK (11 R579): the first `m` owned entries are released, at most COUNT, and OVR is cleared. -/
def rxqAck (cause : ClampBy) (p q m : Nat) (s : State) : State :=
  let r := (portOf s p).rxq.getD q (0, 0, false)
  let n := min m r.2.1
  let s := modPort p (fun c => { c with rxq := c.rxq.set q ((r.1 + n) % 32, r.2.1 - n, false) }) s
  if m = n then s else logClamps cause (cbpBase p + 0x60 + 4 * q) [{ lo := 0, w := 6, written := m, stored := n }] s

/-- RXQ_ACK. -/
def execRxqAck (port q m : Nat) (s : State) : Host.Outcome State Fault Refusal := .next (gatedWrite (cbpBase port) (rxqAck byStewardWrite port q (m % 64)) s)

/-! ### Register writes of the block (11 R564, R571, R577, R598, R599) -/

/-- A write to a bit-timing register: ignored outside CONF; the node's own clamps of 11 R564 (13 R645). -/
def timingWrite (p off v : Nat) (s : State) : State :=
  if rbit s (cbpBase p) 0 then regPutChecked { kind := 2 } off v s else confRefused p off s

/-- A write to CBPn_CFG: every field keeps its value outside CONF, and each changed one is a clamp (11 R598). -/
def cfgWrite (cause : ClampBy) (p v : Nat) (s : State) : State :=
  let off := cbpBase p + 8
  if rbit s (cbpBase p) 0 then regPutChecked cause off v s
  else
    let old := regCur s off
    logClamps cause off ((regFlds off).filterMap fun f =>
      if bitsOf v f.lo f.w = bitsOf old f.lo f.w then none
      else some { lo := f.lo, w := f.w, written := bitsOf v f.lo f.w, stored := bitsOf old f.lo f.w }) s

/-- The bits of a filter register that are defined in the port's mode (15 R717): MASKk in object mode, MATCHj and PMASKj in queue
mode. -/
def filterMask (s : State) (p off : Nat) : Nat :=
  if !queueMode s p then 0x3FFFFFFF
  else if cbpBase p + 0x300 ≤ off then 0
  else if (off - cbpBase p) % 8 = 0 then 0xFFFFFFFF
  else 0x7FFFFFFF

/-- A write to OBJCMD. -/
def objCmd (p v : Nat) (s : State) : State :=
  let k := bitsOf v 0 7
  match bitsOf v 8 3 with
  | 1 => objLock p k s
  | 2 => objUnlock p k s
  | 3 => txRequest p k s
  | 4 => txCancel p k s
  | 5 => objClear p k s
  | _ => s

/-- A write to QTXCMD. -/
def qtxCmd (p v : Nat) (s : State) : State :=
  match bitsOf v 8 2 with
  | 1 => qtxRequest p (bitsOf v 0 2) s
  | 2 => qtxCancel p (bitsOf v 0 2) s
  | _ => s

/-- May software write word `a` of the object memory of port `p` (11 R571, R573, R576, R577, R579, R599)? -/
def objWritable (s : State) (p a : Nat) : Bool :=
  if queueMode s p then
    if a < 0xF0 then softBuf s p (a / 0x50) && (portOf s p).qtx.getD (a / 0x50) 0 != 1 && !(decide (8 ≤ a % 0x50) && decide (a % 0x50 < 16))
    else false
  else
    let k := a / 64
    let head := if linkedTail s p k then k - 1 else k
    let off := a % 64
    !inPool s p k && !bitOf (objStat s p head) 3 && (k != head || !(decide (8 ≤ off) && decide (off < 20)))

/-- The bits that the word at `a` of object memory has in the port's mode (11 R599); the others are reserved, and so are the words of no
buffer, entry or object (00 R10). -/
def objWordBits (s : State) (p a : Nat) : Nat :=
  if queueMode s p then
    if 0xF0 ≤ a ∧ a < 0x100 ∨ 0x1500 ≤ a then 0
    else
      let o := if a < 0xF0 then a % 0x50 else (a - 0x100) % 0x50
      if o = 0 then 0x7FFFFFFF else if o = 4 then (if a < 0xF0 then 0x1C7F else 0x1F007F) else 0xFFFFFFFF
  else if linkedTail s p (a / 64) ∧ a % 64 < 20 then 0xFFFFFFFF
  else match a % 64 with
    | 0 => 0x7FFFFFFF
    | 4 => 0x3F7F
    | 8 => 0x3F
    | _ => 0xFFFFFFFF

/-- A word of object memory as it is read. -/
def objMemRead (s : State) (p a : Nat) : Nat := memWord (portOf s p).mem a &&& objWordBits s p (a / 4 * 4)

/-- A software write of one word of object memory: BIND of an object's CTRL word is read only. -/
def objMemWrite (p a v : Nat) (s : State) : State :=
  let a := a % 0x2000 / 4 * 4
  if objWritable s p a then
    let v := v &&& objWordBits s p a
    let v := if !queueMode s p && a % 64 == 4 && !linkedTail s p (a / 64) then putBits v 13 1 0 else v
    modPort p (fun c => { c with mem := memPuts c.mem a (leBytes 4 v) }) s
  else s

end Sys2Proof.Machine
end

