-- ==== Sys2Proof/Machine/Answers.lean ====
section
/-! DEFINITION. Line messages that reach a requester: fills, updates, probes, acknowledgments and lease messages (06 R300,
R308–R313, R329; 07 R349–R365), and the emptying of draining ways (08 R400–R402). -/

namespace Sys2Proof.Machine

/-- The message is for this node: it takes line messages, and DST names it or every node (06 R295). -/
def forNode (s : State) (r : Rx) : Bool := onTrain s && (r.msg.dst == s.trn.node || r.msg.dst == 63)

/-- The bobbin that an answer belongs to: it waits, and its request named the line and tenant (06 R294, R337). -/
def ansBob (s : State) (m : LineMsg) : Option Bobbin :=
  match bobOf s m.trk with
  | none => none
  | some v => match v.req with
    | some q => if v.wait == .answer && q.la == m.la && v.job.ten == m.ten then some v else none
    | none => none

/-- The type of the request a bobbin sent. -/
def reqType (v : Bobbin) : Option MsgType := v.req.map (·.typ)

/-- The lane of the final answer is kept for the sample (12 R618). -/
def answerLane (b : Nat) (l : LaneId) (s : State) : State := modBob b (fun v => { v with lane := laneIx l }) s

/-! ### Draining ways (08 R401) -/

/-- The way that waits to take over a line from a draining way. -/
def relocTarget (s : State) (la : Nat) : Option Nat :=
  ((waysOf s (setOf la)).find? fun e => e.2.la == la && e.2.st == .i && e.2.held.isNone && e.2.bob.isNone).map (·.1)

/-- A filled copy moves to the way that waits for it, and its old way is released (08 R401). -/
def relocate (la : Nat) (s : State) : State :=
  match relocTarget s la, copyOf s la with
  | some k, some e => setCopy k e.2 (dropWay e.1 s)
  | some k, none => dropWay k s
  | none, _ => s

/-- An invalid way or an unpinned S, E or P copy's way, in an ON way-quadrant of the set (08 R381 steps 1 and 2). -/
def spareWay (s : State) (set : Nat) : Option (Nat × Option Copy) :=
  let on := (List.range 16).filter fun w => (wq s (wqOf set w)).st == .on
  match on.find? fun w => (tget s.cc.ways (16 * set + w)).isNone with
  | some w => some (16 * set + w, none)
  | none => (leastBy (·.lru) ((waysOf s set).filter fun e => on.contains (e.1 % 16) && e.2.held.isNone && !isPinned s e.2.la
      && (e.2.st == .s || e.2.st == .e || e.2.st == .p))).map fun e => (e.1, some e.2)

/-- The copy that stood in a way taken by `spareWay` leaves. -/
def vacate (o : Nat × Option Copy) (s : State) : State :=
  match o.2 with
  | some c => if c.st == .p then evictP o.1 c s else dropWay o.1 s
  | none => s

/-- A pinned line's entry is to move: a way is allocated in an ON way-quadrant, and filled (08 R401). -/
def refill (c : Copy) (s : State) : State :=
  if (relocTarget s c.la).isSome then s
  else match spareWay s (setOf c.la) with
    | none => s
    | some o =>
      let s := setCopy o.1 { la := c.la, st := .i } (vacate o s)
      if c.st == .p then
        if clsAt s c.la .c1 = .c0 then s else sendOwed 0 0x15 c.la .c1 { typ := .subReq, flg := 1 } s
      else sendOwed 0 0x15 c.la .c1 { typ := .rdShared } s

/-- One entry of a draining way-quadrant is emptied (08 R401). -/
def drainEntry (k : Nat) (s : State) : State :=
  match tget s.cc.ways k with
  | none => s
  | some c =>
    if (wq s (wqOf (k / 16) (k % 16))).st != .drain then s
    else if c.held.isSome then
      match spareWay s (k / 16) with
      | some o => setCopy o.1 c (dropWay k (vacate o s))
      | none => s
    else if isPinned s c.la then
      match c.st with
      | .p | .s | .e => refill c s
      | .m => evictM k c true s
      | _ => s
    else match c.st with
      | .s | .e => dropWay k s
      | .p => match spareWay s (k / 16) with
        | some o => setCopy o.1 c (dropWay k (vacate o s))
        | none => evictP k c s
      | .m => evictM k c false s
      | _ => s

/-- The way of a line is emptied if it drains: at the end of a transaction and at an update (08 R401). -/
def drainLine (la : Nat) (s : State) : State :=
  match copyOf s la with
  | some e => drainEntry e.1 s
  | none => s

/-! ### Fills (06 R300, R309; 07 R355, R356, R365) -/

/-- The copy's contents as a message gives them (06 R298). -/
def filled (s : State) (c : Copy) (st : CState) (m : LineMsg) : Copy :=
  { c with st := st, version := m.version, age := m.age, ageRow := s.tm.rows, data := m.data, stale := false, bob := none, inval := false, again := none }

/-- The end of a fill of bobbin `b`: attached operations, then the draining of its way. -/
def afterFill (b la : Nat) (ok : Bool) (s : State) : State := drainLine la (attachedApply b ok s)

/-- A shared fill of a copy in IS by its bobbin; an INVALIDATE met meanwhile drops it once the read has completed (06 R300). -/
def fillShared (b : Nat) (v : Bobbin) (k : Nat) (c : Copy) (st : CState) (m : LineMsg) (s : State) : State :=
  let s1 := if c.inval then dropWay k s else touch m.la (setCopy k (filled s c st m) s)
  let res : LineRes := { status := if v.lost then stLineLost else stOk, version := m.version, age := m.age, data := some m.data, aged := jobAged v m.age }
  afterFill b m.la true (finishLine b res s1)

/-- An uncached answer to a read; a P copy takes it when it is newer (10 R511). -/
def readUncached (b : Nat) (v : Bobbin) (m : LineMsg) (s : State) : State :=
  let s := match copyOf s m.la with
    | some e =>
      if e.2.st == .p && newer m.version e.2.version then setCopy e.1 (filled s e.2 .p m) s
      else if e.2.st == .is && e.2.bob == some b then dropWay e.1 s else s
    | none => s
  attachedApply b false
    (finishLine b { status := if v.lost then stLineLost else stOk, version := m.version, age := m.age, data := some m.data, aged := jobAged v m.age } s)

/-- Bobbins that wait for a subscription's value of the line: SUBSCRIBE, and SUB_REQ with REFRESH. -/
def subWaiters (s : State) (la : Nat) (refreshToo : Bool) : List (Nat × Bobbin) :=
  s.ten.bobs.filter fun e => e.2.wait == .answer && (match e.2.req with
    | some q => q.typ == .subReq && q.la == la && (refreshToo || q.flg == 0)
    | none => false)

/-- A value of a subscribed line (06 R300, R336; 07 R356): a copy in IP takes it, a P copy takes a newer one; a stale copy also takes
the same version, and one of age 0 in every case (06 R336 and "Version wrap"; DEDUCED, log 40). -/
def takeValue (m : LineMsg) (s : State) : State :=
  match copyOf s m.la with
  | none => s
  | some e =>
    let c := e.2
    if c.st == .ip then bindPend m.la (touch m.la (setCopy e.1 (filled s c .p m) s))
    else if c.st == .p then
      let nw := newer m.version c.version
      if nw || (c.stale && (m.version == c.version || m.age == 0)) then
        let s := relocate m.la (touch m.la (setCopy e.1 (filled s c .p m) s))
        if nw then bindPend m.la s else s
      else perf 26 none s
    else s

/-- A bobbin that waited for a subscription's value completes with it (10 R515). -/
def subDone (m : LineMsg) (s : State) (e : Nat × Bobbin) : State :=
  let s := if e.2.kind != .intern && e.2.job.op == 13 && !e.2.absorb then addSub m.la (subscriber e.2) s else s
  attachedApply e.1 true (finishLine e.1 { version := m.version, age := m.age, aged := jobAged e.2 m.age } s)

/-- A line that has become homed here keeps no copy: what a transaction of the old home filled is dropped once it is complete, modified data
committed (01 R23; DEDUCED, log 61). -/
def ownLine (la : Nat) (s : State) : State :=
  match homedHere s la, copyOf s la with
  | true, some e =>
    if transient e.2.st then s
    else if e.2.st = .m then (mirrorSend la (homeCommit la e.2.data none none (dropWay e.1 s))).1
    else dropWay e.1 s
  | _, _ => s

/-- UPDATE (06 R300). -/
def takeUpdate (r : Rx) (s : State) : State :=
  if !forNode s r then s
  else
    let m := r.msg
    let s := learnCls m.la m.cls (perf 25 none s)
    let first := copyState s m.la == .ip || m.cls == .c0
    let s := takeValue m s
    ownLine m.la (drainLine m.la (if first then each (subWaiters s m.la (m.cls == .c0)) (subDone m) s else s))

/-- DATA_SHARED for one reader: the bobbin `b` (06 R300; 10 R511). -/
def sharedOne (b : Nat) (m : LineMsg) (l : LaneId) (s : State) : State :=
  match bobOf s b with
  | none => s
  | some v =>
    let s := answerLane b l s
    if m.flg.getLsbD 2 then readUncached b v m s
    else match copyOf s m.la with
      | some e =>
        if e.2.st == .is && e.2.bob == some b then fillShared b v e.1 e.2 (if m.flg.getLsbD 0 then .e else .s) m s
        else if v.kind == .intern && (e.2.st == .s || e.2.st == .e) then
          relocate m.la (finishLine b {} (setCopy e.1 (filled s e.2 (if m.flg.getLsbD 0 then .e else .s) m) s))
        else s
      | none => relocate m.la (if v.kind == .intern then finishLine b {} s else s)

/-- Bobbins whose read of the line has left and waits: those that a DATA_SHARED for every node serves (06 R295), an uncached one each of them,
another the one whose copy stands in IS (DEDUCED, log 139). -/
def readWaiters (s : State) (m : LineMsg) : List Nat :=
  let open_ := s.ten.bobs.filter fun e => e.2.wait == .answer && e.2.left.isSome && (match e.2.req with
    | some q => q.la == m.la && (q.typ == .rdShared || q.typ == .readHome)
    | none => false)
  let fill := fun (b : Nat) => (copyOf s m.la).any fun e => e.2.st == .is && e.2.bob == some b
  (open_.filter fun e => m.flg.getLsbD 2 || fill e.1).map (·.1)

/-- DATA_SHARED (06 R295, R300; 10 R511). -/
def takeShared (r : Rx) (s : State) : State :=
  if !forNode s r then s
  else
    let m := r.msg
    let s := learnCls m.la m.cls s
    if m.flg.getLsbD 1 then
      let s := takeValue m s
      let mine := (subWaiters s m.la true).filter fun e => e.1 == m.trk || copyState s m.la == .p && (e.2.req.any fun q => q.flg == 0)
      ownLine m.la (drainLine m.la (each mine (subDone m) (each mine (fun s e => answerLane e.1 r.lane s) s)))
    else if m.dst = 63 then ownLine m.la (each (readWaiters s m) (fun s b => sharedOne b m r.lane s) s)
    else match ansBob s m with
      | none => s
      | some _ => ownLine m.la (sharedOne m.trk m r.lane s)

/-- A write command performed in the copy that its fill has reached (06 R300); an absorbed one fills in E and writes nothing
(07 R365). -/
def fillOwn (b : Nat) (v : Bobbin) (k : Nat) (c : Copy) (s : State) : State :=
  let c := if v.absorb then { c with st := .e } else { c with st := .m, data := writeInto v.job v.blk c.data }
  afterFill b c.la true (finishLine b { version := c.version } (touch c.la (setCopy k c s)))

/-- DATA_OWN (06 R300). -/
def takeOwn (r : Rx) (s : State) : State :=
  match forNode s r, ansBob s r.msg, copyOf s r.msg.la with
  | true, some v, some e =>
    let s := answerLane r.msg.trk r.lane (learnCls r.msg.la r.msg.cls s)
    if (e.2.st == .im || e.2.st == .sm) && e.2.bob == some r.msg.trk then ownLine r.msg.la (fillOwn r.msg.trk v e.1 (filled s e.2 .m r.msg) s)
    else s
  | _, _, _ => s

/-- GRANT_OWN (06 R300): from SM the copy's own data, after ZERO zeros; an absorbed ZERO leaves the copy in I (07 R365). -/
def takeGrant (r : Rx) (s : State) : State :=
  match forNode s r, ansBob s r.msg, copyOf s r.msg.la with
  | true, some v, some e =>
    let m := r.msg
    let s := answerLane m.trk r.lane (learnCls m.la m.cls s)
    let zero : Bool := match v.req with
      | some q => q.typ == .ownNodata && q.flg.getLsbD 0
      | none => false
    if e.2.bob != some m.trk then s
    else if e.2.st == .sm then ownLine m.la (fillOwn m.trk v e.1 { e.2 with bob := none, again := none } s)
    else if e.2.st == .im && zero then
      if v.absorb then attachedApply m.trk false (finishLine m.trk {} (dropWay e.1 s))
      else ownLine m.la (fillOwn m.trk v e.1 (filled s e.2 .m { m with data := 0 }) s)
    else s
  | _, _, _ => s

/-! ### Probes (06 R300, R408; 07 R349–R352, R359, R409) -/

/-- The answer to a probe, in the stream that the probe came in. -/
def probeAnswer (r : Rx) (typ : MsgType) (flg : BitVec 3) (c : Option Copy) (all : Bool) (s : State) : State :=
  let m : LineMsg := { typ := typ, cls := r.msg.cls, dst := if all then 63 else r.src, trk := r.msg.trk, flg := flg, la := r.msg.la }
  match c with
  | some c => queueMsg { m with age := copyAge s c, version := c.version, data := c.data, param := r.msg.param } none s
  | none => queueMsg m none s

/-- INVALIDATE (06 R300, 08 R409). -/
def takeInvalidate (r : Rx) (s : State) : State :=
  if !forNode s r then s
  else
    let m := r.msg
    let s := probeAnswer r .invAck 0 none false (learnCls m.la m.cls (perf 23 none s))
    match copyOf s m.la with
    | none => s
    | some e => match e.2.st with
      | .s => relocate m.la (dropWay e.1 s)
      | .p => if m.flg.getLsbD 0 then subLost m.la (relocate m.la (dropWay e.1 s)) else s
      | .is => setCopy e.1 { e.2 with inval := true } s
      | .sm => setCopy e.1 { e.2 with st := .im, back := .i } s
      | _ => s

/-- RECALL (06 R300; 07 R351, R352, R359). -/
def takeRecall (r : Rx) (s : State) : State :=
  if !forNode s r then s
  else
    let m := r.msg
    let keepS := m.flg.getLsbD 0
    let all := m.param.toNat % 64 != 0
    let s := learnCls m.la m.cls (perf 24 none s)
    let data := fun (c : Copy) (dirty kept : Bool) (s : State) => probeAnswer r .recallData (BitVec.ofNat 3 (b2n dirty + 2 * b2n kept)) (some c) all s
    let clean := probeAnswer r .recallNodata 1 none false
    match copyOf s m.la with
    | some e =>
      let c := e.2
      match c.st with
      | .e | .m =>
        let dirty := c.st == .m
        let s := data c dirty keepS s
        if keepS then setCopy e.1 { c with st := .s, again := some (m.trk, s.tm.rows, dirty) } s
        else if dirty then setCopy e.1 { c with held := some (m.trk, s.tm.rows), bob := none } s
        else relocate m.la (dropWay e.1 s)
      | .s => match c.again with
        | some a => if a.1 = m.trk then data c a.2.2 true s else clean s
        | none => clean s
      | .mi => probeAnswer r .recallNodata 0 none false (setCopy e.1 { c with recalled := some keepS } s)
      | _ => clean s
    | none => match heldOf s m.la with
      | some e => if (e.2.held.getD (0, 0)).1 = m.trk then data e.2 true false s else clean s
      | none => clean s

/-- A RECALL_DATA at the reader it was forwarded to (06 R309). -/
def takeForwarded (r : Rx) (s : State) : State :=
  let m := r.msg
  let p := m.param.toNat
  let b := bitsOf p 6 10
  match forNode s r && p % 64 == s.trn.node, bobOf s b, copyOf s m.la with
  | true, some v, some e =>
    if e.2.st == .is && e.2.bob == some b && v.job.ten == bitsOf p 16 3 then
      ownLine m.la (fillShared b v e.1 e.2 .s m (answerLane b r.lane (learnCls m.la m.cls s)))
    else s
  | _, _, _ => s

/-! ### Final answers (06 R300, R313, R314, R329; 07 R351; 10 R502, R513, R514) -/

/-- A copy in a transient state that its bobbin's refused request leaves: back to the state it left (05 R264, 10 R502). -/
def fillRefused (b la : Nat) (s : State) : State :=
  match copyOf s la with
  | some e =>
    if e.2.bob == some b then
      if e.2.back == .i then dropWay e.1 s else setCopy e.1 { e.2 with st := e.2.back, bob := none } s
    else s
  | none => s

/-- The copy after the ACK of its WRITEBACK (06 R300, 07 R351): its version is the committed one. -/
def writebackAcked (b : Nat) (m : LineMsg) (ok : Bool) (s : State) : State :=
  match copyOf s m.la with
  | some e =>
    if e.2.st == .mi && e.2.bob == some b then
      let stay : Option CState := if !ok || !e.2.keep then none else match e.2.recalled with
        | none => some .e
        | some keepS => if keepS then some .s else none
      match stay with
      | some st => setCopy e.1 { e.2 with st := st, bob := none, version := m.version, recalled := none, keep := false } s
      | none => relocate m.la (dropWay e.1 s)
    else s
  | none => s

/-- ACK (06 R300, R305, R307; 10 R502). -/
def takeAck (r : Rx) (s : State) : State :=
  match forNode s r, ansBob s r.msg with
  | true, some v =>
    let m := r.msg
    let b := m.trk
    let st := m.param.toNat % 256
    let s := answerLane b r.lane (learnCls m.la m.cls s)
    let end_ := fun (s : State) => ownLine m.la (drainLine m.la (attachedApply b false s))
    match reqType v with
    | some .writeback => end_ (finishLine b { status := st, version := m.version } (writebackAcked b m (decide (st < 0x10)) s))
    | some .evictClean =>
      let s := match copyOf s m.la with
        | some e => if e.2.st == .ci && e.2.bob == some b then relocate m.la (dropWay e.1 s) else s
        | none => s
      end_ (finishLine b { status := st, version := m.version } s)
    | some .unlockReq =>
      let s := { s with heldLeases := s.heldLeases.filter fun h => !(h.la == m.la && h.ten == m.ten) }
      finishLine b { status := st, version := m.version } s
    | some .atomicReq =>
      if st = stLeaseExpired then modBob b (fun v => { v with broke := true }) s
      else
        let s1 := { s with tm := { s.tm with draws := s.tm.draws + 1 } }
        if st = stReplayed then
          finishLine b { replayed := true, version := m.version, res1 := (Config.replayedResult s.tm.draws).toNat } s1
        else finishLine b { status := st, version := m.version } s
    | some .rdShared | some .readHome =>
      if st = stLineLost then modBob b (fun v => { v with lost := true }) s
      else end_ (finishLine b { status := st, version := m.version } (fillRefused b m.la s))
    | some .rdOwn | some .ownNodata | some .subReq =>
      end_ (finishLine b { status := st, version := m.version } (fillRefused b m.la s))
    | _ => finishLine b { status := if st = stReplayed then stOk else st, replayed := st == stReplayed, version := m.version } s
  | _, _ => s

/-- A bobbin gives up its transaction: a copy of its own in IS, IM, SM or IP enters I; one in MI or CI keeps the bobbin, as an internal
one, until its answer (06 R337, 07 R365, R366). -/
def abandon (b : Nat) (s : State) : State :=
  let mine := s.cc.ways.filter fun e => e.2.bob == some b && e.2.held.isNone
  let s := { s with lan := { s.lan with txq := s.lan.txq.filter fun i => !(i.bob == some b && i.use == .req
              && !(mine.any fun e => e.2.st == .mi || e.2.st == .ci)) } }
  each mine (fun s e =>
    match e.2.st with
    | .is | .im | .sm | .ip | .i => relocate e.2.la (dropWay e.1 s)
    | .mi | .ci => s
    | _ => setCopy e.1 { e.2 with bob := none } s) s

/-- The copy that bobbin `b`'s WRITEBACK was to carry to a home that is now this node: its data is committed (DEDUCED, log 61). -/
def takeBack (b la : Nat) (s : State) : State :=
  match copyOf s la with
  | some e =>
    if e.2.bob == some b && (e.2.st == .mi || e.2.st == .ci) then
      let s := dropWay e.1 s
      if e.2.back = .m && e.2.st = .mi then (mirrorSend la (homeCommit la e.2.data none none s)).1 else s
    else s
  | none => s

/-- A request whose line is homed here from now on is none any more: its command is performed again, as a local one (05 R264, 10 R546). -/
def nowLocal (b : Nat) (v : Bobbin) (la : Nat) (s : State) : State :=
  let s := takeBack b la s
  match v.kind with
  | .intern => freeBob b (abandon b s)
  | _ => setBob b { v with wait := .state, req := none, left := none, home := true } (abandon b s)

/-- A request refused once more: it is sent again in the next request stitch, as an elder after four refusals (06 R313, R314). -/
def retryReq (b : Nat) (v : Bobbin) (s : State) : State :=
  match v.req with
  | none => s
  | some q =>
    if homedHere s q.la then nowLocal b v q.la s
    else
    let n := v.naks + 1
    let elder := v.elder || 4 ≤ n
    let s := if elder && !v.elder then perf 30 (some v.job.ten) s else s
    sendReq b q (setBob b { v with naks := n, elder := elder } s)

/-- NAK_RETRY (06 R313). -/
def takeNak (r : Rx) (s : State) : State :=
  match forNode s r, ansBob s r.msg with
  | true, some v => retryReq r.msg.trk v (cohCount 1 (perf 29 (some v.job.ten) (learnCls r.msg.la r.msg.cls s)))
  | _, _ => s

/-- ATOMIC_RESULT (06 R293, 10 R513). -/
def takeAtomic (r : Rx) (s : State) : State :=
  match forNode s r, ansBob s r.msg with
  | true, some _ =>
    let m := r.msg
    finishLine m.trk { version := m.version, res1 := leNat (lineGet m.data 0 8), casFail := m.flg.getLsbD 0 }
      (answerLane m.trk r.lane (learnCls m.la m.cls s))
  | _, _ => s

/-- LEASE_GRANT (06 R326, 10 R514). -/
def takeGrantLease (r : Rx) (s : State) : State :=
  match forNode s r, ansBob s r.msg with
  | true, some v =>
    let m := r.msg
    let hoops : Nat := match v.req with
      | some q => q.param.toNat % 256
      | none => 0
    let s := { s with heldLeases := (s.heldLeases.filter fun h => !(h.la == m.la && h.ten == m.ten)) ++
                 [{ la := m.la, ten := m.ten, hoops := hoops, expiry := m.param }] }
    finishLine m.trk { version := m.version, res0 := m.param.toNat } (answerLane m.trk r.lane (learnCls m.la m.cls s))
  | _, _ => s

/-- LEASE_BREAK (06 R329, R330): EXPIRED = 1 records the lease as broken; EXPIRED = 0 answers a reset's UNLOCK_REQ. -/
def takeBreak (r : Rx) (s : State) : State :=
  if !forNode s r then s
  else
    let m := r.msg
    let s := learnCls m.la m.cls s
    let mine := fun (h : HeldLease) => h.la == m.la && h.ten == m.ten
    if m.flg.getLsbD 0 then { s with heldLeases := s.heldLeases.map fun h => if mine h then { h with broken := true } else h }
    else
      let s := { s with heldLeases := s.heldLeases.filter fun h => !mine h }
      match ansBob s m with
      | some _ => finishLine m.trk {} s
      | none => s

/-! ### Timers (06 R334, R337; 07 R359, R366, R369) -/

/-- REQ_TMO rows have passed since the request left: it is sent again, and counted; a resend after a drop counts as one refusal
(06 R334, 07 R369). -/
def resendOp (b : Nat) (s : State) : State :=
  match bobOf s b with
  | none => s
  | some v => match v.left with
    | some row =>
      if v.wait != .answer || decide (s.tm.rows - row < rfld s 0x8000 0 8) then s
      else retryReq b v (cohCount 6 s)
    | none => s

/-- A bobbin's copy is leaving (MI or CI). -/
def leaving (s : State) (b : Nat) : Bool :=
  s.cc.ways.any fun e => e.2.bob == some b && e.2.held.isNone && (e.2.st == .mi || e.2.st == .ci)

/-- A command ends without its answer, with a status (06 R337, 10 R498): its copies, its request and the operations attached to it. -/
def cutOff (b status : Nat) (s : State) : State :=
  match bobOf s b with
  | none => s
  | some v =>
    let leave := leaving s b
    let s := abandon b s
    let s := match v.kind with
      | .intern => if leave then s else freeBob b s
      | _ =>
        let res : Done := { status := status, version := if isBlk v.job.op then v.due else 0, res0 := if isBlk v.job.op then v.blk else 0,
                            out := if v.job.op = 3 then some v.out else none, age := if v.job.op = 3 then v.maxAge else 0 }
        let s := complete b res s
        if leave then setBob b { v with kind := .intern } s else s
    if leave then s else attachedApply b false s

/-- The 65-row hold of a line held after a dirty RECALL_DATA ends (07 R359). -/
def releaseHeld (la : Nat) (s : State) : State :=
  let s := match heldOf s la with
    | some e => if 65 ≤ s.tm.rows - (e.2.held.getD (0, 0)).2 then dropWay e.1 s else s
    | none => s
  match copyOf s la with
  | some e => match e.2.again with
    | some a => if 65 ≤ s.tm.rows - a.2.1 then setCopy e.1 { e.2 with again := none } s else s
    | none => s
  | none => s

/-- Frames of a source's stream were lost: each P copy of the class whose home is the source is marked stale, and C1 and C2 copies are
refreshed (03 R164, 06 R336). -/
def staleMark (src : Nat) (c : Cls) (s : State) : State :=
  each s.cc.ways (fun s e =>
    if e.2.st == .p && homeNode s e.2.la == src && remoteCls s e.2.la (clsAt s e.2.la .c1) == c then
      let s := setCopy e.1 { e.2 with stale := true } s
      if c = .c0 then s else refreshLine e.2.la s
    else s) s

end Sys2Proof.Machine
end

