-- ==== Sys2Proof/Machine/Pattern.lean ====
section
/-! DEFINITION. Patterns: the pricking format and its checks, pattern I, the stitches of a row, budgets and the admission of C0
regions (04 R197–R215, R225–R227; 06 R291, R312, R318; 08 R386). -/

namespace Sys2Proof.Machine

/-- A stitch (04 R198). -/
structure Stitch where
  start : Nat
  owner : Nat
  len : Nat
  /-- 0 pattern frame, 1 data, 2 ranging, 3 migration; 4 stands for a control stitch of pattern I (04 R210). -/
  stype : Nat
  cls : Nat
  lmode : Nat
  use : Nat
  lanes : Nat
  rows : Nat
  deriving DecidableEq, Repr

/-- A budget entry (04 R199). -/
structure Budget where
  req : Nat
  rsp : Nat
  hom : Nat
  c1 : Nat
  c2 : Nat
  deriving DecidableEq, Repr

/-- A pricking's fields (04 R197–R199). -/
structure Pricking where
  magic : Nat
  format : Nat
  patno : Nat
  nrow : Nat
  maxnode : Nat
  lanes : Nat
  speed : Nat
  nstitch : Nat
  hopmax : List Nat
  fwin : Nat
  guardAt : Nat
  label : List Byte
  /-- Every reserved field is 0. -/
  resOk : Bool
  st : List Stitch
  bud : List Budget
  digest : Nat
  /-- The digest computed over the other bytes. -/
  crc : Nat
  deriving DecidableEq, Repr

/-- A stitch entry of 12 bytes, and whether its reserved fields are 0. -/
def parseStitch (bs : List Byte) : Stitch × Bool :=
  let b := fun i => leAt bs i 1
  ({ start := leAt bs 0 3, owner := b 3, len := leAt bs 4 3, stype := bitsOf (b 7) 0 2, cls := bitsOf (b 7) 2 2,
     lmode := bitsOf (b 7) 4 2, use := bitsOf (b 7) 6 2, lanes := bitsOf (b 8) 0 3, rows := leAt bs 10 2 },
   bitsOf (b 8) 3 5 == 0 && b 9 == 0)

/-- A budget entry of 16 bytes, and whether its reserved field is 0. -/
def parseBudget (bs : List Byte) : Budget × Bool :=
  ({ req := leAt bs 0 2, rsp := leAt bs 2 2, hom := leAt bs 4 2, c1 := leAt bs 6 4, c2 := leAt bs 10 4 }, leAt bs 14 2 == 0)

/-- Length that the header's counts give (04 R201). -/
def prickLen (bs : List Byte) : Nat := 64 + 12 * leAt bs 8 2 + 16 * leAt bs 5 1 + 4

/-- A pricking read from its bytes. -/
def parsePrick (bs : List Byte) : Pricking :=
  let b := fun i => leAt bs i 1
  let n := leAt bs 8 2
  let m := b 5
  let sts := (List.range n).map fun i => parseStitch (slice bs (64 + 12 * i) 12)
  let bds := (List.range m).map fun i => parseBudget (slice bs (64 + 12 * n + 16 * i) 16)
  let l := prickLen bs
  { magic := leAt bs 0 2, format := b 2, patno := b 3, nrow := bitsOf (b 4) 0 2, maxnode := m
    lanes := bitsOf (b 6) 0 3, speed := bitsOf (b 6) 3 3, nstitch := n
    hopmax := [leAt bs 10 2, leAt bs 12 2, leAt bs 14 2], fwin := leAt bs 16 3, guardAt := leAt bs 20 3, label := slice bs 24 8
    resOk := bitsOf (b 4) 2 6 == 0 && bitsOf (b 6) 6 2 == 0 && b 7 == 0 && b 19 == 0 && b 23 == 0 && leAt bs 32 32 == 0
      && sts.all (·.2) && bds.all (·.2)
    st := sts.map (·.1), bud := bds.map (·.1), digest := leAt bs (l - 4) 4, crc := crc32 (slice bs 0 (l - 4)) }

/-! ### Placement arithmetic (04 R202, R203, R209) -/

/-- Rows per hoop of an NROW code. -/
def rowsOf (code : Nat) : Nat := 4 * 2 ^ code

/-- Length of a row in pu. -/
def rowPu (code : Nat) : Nat := 2 ^ 24 / rowsOf code

/-- pu that cover `ns` nanoseconds at 65 Hz: ns / t65, rounded up. -/
def puOf (ns : Nat) : Nat := ceilDiv (ns * 65 * 2 ^ 24) (10 ^ 9)

/-- Wire time of one byte, ns. -/
def byteNs (fast : Bool) : Nat := if fast then 8 else 80

/-- Message capacity of a stitch of length `len` on a lane (04 R202). -/
def capOf (len : Nat) (fast : Bool) : Nat :=
  let x := len * 10 ^ 9 / (65 * 2 ^ 24 * byteNs fast)
  if x < 66 then 0 else min 1472 (x - 66) / 16 * 16

/-- Hop allowance of a lane, pu (04 R203). -/
def hopPu (p : Pricking) (l : Nat) : Nat := puOf (p.hopmax.getD l 0)

/-- A lane's bit in a pricking's SPEED. -/
def fastIn (p : Pricking) (l : Nat) : Bool := bitOf p.speed l

/-- Separation of two owners (04 R203). -/
def sepOf (p : Pricking) (a b : Nat) : Nat :=
  if a = 0 ∨ a = 63 ∨ b = 0 ∨ b = 63 then p.maxnode - 1 else if a ≤ b then b - a else a - b

/-- Start of the inauguration band, pu from the row start (04 R209). -/
def bandStart (code : Nat) (fast : Bool) : Nat := if fast then rowPu code * 5 / 8 else rowPu code / 2

/-- Lanes of a lane set. -/
def lanesIn (m : Nat) : List Nat := (List.range 3).filter fun l => bitOf m l

/-- A C0 data stitch. -/
def isC0 (t : Stitch) : Bool := t.stype == 1 && t.cls == 0

/-- End of a stitch. -/
def Stitch.stop (t : Stitch) : Nat := t.start + t.len

/-- The capacity of a stitch: once, at the least of its lanes, for DUAL and TRIPLE; per lane for SPLIT (04 R204 check 14). -/
def stitchCap (fast : Nat → Bool) (t : Stitch) : Nat :=
  let cs := (lanesIn t.lanes).map fun l => capOf t.len (fast l)
  if t.lmode = 2 then cs.foldl (· + ·) 0 else cs.foldl min 1472

/-! ### Checks 1 to 15 (04 R204) -/

/-- LMODE consistent with LANESET (03 R159). -/
def lmodeOk (t : Stitch) : Bool :=
  match t.lmode with
  | 0 => (lanesIn t.lanes).length == 1
  | 1 => t.lanes == 3
  | 2 => 2 ≤ (lanesIn t.lanes).length
  | _ => t.lanes == 7

/-- Rows in which a stitch is present. -/
def inRow (t : Stitch) (r : Nat) : Bool := bitOf t.rows r

/-- Check 7 of one entry. -/
def entryOk (p : Pricking) (t : Stitch) : Bool :=
  decide (t.stop ≤ p.guardAt)
    && (match t.stype with
      | 0 => t.owner == 0
      | 2 => t.owner == 63
      | _ => decide (1 ≤ t.owner ∧ t.owner ≤ p.maxnode))
    && (match t.stype with
      | 1 => t.cls ≤ 2
      | 3 => t.cls == 1
      | _ => t.cls == 0)
    && (if isC0 t then decide (t.use ≤ 2) else t.use == 3)
    && t.lanes != 0 && (lanesIn t.lanes).all (bitOf p.lanes)
    && lmodeOk t && t.rows != 0 && decide (t.rows < 2 ^ rowsOf p.nrow)
    && (t.stype != 1 || (lanesIn t.lanes).all fun l => decide (32 ≤ capOf t.len (fastIn p l)))

/-- Check 8 of an ordered pair on a lane. -/
def pairOk (p : Pricking) (l : Nat) (a b : Stitch) : Bool :=
  b.start < a.start || !(bitOf a.lanes l && bitOf b.lanes l) || (a.rows &&& b.rows) == 0
    || decide (a.stop + (if a.stype = 0 then 0 else hopPu p l * sepOf p a.owner b.owner) ≤ b.start)

/-- Check 8: every ordered pair of two entries. -/
def pairsOk (p : Pricking) : Bool :=
  let ix := p.st.zipIdx
  (lanesIn p.lanes).all fun l => ix.all fun a => ix.all fun b => a.2 == b.2 || pairOk p l a.1 b.1

/-- Check 9. -/
def patFrameOk (p : Pricking) : Bool :=
  match p.st.filter fun t => t.stype == 0 with
  | [t] => t.start == 0 && t.owner == 0 && t.rows == 2 ^ rowsOf p.nrow - 1 && t.lanes == p.lanes
      && (lanesIn p.lanes).all fun l => decide (puOf (248 * byteNs (fastIn p l)) + (p.maxnode - 1) * hopPu p l ≤ t.len)
  | _ => false

/-- Pattern-frame and C0 stitches end 61 hops before a band start (checks 10 and 15). -/
def bandOk (p : Pricking) (start : Nat) : Bool :=
  p.st.all fun t => !(t.stype == 0 || isC0 t) || (lanesIn t.lanes).all fun l => decide (t.stop + 61 * hopPu p l ≤ start)

/-- Check 11. -/
def rangingOk (p : Pricking) : Bool :=
  (lanesIn p.lanes).all fun l =>
    let rs := p.st.zipIdx.filter fun t => t.1.stype == 2 && bitOf t.1.lanes l
    !rs.isEmpty && rs.all fun t =>
      decide (puOf (if fastIn p l then 76000 else 375000) ≤ t.1.len)
        && p.st.zipIdx.all fun o => o.2 == t.2 || !bitOf o.1.lanes l || (o.1.rows &&& t.1.rows) == 0
          || decide (o.1.stop ≤ t.1.start ∨ t.1.stop ≤ o.1.start)

/-- Check 12. -/
def c0Ok (p : Pricking) : Bool :=
  (p.st.all fun t => !isC0 t || t.rows == 2 ^ rowsOf p.nrow - 1)
    && (List.range p.maxnode).all fun k => (List.range 3).all fun u => p.st.any fun t => isC0 t && t.owner == k + 1 && t.use == u

/-- Check 13. -/
def guardOk (p : Pricking) : Bool :=
  decide (p.fwin ≤ p.guardAt) && (lanesIn p.lanes).all fun l =>
    let span := (p.maxnode - 1) * hopPu p l
    let last := ((p.st.filter fun t => bitOf t.lanes l).map Stitch.stop).foldl max 0
    decide (p.guardAt + span + puOf 2000 ≤ rowPu p.nrow) && decide (last + span ≤ p.fwin)

/-- Capacity of node `k`'s stitches that meet `f`, in row `r`. -/
def nodeCap (p : Pricking) (k r : Nat) (f : Stitch → Bool) : Nat :=
  ((p.st.filter fun t => t.stype == 1 && t.owner == k && inRow t r && f t).map (stitchCap (fastIn p))).foldl (· + ·) 0

/-- Check 14. -/
def budgetOk (p : Pricking) : Bool :=
  (List.range p.maxnode).all fun i =>
    let k := i + 1
    match p.bud[i]? with
    | none => false
    | some b =>
      let hoop := fun (c : Nat) => ((List.range (rowsOf p.nrow)).map fun r => nodeCap p k r fun t => t.cls == c).foldl (· + ·) 0
      ((List.range (rowsOf p.nrow)).all fun r =>
        let u := fun (u : Nat) => nodeCap p k r fun t => t.cls == 0 && t.use == u
        decide (b.req ≤ u 0 ∧ b.rsp ≤ u 1 ∧ b.hom ≤ u 2)) && decide (b.c1 ≤ hoop 1 ∧ b.c2 ≤ hoop 2)

/-- The lowest failing check of 1 to 14, 0 when all pass: of a pricking for slot `slot` supplied with length `len`. -/
def checkPrick (bs : List Byte) (slot len : Nat) : Nat :=
  let p := parsePrick bs
  let fast := (lanesIn p.lanes).all (fastIn p)
  if p.magic ≠ 0x5A71 ∨ p.format ≠ 1 ∨ !p.resOk ∨ p.maxnode < 1 ∨ 62 < p.maxnode
      ∨ (List.range 3).any (fun l => bitOf p.speed l && !bitOf p.lanes l) then 1
  else if prickLen bs ≠ len ∨ 8192 < len then 2
  else if p.digest ≠ p.crc then 3
  else if p.patno ≠ slot then 4
  else if 2 < p.nrow ∨ (!fast ∧ p.nrow ≠ 0) then 5
  else if p.nstitch < 1 ∨ 512 < p.nstitch
      ∨ (List.range (rowsOf p.nrow)).any (fun r => decide (256 < (p.st.filter fun t => inRow t r).length)) then 6
  else if !p.st.all (entryOk p) then 7
  else if !pairsOk p then 8
  else if !patFrameOk p then 9
  else if !bandOk p (bandStart p.nrow fast) then 10
  else if !rangingOk p then 11
  else if !c0Ok p then 12
  else if !guardOk p then 13
  else if !budgetOk p then 14
  else 0

/-- LAN_CTRL.SPEED of a lane: 1000 Mb/s. -/
def laneFast (s : State) (l : Nat) : Bool := lanBit s l 1

/-- LAN_CTRL.EN of a lane. -/
def laneEn (s : State) (l : Nat) : Bool := lanBit s l 0

/-- The band speed is 1000 Mb/s (04 R209). -/
def bandFast (s : State) : Bool := (List.range 3).all fun l => !laneEn s l || laneFast s l

/-- Check 15. -/
def check15 (s : State) (p : Pricking) : Bool :=
  ((lanesIn p.lanes).all fun l => laneFast s l == fastIn p l)
    && (bandFast s || (p.nrow == 0 && bandOk p (bandStart p.nrow false)))

/-! ### Slots and the pattern in force -/

/-- Bytes of a pricking slot: pages 32 + 32s to 63 + 32s (08 R412). -/
def slotBytes (s : State) (i : Nat) : List Byte := memGets s.kee.mem (0x100 * (32 + 32 * i)) 8192

/-- The pricking of a slot, when it is valid. -/
def slotPrick (s : State) (i : Nat) : Option Pricking :=
  match s.pat.slots[i]? with
  | some v => if v.valid then some (parsePrick (slotBytes s i)) else none
  | none => none

/-- The pattern in force, or the base of pattern I. -/
def basePrick (s : State) : Option Pricking :=
  if s.pat.cur < 4 then slotPrick s s.pat.cur else if s.pat.baseV then slotPrick s s.pat.base else none

/-- NROW code in force (04 R210). -/
def nrowCode (s : State) : Nat :=
  match basePrick s with
  | some p => p.nrow
  | none => s.pat.nrowI

/-- Rows per hoop now. -/
def nRow (s : State) : Nat := rowsOf (nrowCode s)

/-- Digest of the pattern in force (04 R211). -/
def patDigest (s : State) : Nat :=
  match basePrick s with
  | some p => p.digest
  | none => 0

/-- The budget entry of the own node number in the pattern in force (04 R212). -/
def ownBudget (s : State) : Option Budget :=
  match basePrick s with
  | some p => if s.trn.node = 0 then none else p.bud[s.trn.node - 1]?
  | none => none

/-- Lanes that are enabled. -/
def enLanes (s : State) : Nat := (lanesIn 7).foldl (fun a l => a + flagAt (laneEn s l) l) 0

/-- Stitches of a row of a pricking, numbered as 03 R725 states. -/
def prickRow (p : Pricking) (r : Nat) : List (Nat × Stitch) := ((p.st.filter fun t => inRow t r).zipIdx).map fun e => (e.2, e.1)

/-- The band layout of pattern I (04 R210): the ranging stitch, and the control stitches of nodes 1 to 62. The model numbers a control
stitch 256 + k and the ranging stitch 512, as their 03 R725 numbers are not unique in the row (log 43). -/
def bandRow (s : State) : List (Nat × Stitch) :=
  let fast := bandFast s
  let at0 := bandStart (nrowCode s) fast
  let off := if fast then 0x015000 else 0x068000
  let step := if fast then 0x0A00 else 0x4600
  (512, { start := at0, owner := 63, len := off, stype := 2, cls := 0, lmode := 0, use := 3, lanes := enLanes s, rows := 0xFFFF })
    :: (List.range 62).map fun i => (257 + i, { start := at0 + off + i * step, owner := i + 1, len := if fast then 0x0480 else 0x2C80
                                                stype := 4, cls := 0, lmode := 1, use := 3, lanes := 3, rows := 0xFFFF })

/-- The stitches of the present row. -/
def rowStitches (s : State) : List (Nat × Stitch) :=
  if s.pat.cur < 4 then
    match basePrick s with
    | some p => prickRow p s.tm.row
    | none => []
  else
    match basePrick s with
    | some p => ((prickRow p s.tm.row).filter fun e => e.2.stype == 0 || isC0 e.2) ++ bandRow s
    | none => (0, { start := 0, owner := 0, len := if bandFast s then 0x016000 else 0x066000, stype := 0, cls := 0, lmode := 0, use := 3
                    lanes := enLanes s, rows := 0xFFFF }) :: bandRow s

/-- A stitch of the present row by its number. -/
def stitchAt (s : State) (i : Nat) : Option Stitch := ((rowStitches s).find? fun e => e.1 == i).map (·.2)

/-- Q0: the trackers kept for C0 requests (06 R312). -/
def q0Of (s : State) : Nat :=
  match basePrick s with
  | some p => min 832 (3 * (p.bud.map (·.req)).foldl (· + ·) 0 / 16)
  | none => 0

/-! ### Accounts and admission (04 R212, R213, R215; 06 R291, R318; 08 R386) -/

/-- The region is a C0 PUBLISH region in force and homed here. -/
def c0Pub (s : State) (r : Region) : Bool := r.cls == .c0 && !r.claim && homedHere s r.base

/-- The C0 home-originated account (04 R212). -/
def accountPub (s : State) : Nat := (s.home.regions.map fun e => if c0Pub s e.2 then 80 * e.2.count else 0).foldl (· + ·) 0

/-- The C0 CLAIM reserve (06 R291). -/
def reserveClaim (s : State) : Nat :=
  (s.home.regions.map fun e => if e.2.cls == .c0 && e.2.claim && homedHere s e.2.base then 80 * e.2.count else 0).foldl (· + ·) 0

/-- Line addresses of a region. -/
def regionLas (r : Region) : List Nat := (List.range r.count).map (r.base + ·)

/-- Anchored entries of a filter set. -/
def anchoredIn (s : State) (set : Nat) : Nat := ((fSet s set).filter fun e => e.2.anchor).length

/-- A region at C0 fits a C0_HOM of `hom` (none: no limit), beside what is in use. -/
def c0Fits (s : State) (hom : Option Nat) (r : Region) : Bool :=
  if homedHere s r.base then
    (match hom with
      | some h => decide (accountPub s + reserveClaim s + 80 * r.count ≤ h)
      | none => true)
    && (r.claim || (regionLas r).all fun a =>
        let set := xOf a % 1024
        let add := ((regionLas r).filter fun b => xOf b % 1024 == set && !((fEntry s b).any (·.anchor))).length
        decide (anchoredIn s set + add ≤ 6))
  else !r.pin || pinsFit s (regionLas r)

/-- C0_HOM of the own budget entry. -/
def homBudget (s : State) : Option Nat := (ownBudget s).map (·.hom)

/-- Lines of the region whose entries would lie in a set and have none. -/
def unanchored (s : State) (r : Region) (set : Nat) : Nat :=
  (((List.range 16).map fun i => laOf s.kee.hk (set + 1024 * i)).filter fun a =>
    decide (r.base ≤ a ∧ a < r.base + r.count) && (fEntry s a).isNone).length

/-- One line's entry is anchored, at most 6 of a set; where its set is full a victim is recalled, and it waits (06 R318, R319). -/
def anchorLine (r : Region) (s : State) (a : Nat) : State :=
  let set := xOf a % 1024
  if (fEntry s a).any (·.anchor) ∨ 6 ≤ anchoredIn s set then s
  else
    let s := if hasWay s a then s else recallFor set (wayWaiters s set 1024 + unanchored s r set) s
    if hasWay s a then
      match fEntry s a with
      | some e => setEntry a (some { e with anchor := true, st := .pub }) s
      | none => setEntry a (some { st := .pub, anchor := true, seq := s.home.fseq }) { s with home := { s.home with fseq := s.home.fseq + 1 } }
    else s

/-- The anchored entries of a homed C0 PUBLISH region are allocated, victims being recalled where a set is full (06 R318, 10 R521). -/
def anchorRegion (r : Region) (s : State) : State := each (regionLas r) (anchorLine r) s

/-- Every line of the region has its anchored entry. -/
def anchoredAll (s : State) (r : Region) : Bool := (regionLas r).all fun a => (fEntry s a).any (·.anchor)

/-- Homed C0 PUBLISH regions whose lines are not all anchored yet go on allocating: after SET_ATTR, a promotion, a role's arrival (06 R318;
DEDUCED: row by row, log 135). -/
def anchorRest (s : State) : State :=
  each s.home.regions (fun s e => if c0Pub s e.2 && !anchoredAll s e.2 then anchorRegion e.2 s else s) s

/-- Anchored entries released (06 R318): one without subscribers leaves the filter. -/
def releaseAnchors (r : Region) (s : State) : State :=
  each (regionLas r) (fun s a => match fEntry s a with
    | some e => if e.anchor then (if e.vec = 0 then setEntry a none s else setEntry a (some { e with anchor := false }) s) else s
    | none => s) s

/-- The pins of a region reserved (08 R386). -/
def pinRegion (i : Nat) (r : Region) (s : State) : State :=
  { s with cc := { s.cc with pins := (s.cc.pins.filter fun p => !(regionLas r).contains p.la) ++ (regionLas r).map fun a => { la := a, rgn := some i } } }

/-- The pins of region `i` released. -/
def unpinRegion (i : Nat) (s : State) : State := { s with cc := { s.cc with pins := s.cc.pins.filter fun p => p.rgn != some i } }

/-- Region `i` set. -/
def setRegion (i : Nat) (r : Region) (s : State) : State := { s with home := { s.home with regions := tset s.home.regions i r } }

/-- A region demoted to C1 (04 R215): its anchors and pins are released, and the steward is told. -/
def demote (i : Nat) (r : Region) (s : State) : State :=
  let s := if c0Pub s r then releaseAnchors r s else s
  raise 138 (detN i 0) (unpinRegion i (setRegion i { r with cls := .c1, demPat := true } s))

/-- A region promoted back to C0 (04 R215). -/
def promote (i : Nat) (r : Region) (s : State) : State :=
  let r := { r with cls := .c0, demPat := false }
  let s := setRegion i r s
  let s := if c0Pub s r then anchorRegion r s else if r.pin && !homedHere s r.base then pinRegion i r s else s
  raise 139 (detN i 0) s

/-- The C0 regions checked against the budget in force, in descending index (04 R215). -/
def fitDown (l : List (Nat × Region)) (s : State) : State :=
  each l.reverse (fun s e =>
    match homBudget s with
    | some h => if e.2.cls == .c0 && homedHere s e.2.base && decide (h < accountPub s + reserveClaim s) then demote e.1 e.2 s else s
    | none => s) s

/-- Regions an earlier check demoted, promoted in ascending index while they fit (04 R215). -/
def fitUp (l : List (Nat × Region)) (s : State) : State :=
  each l (fun s e => if e.2.demPat && c0Fits s (homBudget s) { e.2 with cls := .c0 } then promote e.1 e.2 s else s) s

/-- The check of every pattern switch and every Cut (04 R215, 06 R312). -/
def refitRegions (s : State) : State :=
  let s := fitUp s.home.regions (fitDown s.home.regions s)
  { s with home := { s.home with q0 := q0Of s } }

/-- Regions demoted under 04 R215, for PAT_DEMOTED. -/
def demotedCount (s : State) : Nat := (s.home.regions.filter fun e => e.2.demPat).length

end Sys2Proof.Machine
end

