-- ==== Sys2Proof/Machine/Regions.lean ====
section
/-! DEFINITION. The region commands 20h–22h and 25h (06 R285–R291, 10 R520–R528, R722). -/

namespace Sys2Proof.Machine

/-- A command that is no line command completes with success (10 R497, R501). -/
def jobDone (b res0 res1 : Nat) (out : Option (List Byte)) (s : State) : State :=
  match bobOf s b with
  | none => s
  | some v => complete b { status := okStatus v.replayed v.demoted v.clamped false, res0 := res0, res1 := res1, out := out } s

/-- A command ends with a status that is not a success. -/
def jobFail (b status : Nat) (s : State) : State := complete b { status := status } s

/-- The bobbin holds a job with opcode `op` that its row may perform now. -/
def readyJob (s : State) (b op : Nat) : Option Bobbin :=
  match bobOf s b with
  | none => none
  | some v => if v.job.op = op ∧ mayRun s v ∧ !v.absorb then some v else none

/-- The sequencer serves commands: not in OFF, START, SHUTDOWN or SAFE (10 R558). -/
def serving (s : State) : Bool :=
  match s.dev.st with
  | .standby | .acquire | .run | .inaug => true
  | _ => false

/-! ### The region table (06 R285, R286, R345) -/

/-- Two line ranges overlap. -/
def overlaps (a n b m : Nat) : Bool := decide (a < b + m ∧ b < a + n)

/-- A region overlaps none of the table. -/
def regionFree (s : State) (base count : Nat) : Bool := s.home.regions.all fun e => !overlaps base count e.2.base e.2.count

/-- The lowest free region index. -/
def freeRegion (s : State) : Option Nat := (List.range 512).find? fun i => (tget s.home.regions i).isNone

/-- The region of a MAP_REGION (10 R520), before admission. -/
def mapRegionOf (j : Job) : Region :=
  let f := argB j 2
  let c := clsOf (bitsOf f 1 2)
  { base := j.la, count := max 1 (min 8192 (argN j 0 2)), claim := bitOf f 0, cls := c, clsReq := c, persist := bitOf f 3
    canb := bitOf f 6, rrd := bitOf f 4, rwr := bitOf f 5, agelim := argB j 3, trd := BitVec.ofNat 8 (argB j 4)
    twr := BitVec.ofNat 8 (argB j 5), pin := bitOf f 7 }

/-- Admission of a region whose own account and pins are not in the state: admitted, or demoted, or refused (04 R213, 06 R291,
08 R386, 10 R522). -/
def admitRegion (s : State) (r : Region) : Option (Region × Bool) :=
  if r.clsReq = .c0 then
    if c0Fits s (homBudget s) r then some ({ r with cls := .c0, demMap := false, demPat := false }, false)
    else some ({ r with cls := .c1, demMap := true, demPat := false }, true)
  else
    let r := { r with cls := r.clsReq, demMap := false, demPat := false }
    if r.pin && !homedHere s r.base && !pinsFit s (regionLas r) then none else some (r, false)

/-- An admitted region's pins. -/
def pinAdmitted (i : Nat) (r : Region) (s : State) : State :=
  if r.pin && !homedHere s r.base && !r.demMap then pinRegion i r s else s

/-- MAP_REGION (10 R521, R522): it completes when the anchored entries are in place; until then its row is performed again. -/
def mapJob (b : Nat) (s : State) : State :=
  match bobOf s b with
  | none => s
  | some v =>
    let r := mapRegionOf v.job
    if v.job.op ≠ 0x20 ∨ v.absorb ∨ !(mayRun s v ∨ v.wait = .drain) ∨ !serving s then s
    else if !regionFree s r.base r.count then jobFail b stBadParam s
    else match freeRegion s, admitRegion s r with
      | some i, some (r, dem) =>
        let s := if r.cls = .c0 ∧ !r.claim ∧ homedHere s r.base then anchorRegion r s else s
        if r.cls = .c0 ∧ !r.claim ∧ homedHere s r.base ∧ !anchoredAll s r then waitAs b .drain s
        else
          let s := modBob b (fun v => { v with demoted := dem }) (pinAdmitted i r (setRegion i r s))
          jobDone b (i + 512 * clsIx r.cls) 0 none s
      | _, _ => jobFail b stCapacity s

/-! ### UNMAP_REGION (10 R523, R524, R722) -/

/-- A binding removed: its resource and its interest in a subscription are given back, and BIND_REMOVED is raised (11 R595). -/
def dropBind (i : Nat) (s : State) : State :=
  match tget s.can.binds i with
  | none => s
  | some e =>
    let s := raise (256 + 32 * e.port + 14) (detN i 0) (releaseBind i s)
    if s.can.binds.any fun x => x.2.tx && x.2.la == e.la then s else delSub e.la 8 s

/-- The region-table part, at the command's acceptance (10 R524): the region leaves the table, its anchors and pins are released, and
its bindings are removed. -/
def unmapAccept (b : Nat) (s : State) : State :=
  match bobOf s b with
  | none => s
  | some v => match regionAt s v.job.la with
    | none => s
    | some (i, r) =>
      let s := setBob b { v with rgn := some r, par := i, cls := r.cls } s
      let s := { s with home := { s.home with regions := tdel s.home.regions i } }
      let s := unpinRegion i (releaseAnchors r s)
      each (s.can.binds.filter fun e => r.base ≤ e.2.la && e.2.la < r.base + r.count) (fun s e => dropBind e.1 s) s

/-- One line of a homed region: its copies are removed as by a victim recall, on a reserved tracker (10 R523). -/
def unmapHomeLine (b la : Nat) (s : State) : State :=
  match fEntry s la with
  | none => s
  | some e =>
    if e.vec = 0 then (if hasFifo s la then s else setEntry la none s)
    else if hasFifo s la then s
    else (ownProbe la (.unmap b) (e.st == .ex) false true e.vec s).1

/-- One copy of a remote region: flushed as FLUSH does, or unsubscribed (10 R523); at a LISTEN-ONLY node an M copy stays (R722). -/
def unmapCopy (la : Nat) (s : State) : State :=
  match copyOf s la with
  | none => s
  | some e => match e.2.st with
    | .s | .e =>
      match freeIntern s with
      | some k =>
        let r := sendOwn 0 0x10 la .c1 { typ := .evictClean } s
        if r.2 then setCopy e.1 { e.2 with st := .ci, back := e.2.st, bob := some k, again := none } r.1 else s
      | none => s
    | .m => if s.trn.memb = .listenOnly then s else evictM e.1 e.2 false s
    | .p => if (freeIntern s).isSome then evictP e.1 e.2 s else s
    | _ => s

/-- Nothing of the region is left to remove. -/
def unmapEmpty (s : State) (b : Nat) (r : Region) : Bool :=
  let inR := fun la => decide (r.base ≤ la ∧ la < r.base + r.count)
  if homedHere s r.base then
    (s.home.filter.all fun e => !inR (laOf s.kee.hk e.1) || e.2.vec == 0) && (s.home.trks.all fun t => t.purpose != .unmap b)
  else
    (s.cc.ways.all fun e => !inR e.2.la || e.2.held.isSome || e.2.st == .i || (s.trn.memb == .listenOnly && e.2.st == .m))
      && (s.ten.bobs.all fun e => e.2.kind != .intern || !inR e.2.job.la) && (s.ten.owed.all fun o => !inR o.la)

/-- UNMAP_REGION's lane parts, by device and membership state; performed again until the last has ended (10 R722). -/
def unmapJob (b : Nat) (s : State) : State :=
  match bobOf s b with
  | none => s
  | some v =>
    if v.job.op ≠ 0x21 ∨ v.absorb ∨ !(mayRun s v ∨ v.wait = .drain) ∨ !serving s then s
    else match v.rgn with
      | none => jobFail b stNotMapped s
      | some r =>
        let done := jobDone b v.par 0 none
        match s.dev.st with
        | .standby | .acquire => done s
        | .run =>
          if s.trn.memb = .isolated then done s
          else
            let s := if homedHere s r.base then each (regionLas r) (fun s a => unmapHomeLine b a s) s
              else each (regionLas r) (fun s a => unmapCopy a s) s
            if unmapEmpty s b r then jobDone b v.par 0 none s else waitAs b .drain s
        | _ => if unmapEmpty s b r then done s else waitAs b .drain s

/-! ### SET_ATTR (10 R525–R527) -/

/-- The fields that MASK selects, changed (10 R525). -/
def attrChange (j : Job) (r : Region) : Region :=
  let m := argB j 0
  let f := argB j 1
  let r := if bitOf m 0 then { r with clsReq := clsOf (bitsOf f 1 2) } else r
  let r := if bitOf m 1 then { r with pin := bitOf f 7 } else r
  let r := if bitOf m 2 then { r with rrd := bitOf f 4, rwr := bitOf f 5 } else r
  let r := if bitOf m 3 then { r with canb := bitOf f 6 } else r
  let r := if bitOf m 4 then { r with agelim := argB j 2 } else r
  if bitOf m 5 then { r with trd := BitVec.ofNat 8 (argB j 3), twr := BitVec.ofNat 8 (argB j 4) } else r

/-- SET_ATTR waits for the commit (10 R526). -/
def setAttrJob (b : Nat) (s : State) : State :=
  match readyJob s b 0x22 with
  | none => s
  | some _ =>
    if !serving s then s
    else waitAs b .commit { s with home := { s.home with attrWait := s.home.attrWait ++ [b] } }

/-- SET_ATTR at the commit (10 R526): a change of CLASS or PIN is admitted as by MAP_REGION. -/
def setAttrCommit (b : Nat) (s : State) : State :=
  match bobOf s b with
  | none => s
  | some v => match regionAt s v.job.la with
    | none => jobFail b stNotMapped s
    | some (i, old) =>
      let new := attrChange v.job old
      let m := argB v.job 0
      if !(bitOf m 0 || bitOf m 1) then jobDone b 0 0 none (setRegion i new s)
      else
        let bare := unpinRegion i { s with home := { s.home with regions := tdel s.home.regions i } }
        match admitRegion bare new with
        | none => jobFail b stCapacity s
        | some (r, dem) =>
          let anchoredNow := c0Pub s old
          let s := setRegion i r bare
          let s := if r.cls = .c0 ∧ !r.claim ∧ homedHere s r.base then anchorRegion r s
            else if anchoredNow then releaseAnchors old s else s
          jobDone b 0 0 none (modBob b (fun v => { v with demoted := dem }) (pinAdmitted i r s))

/-! ### QUERY_REGION (10 R528) and COH_RGN_DATA (06 R345) -/

/-- Pin reservations that region `i` holds now. -/
def regionPinCount (s : State) (i : Nat) : Nat := (s.cc.pins.filter fun p => p.rgn == some i && !p.demoted).length

/-- The images COH_RGN_DATA0–3 of a region. -/
def regionImage (s : State) (i : Nat) : List Nat :=
  match tget s.home.regions i with
  | none => [0, 0, 0, 0]
  | some r =>
    [ r.base + 2 ^ 24 + flagAt (homedHere s r.base) 25 + flagAt r.demMap 26 + flagAt r.demPat 27,
      r.count + flagAt r.claim 14 + 2 ^ 15 * clsIx r.cls + 2 ^ 17 * clsIx r.clsReq + flagAt r.persist 19 + flagAt r.canb 20
        + flagAt r.rrd 21 + flagAt r.rwr 22 + 2 ^ 24 * r.agelim,
      r.trd.toNat + 256 * r.twr.toNat + flagAt r.pin 16,
      regionPinCount s i ]

/-- QUERY_REGION. -/
def queryRegionJob (b : Nat) (s : State) : State :=
  match readyJob s b 0x25 with
  | none => s
  | some v =>
    if !serving s then s
    else match regionAt s v.job.la with
      | none => jobFail b stNotMapped s
      | some (i, _) => jobDone b i 0 (some ((regionImage s i).flatMap (leBytes 4))) s

end Sys2Proof.Machine
end

