-- ==== Sys2Proof/Machine/Bind.lean ====
section
/-! DEFINITION. Line bindings: BIND_CAN and UNBIND_CAN, the writes of receive bindings, the frames of transmit bindings
(10 R529–R531; 11 R580–R589). -/

namespace Sys2Proof.Machine

/-! ### BIND_CAN (10 R529, R530; 11 R580) -/

/-- The binding that a BIND_CAN argument describes, without its resource (10 R529). -/
def bindOf (j : Job) : Bind :=
  let f := argB j 0
  { la := j.la, port := bitsOf f 0 1, tx := bitOf f 1, ide := bitOf f 2, fd := bitOf f 3, brs := bitOf f 4 && bitOf f 3
    id := bitsOf (argN j 4 4) 0 29, off := argB j 8, len := argB j 9, ten := j.ten, obj := 0 }

/-- The lowest binding index that is free. -/
def freeBind (s : State) : Option Nat := (List.range 256).find? fun i => (tget s.can.binds i).isNone

/-- Receive bindings that may share a resource with `e`. -/
def shareOf (s : State) (e : Bind) : List (Nat × Bind) :=
  (portBinds s e.port).filter fun x => !x.2.tx && !e.tx && x.2.ide == e.ide && x.2.id == e.id && x.2.fd == e.fd

/-- The object or pair of a new binding, and the objects or pairs it takes from the pool (11 R580): the highest free one of the pool
(DESIGN CHOICE, log 45); none where the port lacks it. -/
def bindResource (s : State) (e : Bind) : Option (Nat × List Nat) :=
  let used := (portOf s e.port).pool
  match shareOf s e with
  | x :: xs => if 7 ≤ xs.length then none else some (x.2.obj, [])
  | [] =>
    if queueMode s e.port then
      if e.tx then (if rbit s (cbpBase e.port + 8) 17 then some (0, []) else none)
      else (((List.range 32).reverse.find? fun j => decide (pairBase s e.port ≤ j) && !used.contains j)).map fun j => (j, [j])
    else
      let free := fun (k : Nat) => decide (poolBase s e.port ≤ k) && !used.contains k
      if e.tx && decide (32 < e.len) then
        ((List.range 127).reverse.find? fun k => k % 2 == 0 && free k && free (k + 1)).map fun k => (k, [k, k + 1])
      else ((List.range 128).reverse.find? free).map fun k => (k, [k])

/-- The resource set up for a binding (11 R573, R580). -/
def bindSetup (e : Bind) (taken : List Nat) (s : State) : State :=
  let p := e.port
  let s := modPort p (fun c => { c with pool := taken ++ c.pool }) s
  if queueMode s p then
    if e.tx || taken.isEmpty then s
    else regSet (cbpBase p + 0x204 + 8 * e.obj) (2 ^ 29 - 1 + 2 ^ 29)
      (regSet (cbpBase p + 0x200 + 8 * e.obj) (e.id + flagAt e.ide 29 + flagAt e.fd 30 + 2 ^ 31) s)
  else if taken.isEmpty then s
  else
    let ctl := flagAt e.fd 4 + flagAt e.brs 5 + (if e.tx then 2 else 1) * 256 + flagAt (decide (2 ≤ taken.length)) 11 + 2 ^ 13
    let s := modPort p (fun c => { c with
      mem := memPuts c.mem (64 * e.obj) (leBytes 4 (e.id + flagAt e.ide 29) ++ leBytes 4 ctl ++ leBytes 4 0)
      txpend := c.txpend &&& ~~~(BitVec.ofNat 128 (2 ^ e.obj)) }) s
    { s with reg := s.reg.put (cbpBase p + 0x200 + 4 * e.obj) (2 ^ 29 - 1 + 2 ^ 29) }

/-- BIND_CAN (10 R530): the binding is made; one that sends updates of a remote line waits for its subscription. -/
def bindCanJob (b : Nat) (s : State) : State :=
  match readyJob s b 0x23 with
  | none => s
  | some v =>
    let e := bindOf v.job
    let claim : Bool := (regionAt s e.la).any fun r => r.2.claim
    if !serving s then s
    else if e.tx ∧ !homedHere s e.la ∧ claim then jobFail b stBadParam s
    else match freeBind s, bindResource s e with
      | some i, some (o, taken) =>
        let remote := e.tx && !homedHere s e.la
        let e := { e with obj := o, sub := !remote }
        let s := ungate <| bindSetup e taken { s with can := { s.can with binds := tset s.can.binds i e } }
        if remote then bindSubStart i e (modBob b (fun v => { v with wait := .answer, par := i }) s)
        else jobDone b i 0 none s
      | _, _ => jobFail b stCapacity s

/-- BIND_CAN. -/
def execBindCan (b : Nat) (s : State) : Host.Outcome State Fault Refusal := .next (bindCanJob b s)

/-- UNBIND_CAN (10 R531). -/
def unbindCanJob (b : Nat) (s : State) : State :=
  match readyJob s b 0x24 with
  | none => s
  | some v =>
    let i := argN v.job 0 2
    if !serving s then s
    else match tget s.can.binds i with
      | none => jobFail b stBadParam s
      | some e =>
        if v.job.ten ≠ e.ten ∧ v.job.ten ≠ 0 then jobFail b stDenied s
        else
          let held := (subsOf s e.la).contains 8
          let s := dropBind i s
          let s := match copyOf s e.la with
            | some c =>
              if e.tx && held && (subsOf s e.la).isEmpty && c.2.st == .p then
                dropWay c.1 (sendOwed e.ten 0x0E e.la .c1 { typ := .unsubReq } s)
              else s
            | none => s
          jobDone b 0 0 none s

/-- UNBIND_CAN. -/
def execUnbindCan (b : Nat) (s : State) : Host.Outcome State Fault Refusal := .next (unbindCanJob b s)

/-! ### Receive bindings (11 R581–R586) -/

/-- The frame that waits for binding `i`'s write. -/
def waitingFrame (s : State) (i : Nat) (e : Bind) : Option CanRx :=
  if queueMode s e.port then ((portOf s e.port).bfifo.find? fun x => x.1 == i).map (·.2) else e.wait

/-- The frame of binding `i` is waiting no more. -/
def dropWaiting (i : Nat) (e : Bind) (s : State) : State :=
  let s := modPort e.port (fun c => { c with bfifo := c.bfifo.filter fun x => x.1 != i }) s
  { s with can := { s.can with binds := tmod s.can.binds i fun b => { b with wait := none } } }

/-- An earlier binding write to the same line from the same port stands in the way: outstanding, or of a frame received earlier
(11 R584). -/
def bindBlocked (s : State) (i : Nat) (e : Bind) (x : CanRx) : Bool :=
  (s.ten.bobs.any fun w => w.2.job.la == e.la && w.2.job.tag == e.port && (match w.2.kind with
    | .bindWrite _ => true
    | _ => false))
  || (portBinds s e.port).any fun o => o.1 != i && !o.2.tx && o.2.la == e.la &&
      (waitingFrame s o.1 o.2).any fun y => newer x.tsc y.tsc

/-- The masked write of a frame (11 R582), as a WRITE_MASKED argument: mask, then data. -/
def bindArg (e : Bind) (f : CanFrame) : List Byte :=
  let n := min e.len f.data.length
  leBytes 8 ((2 ^ n - 1) * 2 ^ e.off) ++ slice (List.replicate e.off 0 ++ f.data.take n) 0 64

/-- A permission of the region that covers a line, for a tenant (06 R287). -/
def tenMay (s : State) (la ten : Nat) (write : Bool) : Bool :=
  (regionAt s la).any fun r => (if write then r.2.twr else r.2.trd).getLsbD ten

/-- BIND_RX_WRITE (11 R582, R584, R585): the write is accepted on an internal bobbin and performed as WRITE_MASKED. -/
def execBindRxWrite (i : Nat) (s : State) : Host.Outcome State Fault Refusal :=
  .next (match tget s.can.binds i with
    | none => s
    | some e => match waitingFrame s i e with
      | none => s
      | some x =>
        if e.tx || bindBlocked s i e x then s
        else if !tenMay s e.la e.ten true then portEvent e.port 13 i 0 (portCount e.port 7 (dropWaiting i e s))
        else match portBob s e.port with
          | none => s
          | some b =>
            let job : Job := { ten := e.ten, op := 5, tag := e.port, la := e.la, alen := 72, arg := bindArg e x.f }
            writeJob 5 b (acceptBob b (lineBobbin s (.bindWrite i) job) (dropWaiting i e s)))

/-! ### Transmit bindings (11 R585, R587, R588) -/

/-- The bytes and version of a bound line now. -/
def boundLine (s : State) (la : Nat) : Option (Line × Word) :=
  if homedHere s la then some ((homeLine s la).data, (homeLine s la).version)
  else match copyOf s la with
    | some c => if c.2.st == .p then some (c.2.data, c.2.version) else none
    | none => none

/-- The place of a binding's frame is free (11 R588). -/
def txFree (s : State) (e : Bind) : Bool :=
  if queueMode s e.port then (portOf s e.port).qtx.getD 2 0 != 1 && rbit s (cbpBase e.port + 8) 17
  else !(portOf s e.port).txpend.getLsbD e.obj

/-- The frame of a binding with a line's bytes (11 R588). -/
def boundFrame (s : State) (e : Bind) (l : Line) : CanFrame :=
  let d := dlcFor e.len
  { id := e.id, ide := e.ide, fdf := e.fd, brs := e.brs, dlc := d
    data := lineGet l e.off e.len ++ List.replicate (dlcLen e.fd d - e.len) (BitVec.ofNat 8 (rfld s (cbpBase e.port + 8) 24 8)) }

/-- The pending binding that is loaded next: the lowest identifier under TXPRIO 0 in queue mode, else the lowest index. -/
def nextLoad (s : State) (p : Nat) : Option (Nat × Bind) :=
  let l := (portBinds s p).filter fun e => e.2.tx && e.2.pend && e.2.sub && txFree s e.2
  if queueMode s p && !rbit s (cbpBase p + 8) 1 then
    l.foldl (fun a e => match a with
      | none => some e
      | some o => if idKey { id := e.2.id, ide := e.2.ide } < idKey { id := o.2.id, ide := o.2.ide } then some e else some o) none
  else l.head?

/-- A frame loaded into the binding's object or into buffer 2, and its transmission requested. -/
def loadFrame (i : Nat) (e : Bind) (f : CanFrame) (s : State) : State :=
  let p := e.port
  if queueMode s p then
    let s := modPort p (fun c => { c with
      mem := memPuts (memPuts c.mem 0xA0 (leBytes 4 (idWord f) ++ leBytes 4 (dlcWord f))) 0xB0 (slice f.data 0 64), qbind := some i }) s
    modPort p (fun c => { c with qtx := c.qtx.set 2 1 }) s
  else
    let s := modPort p (fun c => { c with
      mem := memPuts (memPuts c.mem (64 * e.obj + 4) (leBytes 4 (putBits (memWord c.mem (64 * e.obj + 4)) 0 7 (dlcWord f))))
        (64 * e.obj + 20) f.data }) s
    objFlag p e.obj 3 true s

/-- BIND_TX_LOAD (11 R585, R588, R589): one pending binding's frame is loaded; lost subscriptions that found no bobbin try again. -/
def execBindTxLoad (port : Nat) (s : State) : Host.Outcome State Fault Refusal :=
  let s := each ((portBinds s port).filter fun e => e.2.tx && !e.2.sub) (fun s e => bindSubStart e.1 e.2 s) s
  .next (if !maySend s port then s
    else match nextLoad s port with
      | none => s
      | some (i, e) => match boundLine s e.la with
        | none => s
        | some (l, ver) =>
          let s := { s with can := { s.can with binds := tset s.can.binds i { e with pend := false } } }
          if !tenMay s e.la e.ten false then portEvent port 13 i 0 (portCount port 7 s)
          else
            let s := { s with can := { s.can with binds := tset s.can.binds i { e with pend := false, ver := ver } } }
            arbitrate port (loadFrame i e (boundFrame s e l) s))

end Sys2Proof.Machine
end

