-- ==== Sys2Proof/Machine/Codec.lean ====
section
/-! DEFINITION. The bytes of messages and frames: writing them and reading them (03 R135–R146, R171, R173, R720; 02 R83, R84;
04 R216; 05 R236, R240, R248). -/

namespace Sys2Proof.Machine

/-! ### Codes -/

/-- TYPE of a line message (03 R140). -/
def typCode : MsgType → Nat
  | .rdShared => 0x01
  | .rdOwn => 0x02
  | .ownNodata => 0x03
  | .wrPublish => 0x04
  | .wrMasked => 0x05
  | .atomicReq => 0x06
  | .lockReq => 0x07
  | .unlockReq => 0x08
  | .subReq => 0x09
  | .unsubReq => 0x0A
  | .writeback => 0x0B
  | .evictClean => 0x0C
  | .readHome => 0x0D
  | .dataShared => 0x11
  | .dataOwn => 0x12
  | .grantOwn => 0x13
  | .update => 0x14
  | .invalidate => 0x15
  | .recall => 0x16
  | .ack => 0x17
  | .nakRetry => 0x18
  | .atomicResult => 0x19
  | .leaseGrant => 0x1A
  | .leaseBreak => 0x1B
  | .invAck => 0x21
  | .recallData => 0x22
  | .recallNodata => 0x23
  | .migLine => 0x31
  | .migDir => 0x32
  | .migDone => 0x33

/-- Every line message type. -/
def allTypes : List MsgType :=
  [.rdShared, .rdOwn, .ownNodata, .wrPublish, .wrMasked, .atomicReq, .lockReq, .unlockReq, .subReq, .unsubReq, .writeback,
   .evictClean, .readHome, .dataShared, .dataOwn, .grantOwn, .update, .invalidate, .recall, .ack, .nakRetry, .atomicResult,
   .leaseGrant, .leaseBreak, .invAck, .recallData, .recallNodata, .migLine, .migDir, .migDone]

/-- The line message type with a code. -/
def typOf (c : Nat) : Option MsgType := allTypes.find? fun t => typCode t == c

/-- Data bytes of a type: none, or 64 (03 R141). -/
def hasData : MsgType → Bool
  | .wrPublish | .wrMasked | .atomicReq | .writeback | .dataShared | .dataOwn | .update | .atomicResult | .recallData | .migLine
  | .migDir => true
  | _ => false

/-- Length of a line message (03 R141). -/
def typLen (t : MsgType) : Nat := 16 + (if t = .wrMasked then 8 else 0) + (if hasData t then 64 else 0)

/-- Class number. -/
def clsCode : Cls → Nat
  | .c0 => 0
  | .c1 => 1
  | .c2 => 2

/-- Class of a number; none for 3. -/
def clsRead : Nat → Option Cls
  | 0 => some .c0
  | 1 => some .c1
  | 2 => some .c2
  | _ => none

/-! ### Line messages (03 R142) -/

/-- The 16-byte header. -/
def lineHeader (m : LineMsg) : List Byte :=
  leBytes 1 (typCode m.typ + 64 * clsCode m.cls) ++ leBytes 1 (m.dst % 64 + flagAt m.elder 6 + flagAt m.replay 7)
    ++ leBytes 2 (m.trk % 1024 + 1024 * (m.ten % 8) + 8192 * m.flg.toNat) ++ leBytes 3 m.la ++ leBytes 1 m.age
    ++ leBytes 4 m.version.toNat ++ leBytes 4 m.param.toNat

/-- The bytes of a line message. -/
def lineEnc (m : LineMsg) : List Byte :=
  lineHeader m ++ (if m.typ = .wrMasked then leBytes 8 m.mask.toNat else []) ++ (if hasData m.typ then lineBytes m.data else [])

/-- A line message of type `t` and class `c` read from its bytes. -/
def lineDec (t : MsgType) (c : Cls) (bs : List Byte) : LineMsg :=
  let b1 := leAt bs 1 1
  let h := leAt bs 2 2
  let d := if t = .wrMasked then 24 else 16
  { typ := t, cls := c, dst := b1 % 64, elder := bitOf b1 6, replay := bitOf b1 7, trk := h % 1024, ten := bitsOf h 10 3
    flg := BitVec.ofNat 3 (bitsOf h 13 3), la := leAt bs 4 3, age := leAt bs 7 1, version := word (leAt bs 8 4)
    param := word (leAt bs 12 4), data := if hasData t then lineOf (slice bs d 64) else 0
    mask := if t = .wrMasked then BitVec.ofNat 64 (leAt bs 16 8) else 0 }

/-! ### Control messages -/

/-- REFERENCE (02 R83). -/
def refEnc (m : RefMsg) : List Byte :=
  leBytes 1 (0x38 + 64 * m.tier) ++ leBytes 1 m.masterHk ++ leBytes 1 (m.nrow % 4 + flagAt m.nom 2 + flagAt m.locked 3 + 16 * (m.row % 16))
    ++ leBytes 1 (m.rank % 8 + flagAt m.mhold 3 + 16 * (m.rseq % 16)) ++ leBytes 4 m.hoop.toNat ++ leBytes 4 m.period ++ leBytes 2 m.txofs
    ++ [0, 0]

def refDec (bs : List Byte) : RefMsg :=
  let b2 := leAt bs 2 1
  let b3 := leAt bs 3 1
  { tier := leAt bs 0 1 / 64, masterHk := leAt bs 1 1, nrow := b2 % 4, nom := bitOf b2 2, locked := bitOf b2 3, row := bitsOf b2 4 4
    rank := b3 % 8, mhold := bitOf b3 3, rseq := bitsOf b3 4 4, hoop := word (leAt bs 4 4), period := leAt bs 8 4, txofs := leAt bs 12 2 }

/-- TRUE (02 R84): TPHASE and TPFRAC are one 24.8 value, fraction in byte 5. -/
def trueEnc (m : TrueMsg) : List Byte :=
  leBytes 1 (0x39 + 64 * m.tsrc) ++ leBytes 1 (flagAt m.tvalid 0 + flagAt m.rot 1 + flagAt m.inlb 2) ++ leBytes 3 (m.tphase.toNat / 256)
    ++ leBytes 1 (m.tphase.toNat % 256) ++ leBytes 4 m.tperiod ++ leBytes 4 m.thoop.toNat ++ [0, 0]

def trueDec (bs : List Byte) : TrueMsg :=
  let b1 := leAt bs 1 1
  { tsrc := leAt bs 0 1 / 64, tvalid := bitOf b1 0, rot := bitOf b1 1, inlb := bitOf b1 2
    tphase := BitVec.ofNat 32 (256 * leAt bs 2 3 + leAt bs 5 1), tperiod := leAt bs 6 4, thoop := word (leAt bs 10 4) }

/-- ORIGIN (03 R171). -/
def originEnc (m : OriginMsg) : List Byte :=
  leBytes 1 0x3A ++ leBytes 1 (flagAt m.yvE1 0 + flagAt m.yvE2 1) ++ [0, 0] ++ leBytes 4 m.yE1 ++ leBytes 4 m.yE2 ++ leBytes 4 0

def originDec (bs : List Byte) : OriginMsg :=
  { yvE1 := bitOf (leAt bs 1 1) 0, yvE2 := bitOf (leAt bs 1 1) 1, yE1 := leAt bs 4 4, yE2 := leAt bs 8 4 }

/-- RANGE (03 R173). -/
def rangeEnc (m : RangeMsg) : List Byte :=
  leBytes 1 0x3B ++ leBytes 1 (flagAt m.yvalid 0 + flagAt m.prevv 1 + flagAt m.fin 2 + 8 * (m.rseq % 32)) ++ leBytes 2 m.asym.toNat
    ++ leBytes 4 m.y.toNat ++ leBytes 4 m.txp.toNat ++ leBytes 4 m.rxp.toNat

def rangeDec (bs : List Byte) : RangeMsg :=
  let b1 := leAt bs 1 1
  { yvalid := bitOf b1 0, prevv := bitOf b1 1, fin := bitOf b1 2, rseq := bitsOf b1 3 5, asym := BitVec.ofNat 16 (leAt bs 2 2)
    y := word (leAt bs 4 4), txp := word (leAt bs 8 4), rxp := word (leAt bs 12 4) }

/-- One entry of a wave (05 R240). -/
def discEntryEnc (e : DiscEntry) : List Byte :=
  leBytes 1 e.hk ++ leBytes 1 (e.vmin % 4 + 4 * (e.vmax % 4) + flagAt e.cab 4 + flagAt e.memb 5)

def discEntryDec (bs : List Byte) : DiscEntry :=
  let b := leAt bs 1 1
  { hk := leAt bs 0 1, vmin := b % 4, vmax := bitsOf b 2 2, cab := bitOf b 4, memb := bitOf b 5 }

/-- DISC (05 R240). -/
def discEnc (m : DiscMsg) : List Byte :=
  slice (leBytes 1 0x3C ++ leBytes 1 (flagAt m.complete 0 + flagAt m.last 1) ++ leBytes 1 m.first ++ leBytes 1 m.count
    ++ (m.entries.map discEntryEnc).flatten) 0 16

/-- A DISC read: a COUNT of 0 or above 6 gives no entry. -/
def discDec (bs : List Byte) : DiscMsg :=
  let n := leAt bs 3 1
  { complete := bitOf (leAt bs 1 1) 0, last := bitOf (leAt bs 1 1) 1, first := leAt bs 2 1, count := n
    entries := if n ≤ 6 then (List.range n).map fun i => discEntryDec (slice bs (4 + 2 * i) 2) else [] }

/-- INAUG (05 R236). -/
def inaugEnc (m : InaugMsg) : List Byte :=
  leBytes 1 0x3D ++ leBytes 1 (m.step % 8 + 8 * (m.cause % 32)) ++ leBytes 1 m.num ++ leBytes 1 m.hk ++ leBytes 4 m.f1.toNat ++ leBytes 1 m.f2
    ++ leBytes 1 m.f3 ++ leBytes 1 m.f4 ++ leBytes 1 m.f5 ++ leBytes 1 m.f6 ++ leBytes 1 m.f7 ++ leBytes 2 m.unit

def inaugDec (bs : List Byte) : InaugMsg :=
  let b := fun i => leAt bs i 1
  { step := b 1 % 8, cause := b 1 / 8, num := b 2, hk := b 3, f1 := word (leAt bs 4 4), f2 := b 8, f3 := b 9, f4 := b 10, f5 := b 11
    f6 := b 12, f7 := b 13, unit := leAt bs 14 2 }

/-- PAT_SWITCH (04 R216). -/
def patEnc (m : PatMsg) : List Byte :=
  leBytes 1 0x3E ++ leBytes 1 (m.step % 8 + 8 * (m.reason % 32)) ++ leBytes 1 m.target ++ leBytes 1 m.proposer ++ leBytes 4 m.phoop.toNat
    ++ leBytes 4 m.digest.toNat ++ leBytes 1 m.subject ++ [0, 0, 0]

def patDec (bs : List Byte) : PatMsg :=
  let b := fun i => leAt bs i 1
  { step := b 1 % 8, reason := b 1 / 8, target := b 2, proposer := b 3, phoop := word (leAt bs 4 4), digest := word (leAt bs 8 4)
    subject := b 12 }

/-- DIGEST (05 R248). -/
def digestEnc (m : DigestMsg) : List Byte :=
  leBytes 1 0x3F ++ leBytes 1 (flagAt m.part 0 + flagAt m.va 1 + flagAt m.vb 2) ++ leBytes 1 m.pref ++ leBytes 1 (m.pen % 16)
    ++ leBytes 4 m.da.toNat ++ leBytes 4 m.db.toNat ++ leBytes 4 m.listd.toNat

def digestDec (bs : List Byte) : DigestMsg :=
  let b := leAt bs 1 1
  { part := bitOf b 0, va := bitOf b 1, vb := bitOf b 2, pref := leAt bs 2 1, pen := leAt bs 3 1 % 16, da := word (leAt bs 4 4)
    db := word (leAt bs 8 4), listd := word (leAt bs 12 4) }

/-! ### The messages of a frame (03 R141, R144, R720) -/

/-- The bytes of a message. -/
def msgEnc : Msg → List Byte
  | .line m => lineEnc m
  | .reference m => refEnc m
  | .trueP m => trueEnc m
  | .origin m => originEnc m
  | .range m => rangeEnc m
  | .disc m => discEnc m
  | .inaug m => inaugEnc m
  | .patSwitch m => patEnc m
  | .digest m => digestEnc m

/-- What one message of a frame is to its receiver. -/
inductive Read where
  | msg (m : Msg)
  /-- It is not acted on: another class than the frame's, or an undefined selector (03 R720). -/
  | skip
  deriving DecidableEq, Repr

/-- A STATUS names 1 to 3, a CALL a cause of 0 to 4, and no step is above 4 (05 R236). -/
def inaugOk (m : InaugMsg) : Bool :=
  m.step ≤ 4 && (m.step != 0 || m.cause ≤ 4) && (m.step != 4 || decide (1 ≤ m.num ∧ m.num ≤ 3))

/-- A step of 0 to 4 and a target that names a pattern or a role (04 R216, 10 R545). -/
def patOk (m : PatMsg) : Bool := m.step ≤ 4 && (m.target ≤ 3 || decide (0x80 ≤ m.target ∧ m.target ≤ 0x87))

/-- A control message of code `c`; none: not implemented. -/
def ctlDec (c : Nat) (bs : List Byte) : Option Read :=
  match c with
  | 0x38 => some (.msg (.reference (refDec bs)))
  | 0x39 => some (.msg (.trueP (trueDec bs)))
  | 0x3A => some (.msg (.origin (originDec bs)))
  | 0x3B => some (.msg (.range (rangeDec bs)))
  | 0x3C => some (.msg (.disc (discDec bs)))
  | 0x3D => some (if inaugOk (inaugDec bs) then .msg (.inaug (inaugDec bs)) else .skip)
  | 0x3E => some (if patOk (patDec bs) then .msg (.patSwitch (patDec bs)) else .skip)
  | 0x3F => some (.msg (.digest (digestDec bs)))
  | _ => none

/-- The next message of a frame of class `cls`, and its length; none where its TYPE is not implemented. -/
def readOne (cls : Nat) (bs : List Byte) : Option (Read × Nat) :=
  let b0 := leAt bs 0 1
  match typOf (b0 % 64) with
  | some t =>
    match clsRead (b0 / 64) with
    | some c => some (if b0 / 64 = cls then .msg (.line (lineDec t c bs)) else .skip, typLen t)
    | none => some (.skip, typLen t)
  | none => (ctlDec (b0 % 64) bs).map fun r => (r, 16)

/-- The walk over a message area: what it read, and whether it ended in an unknown or a partial message (03 R144, R720). The fuel is
the area's length. -/
def walk (cls : Nat) : Nat → List Byte → List Read × Bool
  | 0, _ => ([], false)
  | f + 1, bs =>
    if bs.isEmpty then ([], false)
    else match readOne cls bs with
      | none => ([], true)
      | some (r, n) =>
        if bs.length < n then ([], true)
        else
          let w := walk cls f (bs.drop n)
          (r :: w.1, w.2)

/-- The messages to act on. -/
def readMsgs (rs : List Read) : List Msg := rs.filterMap fun r => match r with
  | .msg m => some m
  | .skip => none

/-! ### Frames (03 R135–R138, R146) -/

/-- Code of a lane mode. -/
def lmodeCode : LMode → Nat
  | .single => 0
  | .dual => 1
  | .split => 2
  | .triple => 3

/-- Lane mode of a code. -/
def lmodeOf : Nat → LMode
  | 0 => .single
  | 1 => .dual
  | 2 => .split
  | _ => .triple

/-- Code of a lane. -/
def laneCode : LaneId → Nat
  | .a => 0
  | .b => 1
  | .c => 2

/-- Lane of a code. -/
def laneRead : Nat → LaneId
  | 0 => .a
  | 1 => .b
  | _ => .c

/-- Side bit. -/
def sideBit : Side → Bool
  | .e1 => false
  | .e2 => true

/-- The frame header's 24 bytes (03 R138). -/
def hdrEnc (h : FrameHdr) : List Byte :=
  leBytes 1 (h.pver % 16 + 16 * (h.kind % 4) + 64 * (h.cls % 4)) ++ leBytes 1 (h.src % 64 + 64 * lmodeCode h.lmode) ++ leBytes 1 h.srcHk
    ++ leBytes 1 (laneCode h.lane + flagAt (sideBit h.side) 2) ++ leBytes 4 h.epoch.toNat ++ leBytes 1 h.stitch
    ++ leBytes 1 (h.row % 16 + 16 * (h.pat % 8)) ++ leBytes 2 h.fseq ++ leBytes 2 h.mlen ++ leBytes 1 h.mcount ++ [0]
    ++ leBytes 4 h.pdigest.toNat ++ leBytes 4 h.hoop.toNat

/-- A frame header read. -/
def hdrDec (bs : List Byte) : FrameHdr :=
  let b := fun i => leAt bs i 1
  { pver := b 0 % 16, kind := bitsOf (b 0) 4 2, cls := bitsOf (b 0) 6 2, src := b 1 % 64, lmode := lmodeOf (bitsOf (b 1) 6 2), srcHk := b 2
    lane := laneRead (b 3 % 4), side := if bitOf (b 3) 2 then .e2 else .e1, epoch := word (leAt bs 4 4), stitch := b 8, row := b 9 % 16
    pat := bitsOf (b 9) 4 3, fseq := leAt bs 10 2, mlen := leAt bs 12 2, mcount := b 14, pdigest := word (leAt bs 16 4)
    hoop := word (leAt bs 20 4) }

/-- The payload of a frame: header, messages, pad and end-to-end CRC (03 R135, R146). -/
def payload (h : FrameHdr) (ms : List Byte) : List Byte :=
  let body := hdrEnc h ++ ms ++ List.replicate (18 - ms.length) 0
  body ++ leBytes 4 (crc32 body)

/-- The end-to-end CRC of a payload passes. -/
def crcOk (p : List Byte) : Bool := decide (46 ≤ p.length) && crc32 (p.take (p.length - 4)) == leAt p (p.length - 4) 4

/-- The header and the message area of a payload: at most MLEN bytes of what lies before the CRC. -/
def payloadDec (p : List Byte) : FrameHdr × List Byte :=
  let h := hdrDec p
  (h, (p.drop 24).take (min h.mlen (p.length - 28)))

end Sys2Proof.Machine
end

