-- ==== Sys2Proof/Machine/Jobs.lean ====
section
/-! DEFINITION. The line, maintenance and region commands 01h–15h, 20h–22h and 25h: each row performs the command that its bobbin
holds (10 R503–R528). A row whose bobbin holds no such command, or one that has begun, leaves the state as it is; a command that
must wait stays in its bobbin, and the row performs it when it occurs again (log 44). -/

namespace Sys2Proof.Machine

/-- The outcome of a meaning that never stops. -/
abbrev Out3 := Host.Outcome State Fault Refusal

/-- READ (10 R503; 06 R300, R310). -/
def execRead (b : Nat) (s : State) : Out3 := .next (readJob 1 b s)

/-- READ_FRESH (10 R511). -/
def execReadFresh (b : Nat) (s : State) : Out3 := .next (readFreshJob b s)

/-- READ_BLOCK (10 R510). -/
def execReadBlock (b : Nat) (s : State) : Out3 := .next (readJob 3 b s)

/-- WRITE (10 R503, R508). -/
def execWrite (b : Nat) (s : State) : Out3 := .next (writeJob 4 b s)

/-- WRITE_MASKED (10 R503). -/
def execWriteMasked (b : Nat) (s : State) : Out3 := .next (writeJob 5 b s)

/-- WRITE_BLOCK (10 R510). -/
def execWriteBlock (b : Nat) (s : State) : Out3 := .next (writeJob 6 b s)

/-- ZERO_LINE (08 R394). -/
def execZeroLine (b : Nat) (s : State) : Out3 := .next (writeJob 7 b s)

/-- CLAIM (10 R509); one on a line of a PUBLISH region was refused by check 7 (10 R505). -/
def execClaim (b : Nat) (s : State) : Out3 := .next (writeJob 8 b s)

/-- RELEASE (10 R509). -/
def execRelease (b : Nat) (s : State) : Out3 := .next (maintainJob 9 b s)

/-- ATOMIC (10 R512). -/
def execAtomic (b : Nat) (s : State) : Out3 := .next (atomicJob b s)

/-- LOCK (10 R514). -/
def execLock (b : Nat) (s : State) : Out3 := .next (lockJob b s)

/-- UNLOCK (10 R514). -/
def execUnlock (b : Nat) (s : State) : Out3 := .next (unlockJob b s)

/-- SUBSCRIBE (10 R515). -/
def execSubscribe (b : Nat) (s : State) : Out3 := .next (subscribeJob b s)

/-- UNSUBSCRIBE (10 R516). -/
def execUnsubscribe (b : Nat) (s : State) : Out3 := .next (unsubscribeJob b s)

/-- FLUSH (08 R390). -/
def execFlush (b : Nat) (s : State) : Out3 := .next (maintainJob 0x10 b s)

/-- INVALIDATE (08 R391). -/
def execInvalidate (b : Nat) (s : State) : Out3 := .next (maintainJob 0x11 b s)

/-- CLEAN (08 R390). -/
def execClean (b : Nat) (s : State) : Out3 := .next (maintainJob 0x12 b s)

/-- PIN (08 R386, R388). -/
def execPin (b : Nat) (s : State) : Out3 := .next (pinJob b s)

/-- UNPIN (08 R388). -/
def execUnpin (b : Nat) (s : State) : Out3 := .next (unpinJob b s)

/-- PREFETCH (08 R393). -/
def execPrefetch (b : Nat) (s : State) : Out3 := .next (prefetchJob b s)

/-- MAP_REGION (10 R521). -/
def execMapRegion (b : Nat) (s : State) : Out3 := .next (mapJob b s)

/-- UNMAP_REGION (10 R523). -/
def execUnmapRegion (b : Nat) (s : State) : Out3 := .next (unmapJob b s)

/-- SET_ATTR (10 R526). -/
def execSetAttr (b : Nat) (s : State) : Out3 := .next (setAttrJob b s)

/-- QUERY_REGION (10 R528). -/
def execQueryRegion (b : Nat) (s : State) : Out3 := .next (queryRegionJob b s)

end Sys2Proof.Machine
end

