-- ==== Sys2Proof/Machine/Checks.lean ====
section
/-! DEFINITION. The checks of a job before its acceptance: opcode, selectors and structure, home key and line range, region,
permission, mode, and the clamping of values (09 R433, R464; 10 R494, R495 and the argument tables). -/

namespace Sys2Proof.Machine

/-- Implemented opcodes (10 "Reserved opcodes between the groups"). -/
def opcodeOk (op : Nat) : Bool :=
  (1 ≤ op && op ≤ 0x0E) || (0x10 ≤ op && op ≤ 0x15) || (0x20 ≤ op && op ≤ 0x25) || (0x30 ≤ op && op ≤ 0x34)
    || (0x40 ≤ op && op ≤ 0x46) || (0x50 ≤ op && op ≤ 0x57)

/-- Steward-only opcodes (09 R433). -/
def stewardOnly (op : Nat) : Bool := [0x20, 0x21, 0x22, 0x34, 0x41, 0x42, 0x45, 0x46, 0x53, 0x54, 0x56].contains op

/-! ### Picot arguments (10 R535; 02 R104, R109, R113) -/

/-- The largest width of a pulse in the units of WUNIT; for DIVIDE, floor(2^24 / N) − 4 pu or its equivalent at the present period. -/
def maxWidth (s : State) (mode n : Nat) (wunit tb : Bool) : Nat :=
  let pu := if mode = 3 then 2 ^ 24 / n - 4 else 0xFFFFFC
  if wunit then
    if mode = 3 then min 65535 (pu * (if tb then s.tm.period else s.tm.tperiod) / (10 * 2 ^ 24)) else 65535
  else pu

/-- N of a DIVIDE, clamped. -/
def divN (j : Job) : Nat := max 1 (min 1024 (argN j 12 4))

/-- ARMHOOP or a WAIT_PHASE hoop has already begun. -/
def begun (now h : Word) : Bool := decide ((now - h).toNat < 2 ^ 31)

/-- The timebase of a PICOT_ARM: row when TB is 1. -/
def hoopOf (s : State) (row : Bool) : Word := if row then s.tm.hoop else s.tm.thoop

/-- The structural rules of PICOT_ARM. -/
def picotOk (s : State) (j : Job) : Bool :=
  let f := argB j 2
  let arm := word (argN j 16 4)
  argB j 0 ≤ 23 && decide (1 ≤ argB j 1 ∧ argB j 1 ≤ 4) && (argB j 1 != 4 || bitsOf (argB j 3) 0 2 != 0)
    && (arm == 0 || !begun (hoopOf s (bitOf f 0)) arm)
    && !(argB j 1 == 2 && bitOf f 3 && decide (min 0xFFFFFF (argN j 8 4) < min 0xFFFFFF (argN j 4 4)))

/-- The tenant owns the channel and it is enabled (02 R101). -/
def ownsChannel (s : State) (ten ch : Nat) : Bool :=
  rfld s (0x3000 + 4 * (ch / 8)) (4 * (ch % 8)) 3 == ten && rbit s (0x3000 + 4 * (ch / 8)) (4 * (ch % 8) + 3)

/-! ### Checks 3 to 7 (10 R494) -/

/-- The range of a MAP_REGION lies within its home and overlaps no region; MIRRORED only in role homes but MIRROR (06 R285, R286). A
base beyond the home's lines is a wrong parameter here, not a line that is not mapped (01 R19, 10 R494; DESIGN CHOICE, log 137). -/
def mapOk (s : State) (j : Job) : Bool :=
  let n := max 1 (argN j 0 2)
  decide (laLx j.la + n ≤ homeLines (laHk j.la)) && decide (n ≤ 8192) && regionFree s j.la n
    && (!bitOf (argB j 2) 3 || (match roleOf (laHk j.la) with
      | some r => r != 4
      | none => false))

/-- Bindings on the lines of a region. -/
def bindsIn (s : State) (r : Region) : Bool := s.can.binds.any fun e => r.base ≤ e.2.la && e.2.la < r.base + r.count

/-- Check 3: selectors and structure. -/
def check3 (s : State) (j : Job) : Bool :=
  match j.op with
  | 0x06 => 64 ≤ j.alen
  | 0x0A => argB j 0 ≤ 6 && argB j 1 ≤ 3 && argB j 3 ≤ 63 && argB j 3 % 2 ^ argB j 1 == 0
  | 0x20 => mapOk s j
  | 0x22 => argB j 0 < 64 && !(bitOf (argB j 0) 3 && !bitOf (argB j 1) 6
      && (regionAt s j.la).any fun r => r.2.canb && bindsIn s r.2)
  | 0x23 =>
    let e := bindOf j
    (e.ide || decide (e.id ≤ 0x7FF)) && e.off ≤ 63 && decide (1 ≤ e.len) && decide (e.len ≤ if e.fd then 64 else 8)
      && decide (e.off + e.len ≤ 64)
      && !(e.tx && !homedHere s e.la && (regionAt s e.la).any fun r => r.2.claim)
  | 0x24 => argN j 0 2 < 256 && (tget s.can.binds (argN j 0 2)).isSome
  | 0x31 => argN j 4 4 == 0 || !begun (hoopOf s (bitOf (argB j 8) 0)) (word (argN j 4 4))
  | 0x32 => picotOk s j
  | 0x33 => argB j 0 ≤ 23
  | 0x42 => argB j 0 ≤ 3
  | 0x45 => argB j 0 ≤ 7
  | 0x46 => argB j 0 ≤ 3 && decide (1 ≤ argN j 4 4) && argN j 4 4 ≤ 8192
  | 0x50 => argB j 0 ≤ 2 && decide (argB j 1 ≤ if argB j 0 = 0 then 15 else 7) && (argB j 0 != 2 || argB j 3 ≤ 7)
  | 0x52 => argB j 0 ≤ 63
  | 0x53 => argB j 0 ≤ 47 && argB j 1 ≤ 2
  | _ => true

/-- Check 4: home key in use and line index within range (00 R15, R19; 05 R252). -/
def check4 (s : State) (j : Job) : Bool :=
  if isLineOp j.op || j.op == 0x23 then hkInUse s (laHk j.la) && decide (laLx j.la < homeLines (laHk j.la))
  else if j.op == 0x20 || j.op == 0x21 || j.op == 0x22 || j.op == 0x25 then
    !hkReserved (laHk j.la) && decide (laLx j.la < homeLines (laHk j.la))
  else true

/-- Check 5: the line, and every line of a block, lies in a region of this node (06 R287, 10 R506). -/
def check5 (s : State) (j : Job) : Bool :=
  if takesLa j.op && j.op != 0x20 then
    match regionAt s j.la with
    | some e => !isBlk j.op || decide (j.la + blkCount j ≤ e.2.base + e.2.count)
    | none => false
  else true

/-- Check 6: the tenant's permission (06 R288; 10 R519, R528, R530, R531, R551, R552; 02 R101). -/
def check6 (s : State) (j : Job) : Bool :=
  let rd := tenMay s j.la j.ten false
  let wr := tenMay s j.la j.ten true
  match j.op with
  | 0x04 | 0x05 | 0x06 | 0x07 | 0x08 | 0x0A | 0x0B | 0x0C => wr
  | 0x01 | 0x02 | 0x03 | 0x09 | 0x0D | 0x0E | 0x10 | 0x11 | 0x12 | 0x15 => rd
  | 0x13 | 0x14 => rd || wr
  | 0x23 => ((regionAt s j.la).any fun r => r.2.canb) && (if bitOf (argB j 0) 1 then rd else wr)
  | 0x24 => j.ten == 0 || (tget s.can.binds (argN j 0 2)).any fun e => e.ten == j.ten
  | 0x25 => j.ten == 0 || rd || wr
  | 0x32 | 0x33 => ownsChannel s j.ten (argB j 0)
  | 0x50 => if argB j 0 = 1 then rbit s (tenBase j.ten + 0x1C00) 3 else j.ten == 0
  | 0x51 => j.ten == 0 || rbit s (tenBase j.ten + 0x1C00) 3
  | 0x52 => j.ten == 0 || !bitOf (argB j 2) 0
  | _ => true

/-- Check 7: mode rules (10 R505, 06 R325). -/
def check7 (s : State) (j : Job) : Bool :=
  match regionAt s j.la with
  | none => true
  | some r =>
    if j.op = 8 then r.2.claim else if j.op = 13 then !r.2.claim
    else if j.op = 11 then r.2.cls != .c0 else true

/-- Checks 1 to 7: the status of the first that fails (10 R494). -/
def checkJob (s : State) (j : Job) : Option Nat :=
  if !opcodeOk j.op then some stBadOpcode
  else if stewardOnly j.op && j.ten != 0 then some stDenied
  else if !check3 s j then some stBadParam
  else if !check4 s j then some stNotMapped
  else if !check5 s j then some stNotMapped
  else if !check6 s j then some stDenied
  else if !check7 s j then some stDenied
  else none

/-! ### Check 8: values (10 R495) -/

/-- Field `[lo + w - 1 : lo]` of the `n` argument bytes at `off` clamped by `f`; the clamp's record names the byte offset
(13 R647). -/
def clampArg (off n lo w : Nat) (f : Nat → Nat) (p : List Byte × List Clamped) : List Byte × List Clamped :=
  let v := leAt p.1 off n
  let x := bitsOf v lo w
  let y := f x
  if x = y then p
  else (splice (slice p.1 0 (max p.1.length (off + n))) off (leBytes n (putBits v lo w y)),
        p.2 ++ [{ lo := off, w := w, written := x, stored := y }])

/-- The value fields of a command's argument clamped (10 R495, R503, R520, R525, R529, R535, R537, R550). -/
def clampJob (s : State) (j : Job) : List Byte × List Clamped :=
  let p : List Byte × List Clamped := (j.arg, [])
  let between := fun (lo hi x : Nat) => max lo (min hi x)
  match j.op with
  | 0x03 => clampArg 0 2 0 16 (between 1 64) p
  | 0x0B => clampArg 0 1 0 8 (max 1) p
  | 0x20 => clampArg 2 1 1 2 (min 2) (clampArg 0 2 0 16 (between 1 8192) p)
  | 0x22 => if bitOf (argB j 0) 0 then clampArg 1 1 1 2 (min 2) p else p
  | 0x23 => if bitOf (argB j 0) 3 then p else clampArg 0 1 4 1 (fun _ => 0) p
  | 0x32 =>
    let f := argB j 2
    let mode := argB j 1
    let p := if mode = 4 then p else clampArg 4 4 0 32 (min 0xFFFFFF) p
    let p := if mode = 4 then p else if mode = 2 then clampArg 8 4 0 32 (min 0xFFFFFF) p
      else clampArg 8 4 0 32 (between 1 (maxWidth s mode (divN j) (bitOf f 2) (bitOf f 0))) p
    if mode = 3 then clampArg 12 4 0 32 (between 1 1024) p else p
  | 0x34 =>
    let p := clampArg 0 1 0 8 (fun x => if 3 ≤ x then 1 else x) p
    clampArg 4 1 0 8 (min 23) (clampArg 3 1 0 8 (min 7) (clampArg 1 1 0 8 (min 2) p))
  | 0x50 => clampArg 2 1 0 8 (between 1 ((if argB j 0 = 0 then 16 else 8) - argB j 1)) p
  | 0x51 => clampArg 0 2 0 16 (between 1 128) p
  | 0x52 => clampArg 1 1 0 8 (between 1 (64 - argB j 0)) p
  | _ => p

end Sys2Proof.Machine
end

