-- ==== Sys2Proof/Machine/Ops.lean ====
section
/-! DEFINITION. What the block does while no command waits: one CORE cycle passes, and the counters that count cycles or busy
items in every CORE cycle run (12 R611–R616; log 4). -/

namespace Sys2Proof.Machine

/-- The bobbin counts against its tenant's quota: a job, or a CMD entry of the commissioning image (08 R415, 09 R476). -/
def quotaKind : BobKind → Bool
  | .job => true
  | .cmd _ => true
  | _ => false

/-- Bobbins in use that tenant `n` holds for jobs. -/
def busyBobs (s : State) (n : Nat) : Nat := (s.ten.bobs.filter fun e => quotaKind e.2.kind && e.2.job.ten == n).length

/-- Tenant `n` holds as many bobbins as its quota (12 R616 event 7). -/
def quotaFull (s : State) (n : Nat) : Bool := enabled s n && decide ((tenOf s n).quota ≤ busyBobs s n)

/-- Frames held for reordering whose lane is `l` (12 R616 event 48 + 16L + 6). -/
def heldOn (s : State) (l : Nat) : Nat :=
  (s.lan.streams.map fun e => (e.2.held.filter fun h => laneIx h.2.1 == l).length).foldl (· + ·) 0

/-- What a counter that selects perf event `e` adds in one CORE cycle; `ten` is the tenant of a tenant counter (12 R612, R616). -/
def cycleAdd (s : State) (e : Nat) (ten : Option Nat) : Nat :=
  match e with
  | 0 => 1
  | 6 => match ten with
    | some n => busyBobs s n
    | none => s.ten.bobs.length
  | 7 => match ten with
    | some n => b2n (quotaFull s n)
    | none => ((List.range 8).filter (quotaFull s)).length
  | 40 => s.home.trks.length
  | 54 => heldOn s 0
  | 70 => heldOn s 1
  | 86 => heldOn s 2
  | _ => 0

/-- The tenant of performance counter `i`. -/
def pmcTen (i : Nat) : Option Nat := if i < 16 then none else some ((i - 16) / 8)

/-- Counter `i` counts: its EN and PMC_CTRL.EN are 1, from STANDBY on (12 R611, R615). -/
def pmcOn (s : State) (i : Nat) : Bool := powered s && rbit s 0xB000 0 && rbit s (pmcSelOff i) 8

/-- Counter `i` in one CORE cycle. -/
def pmcCycle (s : State) (i : Nat) : State :=
  if pmcOn s i then
    let n := cycleAdd s (rfld s (pmcSelOff i) 0 8) (pmcTen i)
    if n = 0 then s
    else
      let r := pmcAdd i n s
      if r.2 then raise 456 (detN i 0) r.1 else r.1
  else s

/-- One CORE cycle of 2.5 ns, 20 units of the local clock (14 R693; log 4). -/
def coreCycle (s : State) : State :=
  (List.range 80).foldl pmcCycle { s with tm := { s.tm with clk := s.tm.clk + 20 } }

end Sys2Proof.Machine
end

