-- ==== Sys2Proof/Machine/Fetch.lean ====
section
/-! DEFINITION. Fetching: the entries of a job, its argument and fragment tables, the reads by DMA, the checks and the acceptance,
and the timeout of a command (09 R434–R436, R446, R452–R465, R477; 10 R494–R500; 07 R375). -/

namespace Sys2Proof.Machine

/-! ### Entries of the submission ring -/

/-- Entries between the head and the tail that the node knows. -/
def sqAvail (s : State) (n : Nat) : Nat := ((tenOf s n).sqTail + sqSize s n - (tenOf s n).sqHead) % sqSize s n

/-- SQ slot `i` entries after the head. -/
def sqSlot (s : State) (n i : Nat) : Nat := ((tenOf s n).sqHead + i) % sqSize s n

/-- Address of an SQ slot. -/
def sqAddr (s : State) (n slot : Nat) : Nat := base64 s (tenBase n + 0x208) + 64 * slot

/-- The entry of an SQ slot as the node has it: pushed, in the ring RAM, or read by DMA. -/
def sqEntry (s : State) (n slot : Nat) : Option (List Byte) :=
  match tget (tenOf s n).latch slot with
  | some e => some e
  | none => if isSpi s n then some (ramBytes s n (sqAddr s n slot) 64) else tget (tenOf s n).fetched slot

/-- What stands at the head of a ring. -/
inductive Chain where
  /-- The entries of a job, FIRST to LAST; 16 entries without LAST are taken as malformed. -/
  | job (es : List (List Byte))
  /-- Entry `i` after the head has not been read. -/
  | missing (i : Nat)
  /-- LAST is not covered by the tail (09 R462). -/
  | uncovered
  deriving DecidableEq, Repr

/-- The entries from the `i`-th on, at most `f` more. -/
def chainFrom (s : State) (n : Nat) : Nat → Nat → List (List Byte) → Chain
  | 0, _, es => .job es
  | f + 1, i, es =>
    if sqAvail s n ≤ i then .uncovered
    else match sqEntry s n (sqSlot s n i) with
      | none => .missing i
      | some e => if bitOf (leAt e 1 1) 1 then .job (es ++ [e]) else chainFrom s n f (i + 1) (es ++ [e])

/-- The job at the head of tenant `n`'s ring. -/
def headChain (s : State) (n : Nat) : Chain := chainFrom s n 16 0 []

/-- The job of a chain of entries (09 R452–R454); TMO = 0 selects TEN_TMODEF (10 R498). -/
def jobOf (s : State) (n : Nat) (es : List (List Byte)) : Job :=
  let e := es.headD []
  let flags := leAt e 1 1
  let tmo := leAt e 8 2
  let alen := leAt e 10 2
  let area := slice e 32 32 ++ ((es.drop 1).map fun c => slice c 16 48).flatten
  { ten := n, op := leAt e 0 1, tag := leAt e 2 2, la := leAt e 4 3, tmo := if tmo = 0 then rfld s (tenBase n + 0x224) 0 16 else tmo
    alen := alen, olen := leAt e 12 2, oaddr := leAt e 16 8, iaddr := leAt e 24 8, irq := bitOf flags 4, iind := bitOf flags 2
    oind := bitOf flags 3, arg := if bitOf flags 2 then [] else area.take alen }

/-- The fields that the node trusts are well formed (09 R463). -/
def chainOk (es : List (List Byte)) (j : Job) : Bool :=
  bitOf (leAt (es.headD []) 1 1) 0 && bitOf (leAt (es.getLastD []) 1 1) 1 && ((es.drop 1).all fun c => !bitOf (leAt c 1 1) 0)
    && j.alen ≤ 4096 && j.olen ≤ 4096 && (!j.iind || es.length == 1) && (j.iind || decide (j.alen ≤ 32 + 48 * (es.length - 1)))

/-! ### DMA reads (09 R434–R436) -/

/-- No further read may be issued: 32 are outstanding (09 R434). -/
def dmaFull (s : State) : Bool := decide (32 ≤ s.ten.dma.length)

/-- Is this a read for bobbin `b`? -/
def dmaForBob (b : Nat) : DmaUse → Bool
  | .table x | .frag x | .prick x | .prickTable x | .outTable x => x == b
  | _ => false

/-- Is this a read of tenant `n`'s rings? -/
def dmaForTen (n : Nat) : DmaUse → Bool
  | .sq t _ _ | .idx t | .head t => t == n
  | _ => false

/-- Reads whose data nobody wants any more: they stay outstanding and bring nothing. -/
def forgetReads (f : DmaUse → Bool) (s : State) : State :=
  { s with ten := { s.ten with dma := s.ten.dma.map fun e => (e.1, if f e.2 then .sq 8 0 0 else e.2) } }

/-- SQ entries of tenant `n` from the `i`-th after the head are read, up to 8, to the tail, the ring's end or an entry at hand. -/
def sqRead (n i : Nat) (s : State) : State :=
  if dmaFull s ∨ s.ten.dma.any (fun e => match e.2 with
    | .sq t _ k => t == n && k != 0
    | _ => false) then s
  else
    let first := sqSlot s n i
    let room := min 8 (min (sqAvail s n - i) (sqSize s n - first))
    let k := ((List.range room).takeWhile fun d => (sqEntry s n (first + d)).isNone).length
    dmaRead n (sqAddr s n first) (64 * k) (.sq n first k) s

/-- The index block's tail and CQ head taken (09 R458, R459). -/
def takeIndex (n : Nat) (bytes : List Byte) (tail : Bool) (s : State) : State :=
  let s := if tail then modTen n (fun t => { t with sqTail := leAt bytes 0 4 % 4096 % sqSize s n }) s else s
  let s := modTen n (fun t => { t with cqHead := leAt bytes 4 4 % 4096 % cqSize s n }) s
  cqAdvance n s

/-- The latch keeps what the tail covers: a push of a doorbell that added nothing is discarded (09 "Tail that adds nothing"). -/
def trimLatch (n : Nat) (s : State) : State :=
  modTen n (fun t => { t with latch := t.latch.filter fun e => (e.1 + sqSize s n - t.sqHead) % sqSize s n < sqAvail s n }) s

/-- A read of the index block (09 R458): at once for an SPI tenant, by DMA otherwise. -/
def readIndex (n : Nat) (tail : Bool) (s : State) : State :=
  let a := base64 s (tenBase n + 0x218)
  if isSpi s n then trimLatch n (takeIndex n (ramBytes s n a 16) tail s)
  else if dmaFull s then modTen n (fun t => { t with idxPend := t.idxPend || tail }) s
  else dmaRead n a 16 (if tail then .idx n else .head n) s

/-- The entries of a fragment table (09 R455). -/
def fragsOf (bytes : List Byte) : List (Nat × Nat) :=
  ((List.range 64).map fun i => (leAt bytes (16 * i) 8, leAt bytes (16 * i + 8) 4)).takeWhile fun e => e.2 != 0

/-! ### Checks and acceptance (10 R494–R496) -/

/-- A way is reserved at the acceptance of a command that needs a copy (08 R381). -/
def reserveWay (b la : Nat) (v : Bobbin) (s : State) : State :=
  let op := v.job.op
  let fill := claimJob v && (op == 1 || op == 3 || (4 ≤ op && op ≤ 8) || op == 0x15)
  let sub := !claimJob v && op == 0x0D
  if v.home || (copyOf s la).isSome || !(fill || sub) || remoteGate s (4 ≤ op && op ≤ 8) v.cls == .deny then s
  else match (takeWay b la s).2 with
    | .got _ => (takeWay b la s).1
    | _ => s

/-- A job that passed its structure: checked, and completed with the status of the first failed check, or accepted (10 R494–R496;
09 R464). -/
def acceptJob (b : Nat) (v : Bobbin) (s : State) : State :=
  let n := v.job.ten
  match checkJob s v.job with
  | some st =>
    let s := setBob b v s
    let s := if st = stBadOpcode ∧ v.kind = .job then raise (324 + 8 * n) detNone (count (tenBase n + 0x410) 1 s) else s
    complete b { status := st } s
  | none =>
    let a := clampJob s v.job
    let job := { v.job with arg := a.1 }
    let nv := { lineBobbin s v.kind job with clamped := !a.2.isEmpty, ofrags := v.ofrags }
    let s := acceptBob b nv s
    let s := logClamps { kind := 1, ten := n, op := job.op } job.tag a.2 s
    if job.op = 0x21 then unmapAccept b s else reserveWay b job.la nv s

/-! ### The argument and the tables (09 R436, R454, R455; 10 R548, R549) -/

/-- Where the reads of a bobbin stand: 0 the argument's table, 1 its fragments, 2 the output's table, 3 all read; for a pricking
8 its table, 9 its fragments, 10 all read. -/
def dmaStage (v : Bobbin) : Nat :=
  let after := if v.job.oind then 2 else 3
  match v.par with
  | 0 => if v.job.iind then 0 else after
  | 1 => if v.afrags.isEmpty || decide (v.job.alen ≤ v.job.arg.length) then after else 1
  | 9 => if v.afrags.isEmpty || decide (argN v.job 4 4 ≤ v.out.length) then 10 else 9
  | k => k

/-- The read that a bobbin needs next: its use, address and length. -/
def nextRead (b : Nat) (v : Bobbin) : Option (DmaUse × Nat × Nat) :=
  let f := v.afrags.headD (0, 0)
  match dmaStage v with
  | 0 => some (.table b, v.job.iaddr, 1024)
  | 1 => some (.frag b, f.1, min f.2 (v.job.alen - v.job.arg.length))
  | 2 => some (.outTable b, v.job.oaddr, 1024)
  | 8 => some (.prickTable b, argN v.job 8 8, 1024)
  | 9 => some (.prick b, f.1, min f.2 (argN v.job 4 4 - v.out.length))
  | _ => none

/-- The next read of a waiting bobbin, or what follows the last. -/
def goOnReading (b : Nat) (s : State) : State :=
  match bobOf s b with
  | none => s
  | some v =>
    if v.wait ≠ .dma ∨ s.ten.dma.any (fun e => dmaForBob b e.2) then s
    else match nextRead b v with
      | some r => if dmaFull s then s else dmaRead v.job.ten r.2.1 r.2.2 r.1 s
      | none => if dmaStage v = 10 then setBob b { v with wait := .ready, par := 10 } s else acceptJob b v s

/-- Reads that waited for one of the 32 places (09 R434). -/
def dmaKick (s : State) : State :=
  let s := each (s.ten.bobs.filter fun e => e.2.wait == .dma) (fun s e => goOnReading e.1 s) s
  each (List.range 8) (fun s n =>
    if (tenOf s n).idxPend ∧ !dmaFull s then readIndex n true (modTen n (fun t => { t with idxPend := false }) s) else s) s

/-- Bytes of an SPI tenant's fragments (09 R446, R455). -/
def ramFrags (s : State) (n : Nat) (fs : List (Nat × Nat)) : List Byte := (fs.map fun f => ramBytes s n f.1 (min f.2 4096)).flatten

/-- The argument of a fetched job: an SPI tenant's is read from the ring RAM at once. -/
def startArgs (b : Nat) (v : Bobbin) (s : State) : State :=
  let n := v.job.ten
  if isSpi s n then
    let table := fun a => fragsOf (ramBytes s n a 1024)
    let job := if v.job.iind then { v.job with arg := (ramFrags s n (table v.job.iaddr)).take v.job.alen } else v.job
    acceptJob b { v with job := job, ofrags := if v.job.oind then table v.job.oaddr else [] } s
  else goOnReading b (setBob b { v with wait := .dma, par := 0 } s)

/-- A fetched job goes on: a malformed one completes with any status (log 19), one that fails the first checks completes, any other has
its argument read. -/
def beginJob (b : Nat) (v : Bobbin) (ok : Bool) (s : State) : State :=
  if !ok then
    let s := { s with tm := { s.tm with draws := s.tm.draws + 1 } }
    complete b { status := (Config.malformedStatus s.tm.draws).toNat } (setBob b v s)
  else if !opcodeOk v.job.op || (stewardOnly v.job.op && v.job.ten != 0) then acceptJob b v s
  else startArgs b v s

/-- The job at the head of tenant `n`'s ring is fetched into bobbin `b` (07 R375, 09 R477). -/
def fetchInto (n b : Nat) (es : List (List Byte)) (s : State) : State :=
  let slots := (List.range es.length).map (sqSlot s n)
  let pushed := (slots.filter fun k => (tget (tenOf s n).latch k).isSome).length
  let j := jobOf s n es
  let s := modTen n (fun t => { t with
    sqHead := (t.sqHead + es.length) % sqSize s n
    latch := t.latch.filter fun e => !slots.contains e.1
    fetched := t.fetched.filter fun e => !slots.contains e.1
    chainWait := false }) s
  let s := { s with dbg := { s.dbg with step := false }, ten := { s.ten with rr := n } }
  let s := perfN 9 pushed (some n) (perf 3 (some n) (count (tenBase n + 0x400) 1 s))
  beginJob b (lineBobbin s .job j) (chainOk es j) s

/-- Tenant `n` has work and permission to fetch, and a free bobbin in its quota (07 R375; 09 R474, R477, R479; 10 R558; 12 R625). -/
def canFetch (s : State) (n : Nat) : Bool :=
  let t := tenOf s n
  enabled s n && ringEn s n && !t.rst && !t.stall && serving s && s.ten.cmds.isEmpty && (!s.dbg.halted || s.dbg.step) && decide (sqAvail s n ≠ 0)
    && decide (busyBobs s n < t.quota)

/-- The sequencer's turn at tenant `n`; true when it fetched a job. -/
def fetchTurn (n : Nat) (s : State) : State × Bool :=
  if !canFetch s n then (s, false)
  else match headChain s n, freeIn s 32 480 with
    | .job es, some b => (fetchInto n b es s, true)
    | .job _, none => (s, false)
    | .missing i, _ => (if (tenOf s n).dmaErr then s else sqRead n i s, false)
    | .uncovered, _ => (modTen n (fun t => { t with chainWait := true }) s, false)

/-- The CMD entries of the commissioning image that wait begin, in image order, as T0's quota has bobbins for them (08 R415). An entry
whose opcode is outside 20h–25h is skipped. -/
def startCmds : List (Nat × List Byte) → State → State
  | [], s => { s with ten := { s.ten with cmds := [] } }
  | (ix, e) :: rest, s =>
    let op := leAt e 0 1
    if op < 0x20 ∨ 0x25 < op then startCmds rest (raise 5 (detN ix 0) s)
    else if (tenOf s 0).quota ≤ busyBobs s 0 then { s with ten := { s.ten with cmds := (ix, e) :: rest } }
    else match freeIn s 32 480 with
      | none => { s with ten := { s.ten with cmds := (ix, e) :: rest } }
      | some b =>
        let j := jobOf s 0 [e]
        startCmds rest (beginJob b (lineBobbin s (.cmd ix) j) (chainOk [e] j) s)

/-- Waiting CMD entries go on, where the sequencer serves. -/
def goOnCmds (s : State) : State :=
  if serving s && !s.dbg.halted && !s.ten.cmds.isEmpty then startCmds s.ten.cmds s else s

/-- JOB_FETCH: the tenants in turn after the one served last, until one job is fetched (07 R375). -/
def execJobFetch (s : State) : Out3 :=
  let s := goOnCmds s
  .next (((List.range 8).foldl (fun (p : State × Bool) i =>
    if p.2 then p else fetchTurn ((s.ten.rr + 1 + i) % 8) p.1) (s, false)).1)

/-- BAD_OPCODE: the job at the head of tenant `t`'s ring has an opcode that is not implemented; it completes with BAD_OPCODE
(09 R464). Where the head is another job the state stays as it is (log 44). -/
def execBadOpcode (t : Nat) (s : State) : Out3 :=
  match headChain s t with
  | .job es => if opcodeOk (jobOf s t es).op then .next s else .next (fetchTurn t s).1
  | _ => .next s

/-! ### DMA_READ_COMPLETE (09 R436) -/

/-- A read of the rings failed: what it read is discarded, DMAERR is set and DMA_ERROR raised. -/
def ringReadFailed (n : Nat) (s : State) : State :=
  raise (326 + 8 * n) detNone (count (tenBase n + 0x41C) 1 (modTen n (fun t => { t with dmaErr := true }) s))

/-- SQ entries that a read brought. -/
def sqArrived (n first k : Nat) (bytes : List Byte) (s : State) : State :=
  each (List.range k) (fun s d => modTen n (fun t => { t with fetched := tset t.fetched (first + d) (slice bytes (64 * d) 64) }) s)
    (modTen n (fun t => { t with dmaErr := false }) s)

/-- What a read for a bobbin brought. -/
def bobArrived (b : Nat) (f : Bobbin → Bobbin) (s : State) : State := goOnReading b (modBob b f s)

/-- A read ended: its data go where they were wanted, or it failed. A failed argument or table ends the job with DATA_ERROR. -/
def dmaArrived (u : DmaUse) (r : DmaResult) (s : State) : State :=
  match u, r with
  | .sq n first k, .data bs => if k = 0 then s else sqArrived n first k bs s
  | .sq n _ k, .failed => if k = 0 then s else ringReadFailed n s
  | .idx n, .data bs => trimLatch n (takeIndex n bs true (modTen n (fun t => { t with dmaErr := false }) s))
  | .head n, .data bs => takeIndex n bs false s
  | .idx n, .failed => ringReadFailed n s
  | .head n, .failed => ringReadFailed n s
  | .table b, .data bs => bobArrived b (fun v => { v with afrags := fragsOf bs, par := 1 }) s
  | .frag b, .data bs => bobArrived b (fun v => { v with
      job := { v.job with arg := (v.job.arg ++ bs).take v.job.alen }, afrags := v.afrags.drop 1 }) s
  | .outTable b, .data bs => bobArrived b (fun v => { v with ofrags := fragsOf bs, par := 3 }) s
  | .prickTable b, .data bs => bobArrived b (fun v => { v with afrags := fragsOf bs, par := 9 }) s
  | .prick b, .data bs => bobArrived b (fun v => { v with out := (v.out ++ bs).take (argN v.job 4 4), afrags := v.afrags.drop 1 }) s
  | .table b, .failed => complete b { status := stDataError } s
  | .frag b, .failed => complete b { status := stDataError } s
  | .outTable b, .failed => complete b { status := stDataError } s
  | .prickTable b, .failed => complete b { status := stDataError } s
  | .prick b, .failed => complete b { status := stDataError } s

/-- DMA_READ_COMPLETE: the read with identifier `id` ends; one that is not outstanding changes nothing (log 44). -/
def execDmaReadComplete (id : Nat) (r : DmaResult) (s : State) : Out3 :=
  match tget s.ten.dma id with
  | none => .next s
  | some u => .next (dmaKick (dmaArrived u r { s with ten := { s.ten with dma := tdel s.ten.dma id } }))

/-! ### The timeout of a command (10 R498–R500, 06 R337) -/

/-- A pending picot arm or cancel goes on without its bobbin (09 R480). -/
def detachPicot (b : Nat) (s : State) : State :=
  { s with pic := s.pic.map fun e => (e.1, { e.2 with
      arm := e.2.arm.map fun a => if a.1 = b then (512, a.2) else a
      cancel := e.2.cancel.map fun c => if c = b then 512 else c }) }

/-- What a command leaves behind when it ends early: anchors that MAP_REGION placed, the place of a SET_ATTR in the commit, the
binding of a BIND_CAN, the reads by DMA, the pending change of a picot command, whose channel stays as it was (10 R536), the page
writes of a pricking not begun, and a proposal that has not left (10 R543, R549). -/
def letGo (b : Nat) (v : Bobbin) (s : State) : State :=
  let s := forgetReads (dmaForBob b) s
  let mine := s.pat.props.filter fun p => p.bob == some b && !p.sent
  let s := { s with
    kee := { s.kee with pend := s.kee.pend.filter fun w => match w with
      | .prick x _ _ _ => x != b
      | _ => true }
    pat := { s.pat with props := s.pat.props.filter fun p => !(p.bob == some b && !p.sent) }
    lan := { s.lan with txq := s.lan.txq.filter fun i => match i.msg with
      | .patSwitch m => !(m.step == 0 && mine.any fun p => p.target == m.target)
      | _ => true } }
  let s := { s with home := { s.home with attrWait := s.home.attrWait.filter (· != b) } }
  if v.job.op = 0x20 ∧ v.wait = .drain then releaseAnchors (mapRegionOf v.job) s
  else if v.job.op = 0x23 ∧ v.wait = .answer then releaseBind v.par s
  else if v.job.op = 0x32 ∨ v.job.op = 0x33 then
    { s with pic := s.pic.map fun e => (e.1, { e.2 with
        arm := e.2.arm.filter fun a => a.1 != b
        cancel := e.2.cancel.filter fun c => c != b }) }
  else s

/-- The command has begun a step that 10 names irreversible (10 R543, R547, R549): PROPOSE has left, or a page of the pricking is
being written. -/
def irreversible (s : State) (b : Nat) : Bool :=
  s.pat.props.any (fun p => p.bob == some b && p.sent)
    || (match s.kee.cur with
      | some (.prick x _ _ _, _, _) => x == b
      | _ => false)
    || (match bobOf s b with
      | some v => v.job.op == 0x46 && v.wait == .keep && v.par == 11
      | none => false)

/-- The timeout of bobbin `b`, in units of the local clock (10 R498: 0.1 ms units). -/
def tmoUnits (v : Bobbin) : Nat := v.job.tmo * 800000

/-- A timeout runs for jobs and for CMD entries; the node's own bobbins have none (10 R498). -/
def hasTmo (v : Bobbin) : Bool :=
  match v.kind with
  | .job | .cmd _ => true
  | _ => false

/-- COMMAND_TIMEOUT (10 R498): NOT_LOCKED where it is time SYNC or HOLDOVER that did not come (02 R96). Before the time has passed nothing
happens (log 44). -/
def execCommandTimeout (b : Nat) (s : State) : Out3 :=
  match bobOf s b with
  | none => .next s
  | some v =>
    if s.tm.clk - v.accClk < tmoUnits v ∨ !hasTmo v ∨ v.wait = .cqFull ∨ v.wait = .dma ∧ v.par < 4 ∨ irreversible s b then .next s
    else .next (cutOff b (if v.wait = .sync ∧ !timed s then stNotLocked else stTimeout) (letGo b v s))

end Sys2Proof.Machine
end

