-- ==== Sys2Proof/Machine/Phase.lean ====
section
/-! DEFINITION. Phase time: the time state, the zero-cross inputs and the mains loop, the phase check, and what every jam does
(02 R53–R75, R92–R100, R112–R121). Times are in 0.125 ns units of the local clock, phases in 1/256 pu. -/

namespace Sys2Proof.Machine

/-! ### Small measures -/

/-- A 32-bit phase difference as a signed number of 1/256 pu (02 R89 wrap24). -/
def phDiff (a b : Phase) : Int := (a - b).toInt

/-- A phase difference in 0.125 ns units at a period. -/
def phTime (d : Int) (period : Nat) : Nat := d.natAbs * (2 * period) / 2 ^ 32

/-- Units of the local clock in one hoop of a period. -/
def hoopUnits (period : Nat) : Nat := 2 * period

/-- Rank of a role, 4 for none (02 R67, R83). -/
def ownRank (s : State) : Nat :=
  if holdsRole s 2 then 0 else if holdsRole s 3 then 1 else if holdsRole s 0 then 2 else if holdsRole s 1 then 3 else 4

/-- Precedence keys compared in order (02 R67): `a` wins over `b`. -/
def outranks (a b : Nat × Nat × Nat) : Bool :=
  decide (a.1 < b.1) || (a.1 == b.1 && (decide (a.2.1 < b.2.1) || (a.2.1 == b.2.1 && decide (a.2.2 < b.2.2))))

/-- The tenant phase input is valid (02 R66). -/
def tenValid (s : State) : Bool := s.zx.ten1 && s.zx.ten2

/-- Tier of the own local source (02 R65). -/
def tierNow (s : State) : Nat :=
  match rfld s 0x2000 2 2 with
  | 0 => if s.zx.srcValid then 0 else 2
  | 1 => if tenValid s then 1 else 2
  | _ => 2

/-- Zero-cross input `i` is enabled. -/
def zxOn (s : State) (i : Nat) : Bool := rbit s 0x2034 i

/-- Plausible inputs in the last hoop. -/
def zxPlausible (s : State) : Nat := (s.zx.ins.filter (·.valid)).length

/-- The largest selectable bandwidth no greater than the configured one and a tenth of the sample rate (02 R69): `tab` gives twice
each bandwidth in Hz by its code, and there are `n` samples in a hoop of `period`. Where no selectable value is that small the loop runs at
the lowest, code 0 (DESIGN CHOICE, log 116). -/
def effBw (tab : List Nat) (conf n period : Nat) : Nat :=
  ((List.range (conf + 1)).filter fun c => 5 * tab.getD c 0 * period ≤ n * 4000000000).foldl max 0

/-- Samples that the mains loop takes in a hoop, and the period of that hoop, by the source that LSRC names; none while it has had no
sample in the last two hoops (02 R65, R69). -/
def loopRate (s : State) : Option (Nat × Nat) :=
  match rfld s 0x2000 2 2 with
  | 0 => if s.zx.samp1 || s.zx.samp2 then some (zxPlausible s, max 1 s.zx.period) else none
  | 1 => if s.zx.ten0 || s.zx.ten1 || s.zx.ten2 then some (1, max 1 s.tm.tperiod) else none
  | _ => none

/-- PHT_LOCKSTAT.BWM_EFF (02 R69); 0 before the unit runs. -/
def bwMains (s : State) : Nat :=
  let conf := rfld s 0x2000 6 2
  if s.dev.st = .off ∨ s.dev.st = .start then 0
  else match loopRate s with
    | some (n, period) => effBw [1, 2, 4, 10] conf n period
    | none => conf

/-- PHT_LOCKSTAT.BWF_EFF. -/
def bwFollow (s : State) : Nat :=
  if s.dev.st = .off ∨ s.dev.st = .start then 0 else effBw [10, 20, 40] (rfld s 0x2000 8 2) (nRow s) s.tm.period

/-- Code of a time state in PHT_LOCKSTAT.TSTATE. -/
def tsCode : TState → Nat
  | .free => 0
  | .acquire => 1
  | .sync => 2
  | .holdover => 3

/-- PHT_LOCKSTAT (02 R123). -/
def lockStat (s : State) : Nat :=
  tsCode s.tm.tstate + flagAt s.tm.coarse 2 + flagAt s.tm.master 3 + flagAt s.tm.locked 4 + flagAt s.tm.tvalid 5 + flagAt s.tm.tfree 6
    + flagAt s.tm.virt 7 + tierNow s * 2 ^ 8 + s.tm.refLane % 4 * 2 ^ 10 + bwMains s * 2 ^ 12 + bwFollow s * 2 ^ 14

/-! ### The phase check (02 R98–R100) -/

/-- The check is valid. -/
def pckCond (s : State) : Bool :=
  (s.tm.tstate == .sync || s.tm.master) && s.tm.tvalid && s.zx.samp1 && !s.zx.rotErr && s.zx.rot == s.tm.rot && !s.zx.outOfRange

/-- PHT_PCKSTAT.OK. -/
def pckOk (s : State) : Bool := s.zx.pckValid && !s.zx.alarm

/-- The check brought up to date; PCK_ALARM when OK changes from `was` (02 R100). -/
def pckSettle (was : Bool) (s : State) : State :=
  let s := { s with zx := { s.zx with pckValid := pckCond s, pckRotErr := s.zx.rotErr || s.zx.rot != s.tm.rot } }
  if pckOk s = was then s
  else raise 198 (leBytes 1 (b2n was) ++ leBytes 1 (b2n (pckOk s)) ++ [0, 0] ++ leBytes 4 (s.zx.diff.signExtend 32).toNat ++ leBytes 8 0) s

/-- The check brought up to date after a change of one of its conditions. -/
def pckUpdate (s : State) : State := pckSettle (pckOk s) s

/-- One valid local sample against the true phase: d in whole pu, rounded down (DESIGN CHOICE, log 117), and the alarm's counts
(02 R98, R99). -/
def pckSample (d : Int) (s : State) : State :=
  let pu := d / 256
  let thr := rfld s 0x2050 0 24
  let n := rfld s 0x2050 24 4
  let hi := if thr < pu.natAbs then s.zx.overCnt + 1 else 0
  let lo := if pu.natAbs ≤ thr - thr / 8 then s.zx.underCnt + 1 else 0
  pckSettle (pckOk s) { s with zx := { s.zx with
    diff := BitVec.ofInt 24 pu, overCnt := hi, underCnt := lo
    alarm := if n ≤ hi then true else if n ≤ lo then false else s.zx.alarm } }

/-! ### Picot levels (02 R103–R117) -/

/-- A picot channel. -/
def chOf (s : State) (n : Nat) : PicotCh := tgetD s.pic n {}

/-- A picot channel changed. -/
def modCh (n : Nat) (f : PicotCh → PicotCh) (s : State) : State := { s with pic := tset s.pic n (f (chOf s n)) }

/-- Period of a channel's timebase. -/
def tbPeriod (s : State) (row : Bool) : Nat := if row then s.tm.period else s.tm.tperiod

/-- Present phase of a timebase in pu. -/
def tbPu (s : State) (row : Bool) : Nat := (if row then rowPhase s else truePhase s).toNat / 256

/-- Width of a channel's pulse in pu (02 R104). -/
def widthPu (s : State) (p : PicotPar) : Nat :=
  if p.wunit then p.b.toNat * 20 * 2 ^ 24 / max 1 (2 * tbPeriod s p.tb) else p.b.toNat

/-- Leading edges of an output channel, with the width that follows each (02 R104). -/
def pulses (s : State) (p : PicotPar) : List (Nat × Nat) :=
  match p.mode with
  | 1 => [(p.a.toNat, widthPu s p)]
  | 2 => [(p.a.toNat, (p.b.toNat + 2 ^ 24 - p.a.toNat) % 2 ^ 24)]
  | 3 =>
    let n := max 1 p.c.toNat
    (List.range n).map fun k => ((p.a.toNat + (2 * k * 2 ^ 24 + n) / (2 * n)) % 2 ^ 24, widthPu s p)
  | _ => []

/-- The edge quantum in which an edge at a phase is emitted, by the number of its boundary counted from phase 0 (02 R6, R103; that the
400 MHz grid passes through phase 0 is a DESIGN CHOICE, log 118). -/
def quantumOf (period pu : Nat) : Nat :=
  if 167772160 < period then pu else ceilDiv (pu * (2 * period)) (20 * 2 ^ 24)

/-- A WINDOW whose start and stop fall in one quantum emits no pulse (02 R112). -/
def emptyWindow (s : State) (p : PicotPar) : Bool :=
  p.mode == 2 && quantumOf (tbPeriod s p.tb) p.a.toNat == quantumOf (tbPeriod s p.tb) p.b.toNat

/-- Active at phase `x` by a pulse whose leading edge lies in this hoop. -/
def inPulse (s : State) (p : PicotPar) (x : Nat) : Bool :=
  !emptyWindow s p && (pulses s p).any fun e => e.1 ≤ x && decide (x - e.1 < e.2)

/-- Active at phase `x` by a pulse that began in the hoop before (02 R105). -/
def inTail (s : State) (p : PicotPar) (x : Nat) : Bool :=
  !emptyWindow s p && (pulses s p).any fun e => decide (x < e.1) && decide (x + 2 ^ 24 - e.1 < e.2)

/-- Is it an output mode? -/
def outMode (p : PicotPar) : Bool := p.mode == 1 || p.mode == 2 || p.mode == 3

/-- Picot outputs run from ACQUIRE on (02 R121). -/
def picRuns (s : State) : Bool :=
  match s.dev.st with
  | .acquire | .run | .inaug | .shutdown => true
  | _ => false

/-- The level that a channel's parameters prescribe at the present phase (02 R104, R105, R110, R117). -/
def prescribed (s : State) (c : PicotCh) : Bool :=
  if !picRuns s || c.parked then false
  else
    let x := tbPu s c.par.tb
    let first := hoopOf s c.par.tb == c.armHoop
    outMode c.par && (inPulse s c.par x || (!first && inTail s c.par x))

/-- The leading edge of the pulse of parameters `p` that is active now, by the hoop and the phase it lies in: with `before`, of a pulse whose
leading edge lay in the hoop before (02 R105). -/
def activeLead (s : State) (p : PicotPar) (before : Bool) : Option (Word × Nat) :=
  if emptyWindow s p then none
  else
    let x := tbPu s p.tb
    let h := hoopOf s p.tb
    let tail := ((pulses s p).find? fun e => decide (x < e.1) && decide (x + 2 ^ 24 - e.1 < e.2)).map fun e => (h - 1, e.1)
    let lead := ((pulses s p).find? fun e => decide (e.1 ≤ x) && decide (x - e.1 < e.2)).map fun e => (h, e.1)
    if before then tail else lead.or tail

/-- The previous parameters, while the pulse of theirs that was active as the new ones took effect runs to its end on its own timebase
(02 R110). -/
def oldTail (s : State) (c : PicotCh) : Option PicotPar :=
  c.oldPar.filter fun p => c.oldPulse && picRuns s && !c.parked && (pulses s p).any fun e =>
    let at_ := (hoopOf s p.tb - c.oldHoop).toNat * 2 ^ 24 + tbPu s p.tb
    e.1 == c.oldLead && decide (e.1 ≤ at_) && decide (at_ - e.1 < e.2)

/-- The level of the output: its parameters in force decide, and until it ends the pulse of the previous ones; each is active at the level
of its own POL (02 R104, R110). -/
def outLevel (s : State) (c : PicotCh) : Bool :=
  match oldTail s c with
  | some p => if c.active then !c.par.pol else !p.pol
  | none => c.active != c.par.pol

/-- A jam stepped a timebase: outputs on it take the level of the new phase, SKIP is set and PICOT_SKIP raised (02 R116). -/
def picStep (row : Bool) (s : State) : State :=
  each (List.range 24) (fun s n =>
    let c := chOf s n
    if outMode c.par && c.par.tb == row then
      raise 450 (detN n 0) (modCh n (fun c => { c with skip := true, active := prescribed s c }) s)
    else s) s

/-- Outputs with ONLOSS = PARK take their inactive level when time is lost (02 R117). ONLOSS 0 is PARK (DEDUCED, log 50). -/
def picPark (s : State) : State :=
  each (List.range 24) (fun s n =>
    let c := chOf s n
    if outMode c.par && !c.par.onloss then modCh n (fun c => { c with parked := true, active := false }) s else s) s

/-! ### WAIT_PHASE (10 R534) -/

/-- The phase awaited has been reached in its hoop. -/
def phaseReached (s : State) (v : Bobbin) : Bool :=
  let row := bitOf (argB v.job 8) 0
  let h := hoopOf s row
  begun h v.due && (h != v.due || argN v.job 0 4 / 256 ≤ tbPu s row)

/-- WAIT_PHASE completes with the phase, its hoop and PHT_LOCKSTAT. -/
def phaseDone (b : Nat) (v : Bobbin) (s : State) : State :=
  let row := bitOf (argB v.job 8) 0
  jobDone b (if row then rowPhase s else truePhase s).toNat ((hoopOf s row).toNat + lockStat s % 65536 * 2 ^ 32) none s

/-- Waits that the present phase ends; while the sequencer is halted they wait on (10 R558). -/
def phaseWaiters (s : State) : State :=
  if s.dbg.halted then s
  else each (s.ten.bobs.filter fun e => e.2.wait == .phase && e.2.job.op == 0x31) (fun s e =>
    if phaseReached s e.2 then phaseDone e.1 e.2 s else s) s

/-- A jam stepped a timebase: picots and waits follow. -/
def stepped (row : Bool) (s : State) : State := phaseWaiters (picStep row s)

/-! ### Device and time state -/

/-- Code of a device state in GLB_STATE. -/
def devCode : DevState → Nat
  | .off => 0
  | .start => 1
  | .standby => 2
  | .acquire => 3
  | .run => 4
  | .inaug => 5
  | .shutdown => 6
  | .safe => 7

/-- The device state changes: DEV_STATE (01 R42, 12 event 1). -/
def setDev (st : DevState) (s : State) : State :=
  if s.dev.st = st then s
  else raise 1 (detST (devCode s.dev.st) (devCode st)) { s with dev := { s.dev with st := st } }

/-- The time state changes: TSTATE (02 R73). Coarse lock and the counts of R71 and R72 begin anew in ACQUIRE; HOLDOVER notes its time;
without lock, PARK outputs park (02 R117). -/
def setTime (ts : TState) (s : State) : State :=
  if s.tm.tstate = ts then s
  else
    let old := s.tm.tstate
    let s := { s with tm := { s.tm with
      tstate := ts
      coarse := if ts = .free ∨ ts = .acquire then false else s.tm.coarse
      jammed := if ts = .acquire then false else s.tm.jammed
      good := if ts = .acquire then 0 else s.tm.good
      bigHoops := 0, bigNow := false
      holdClk := if ts = .holdover then s.tm.clk else s.tm.holdClk } }
    let s := raise 192 (detST (tsCode old) (tsCode ts)) s
    let s := if ts = .free ∨ ts = .acquire then picPark s else s
    pckUpdate s

/-- The row phase at this instant, with its period. -/
def anchorRow (ph : Phase) (s : State) : State := { s with tm := { s.tm with rowClk := s.tm.clk, rowPh := ph } }

/-- The true phase at this instant. -/
def anchorTrue (ph : Phase) (s : State) : State := { s with tm := { s.tm with trueClk := s.tm.clk, truePh := ph } }

/-- The true phase's own anchor is brought to the phase it has now: where it stops being the row phase it goes on from there. -/
def freeTrue (s : State) : State := anchorTrue (truePhase s) s

/-- LOCKED changes: LOCK_CHANGE (12 event 199). While it is 1 the row phase and the true phase are one (02 R55): at the change to 1 the true
phase takes the row phase's value, at most the 1000 pu of 02 R93 away at a master (DESIGN CHOICE, log 119). -/
def setLocked (b : Bool) (s : State) : State :=
  if s.tm.locked = b then s
  else
    let s := freeTrue s
    raise 199 (detST (b2n s.tm.locked) (b2n b)) { s with tm := { s.tm with locked := b, tperiod := if b then s.tm.period else s.tm.tperiod } }

/-- TVALID changes: TVALID_CHANGE (12 event 200). At 0 the true phase coasts (02 R118), and at a master the true frequency is outside the
lock band at once (02 R92, R94). -/
def setTvalid (b : Bool) (s : State) : State :=
  if s.tm.tvalid = b then s
  else
    let s := if b || s.tm.master then setLocked (s.tm.locked && b) (freeTrue s) else s
    let s := { s with tm := { s.tm with
      tvalid := b
      tfree := !b
      virt := if b then false else s.tm.virt
      virtNext := if b then false else s.tm.virtNext
      inlb := s.tm.inlb && (b || !s.tm.master)
      inBand := 0
      tlossClk := if b then s.tm.tlossClk else s.tm.clk } }
    pckUpdate (raise 200 (detST (b2n (!b)) (b2n b)) s)

/-- Time acquisition begins or ends with the device state (02 R73, R121). -/
def timeForDev (s : State) : State :=
  match s.dev.st with
  | .acquire | .run | .inaug => if s.tm.tstate = .free then setTime .acquire s else s
  | .standby | .start => setTime .free { s with tm := { s.tm with master := false, following := false } }
  | _ => s

/-! ### The row and true phase set -/

/-- The period of the row hoop in force: while the true phase is the row phase, that of the true hoop too (02 R55). -/
def putPeriod (p : Nat) (s : State) : State :=
  { s with tm := { s.tm with period := p, tperiod := if tied s then p else s.tm.tperiod } }

/-- A new row-hoop period from now on. -/
def setPeriod (p : Nat) (s : State) : State := putPeriod p (anchorRow (rowPhase s) s)

/-- A new true-hoop period from now on. -/
def setTperiod (p : Nat) (s : State) : State :=
  let s := anchorTrue (truePhase s) s
  { s with tm := { s.tm with tperiod := p } }

/-! ### The local sources (02 R56–R66, R70, R119) -/

/-- Phase of the mains loop at clock value `t` (02 R68). -/
def loopPhase (s : State) (t : Int) : Phase :=
  s.zx.loopPh + BitVec.ofInt 32 ((t - s.zx.loopClk) * 2 ^ 32 / (2 * max 1 s.zx.loopPeriod))

/-- True phase at clock value `t`. -/
def trueAtClk (s : State) (t : Int) : Phase :=
  if tied s then s.tm.rowPh + BitVec.ofInt 32 ((t - s.tm.rowClk) * 2 ^ 32 / (2 * max 1 s.tm.period))
  else s.tm.truePh + BitVec.ofInt 32 ((t - s.tm.trueClk) * 2 ^ 32 / (2 * max 1 s.tm.tperiod))

/-- The own tier as it is now; a change starts its steady time anew (02 R65, R79). -/
def noteTier (s : State) : State :=
  if tierNow s = s.tm.tier then s else { s with tm := { s.tm with tier := tierNow s, tierHoops := 0 } }

/-- The true source of a master: valid while its own local source is TVALID (02 R70, R74). Losing a source it had sets MHOLD. -/
def masterSource (s : State) : State :=
  let s := noteTier s
  if !s.tm.master then s
  else
    let own := decide (tierNow s < 2)
    let s := { s with tm := { s.tm with mhold := !own && (s.tm.mhold || s.tm.ownSrc), ownSrc := own } }
    setTvalid (own && decide (4 ≤ s.zx.tvCount)) s

/-- A GP pin of function CTC is connected (14 R678). -/
def ctcConnected (s : State) : Bool :=
  (List.range 24).any fun k => (tgetD s.dev.pins k (0, false, 1, false)).1 == 4

/-- Whether the local zero-cross source is valid (02 R63); ZX_RANGE once per excursion (02 R119). -/
def zxSource : State → State := instant fun s =>
  let inRange := decide (50000000 ≤ s.zx.period ∧ s.zx.period ≤ 2000000000)
  let ok := s.zx.samp1 && s.zx.samp2 && inRange && (!rbit s 0x2034 4 || (s.zx.ctc && ctcConnected s) || rbit s 0x2000 14)
  let out := s.zx.period != 0 && !inRange
  let s := if out && !s.zx.outOfRange then raise 197 detNone s else s
  masterSource (pckUpdate { s with zx := { s.zx with srcValid := ok, outOfRange := out } })

/-- A period within 2 Hz to 80 Hz (02 R68). -/
def tracked (p : Nat) : Nat := max 50000000 (min 2000000000 p)

/-- The most by which the mains loop is off its sample, in 1/256 pu, once it tracks the mains at a bandwidth of 2 Hz: 2330 pu while the mains
hold or ramp steadily, 46603 pu in the two hoops after a ramp starts or stops (02 R68; log 115). -/
def loopBound (n : Nat) : Int := 256 * (if Config.mainsSteady n then 2330 else 46603)

/-- What the mains loop leaves of the difference `d` at a sample: free (log 10), within the bound of 02 R68 where that applies. -/
def loopLeft (s : State) (d : Phase) : Int :=
  let n := s.tm.draws
  let left := (d - Config.mainsTrim (bwMains s) d n).toInt
  if bwMains s = 2 ∧ 4 ≤ s.zx.tvCount then max (-loopBound n) (min (loopBound n) left) else left

/-- One sample of the mains loop: an estimate of phase `ph` at clock `t` (02 R68–R70). The corrections are free within R68's limits
(log 10, log 115). -/
def loopSample (t : Int) (ph : Phase) (s : State) : State :=
  let d := ph - loopPhase s t
  let n := s.tm.draws
  { s with
    zx := { s.zx with
      loopClk := s.tm.clk, loopPh := loopPhase s s.tm.clk + (d - BitVec.ofInt 32 (loopLeft s d))
      loopPeriod := tracked (Config.mainsPeriod (bwMains s) d n) }
    tm := { s.tm with draws := n + 1 } }

/-- A sample within 4660 pu of the loop (02 R70). -/
def nearLoop (s : State) (t : Int) (ph : Phase) : Bool := decide ((phDiff ph (loopPhase s t)).natAbs ≤ 4660 * 256)

/-- A hoop more, or none, of the consecutive hoops whose local samples lie within 4660 pu of the loop (02 R70). -/
def countTv (near : Bool) (s : State) : State := { s with zx := { s.zx with tvCount := if near then s.zx.tvCount + 1 else 0 } }

/-- A master's true phase is steered toward its mains loop by its period, never by a step (02 R80); the steering is free (log 10). While the
rows are locked it is the row phase, which `masterPeriod` steers. -/
def masterTrue (s : State) : State :=
  if s.tm.master && s.tm.tvalid && !tied s && decide (tierNow s < 2) then
    let d := loopPhase s s.tm.clk - truePhase s
    let s := setTperiod (tracked (Config.trueSteer (bwMains s) s.zx.loopPeriod d s.tm.draws)) s
    { s with tm := { s.tm with draws := s.tm.draws + 1 } }
  else s

/-- Two estimates agree within PHT_ZXTOL, modulo the period (02 R61). -/
def agree (s : State) (a b : Int) : Bool :=
  let per : Int := 2 * max 1 s.zx.period
  let d := (a - b) % per
  let tol : Int := (rfld s 0x2038 0 24 : Int) * per / 2 ^ 24
  decide (d ≤ tol ∨ per - d ≤ tol)

/-- The rotation that the last crossings of R58 show (02 R60). -/
def rotSeen (s : State) : Option Bool :=
  match (s.zx.ins.getD 0 {}).cross, (s.zx.ins.getD 1 {}).cross with
  | some u, some v =>
    let per : Int := 2 * max 1 s.zx.period
    let d : Int := (v - u) % per
    let tol : Int := (rfld s 0x2038 0 24 : Int) * per / 2 ^ 24
    if (d - per / 3).natAbs ≤ tol.natAbs then some false
    else if (d - 2 * per / 3).natAbs ≤ tol.natAbs then some true
    else none
  | _, _ => none

/-- The rotation decided over two consecutive hoops; once one has been detected, ROTERR and ZX_ROTATION tell that it differs from ROT_EXP
(02 R60). A master's TRUE carries the rotation of its own mains (02 R84). -/
def decideRot (s : State) : State :=
  if !(zxOn s 0 && zxOn s 1) then s
  else
    let r := rotSeen s
    let two := r.isSome && r == s.zx.rotPrev
    let s := { s with zx := { s.zx with rot := if two then r.getD s.zx.rot else s.zx.rot, rotKnown := s.zx.rotKnown || two, rotPrev := r } }
    let e := s.zx.rotKnown && s.zx.rot != rbit s 0x2034 5
    let was := s.zx.rotErr
    let s := { s with zx := { s.zx with rotErr := e }, tm := { s.tm with rot := if s.tm.master then s.zx.rot else s.tm.rot } }
    if e && !was then raise 195 detNone s else s

/-- The mean of estimates of one phase, each taken at the hoop nearest the first (02 R61). -/
def meanEst (s : State) (ts : List Int) : Int :=
  match ts with
  | [] => 0
  | a :: _ =>
    let per : Int := 2 * max 1 s.zx.period
    let near := fun (t : Int) => (t - a + per / 2) % per - per / 2
    a + (ts.map near).sum / ts.length

/-- The end of a local hoop: plausibility, the local sample, the loop, the alarm (02 R60–R63, R69, R70, R98). An input's faulted mark
ends with the next hoop in which it is plausible (DESIGN CHOICE, log 120). -/
def closeLocalHoop : State → State := instant fun s =>
  let on := (List.range 3).filter (zxOn s)
  let ests := on.filterMap fun i => ((s.zx.ins.getD i {}).est).map fun e => (i, e)
  let single := decide (on.length = 1)
  let good := if single then ests else ests.filter fun a => ests.any fun b => b.1 != a.1 && agree s a.2 b.2
  let ok := if single then decide (good.length = 1) else decide (2 ≤ good.length)
  let isGood := fun (i : Nat) => good.any fun e => e.1 == i
  let fresh := on.filter fun i => !isGood i && !single && (s.zx.ins.getD i {}).bad == 1
  let ins := (List.range 3).map fun i =>
    let x := s.zx.ins.getD i {}
    if !zxOn s i then { x with est := none, valid := false }
    else if isGood i then { x with est := none, valid := true, bad := 0, faulted := false }
    else { x with est := none, valid := false, bad := x.bad + 1, faulted := x.faulted || (!single && decide (1 ≤ x.bad)) }
  let s := { s with zx := { s.zx with ins := ins, plausOff := single, samp2 := s.zx.samp1, samp1 := ok } }
  let s := each fresh (fun s i => raise 196 (detN i 0) s) s
  let s := decideRot s
  let mean := meanEst s (good.map (·.2))
  let zxLsrc := decide (rfld s 0x2000 2 2 = 0)
  let s := if zxLsrc then countTv (ok && nearLoop s mean 0) s else s
  let s := if zxLsrc then each good (fun s e => loopSample e.2 0 s) s else s
  let s := zxSource s
  let s := if ok then pckSample (phDiff 0 (trueAtClk s mean)) s else pckUpdate s
  masterTrue s

/-- An estimate of phase 0 of U from input `i` (02 R58, R59). -/
def putEstimate (i : Nat) (t : Int) (s : State) : State :=
  let per : Int := 2 * s.zx.period
  let third : Int := if i = 0 then 0 else if (i = 1) = !s.zx.rot then 1 else 2
  let dly : Int := signed 32 (regCur s (0x203C + 4 * i))
  let c := t + dly * per / 2 ^ 24
  let e := c - third * per / 3
  let s := if ((s.zx.ins.getD i {}).est).isSome then closeLocalHoop s else s
  let s := { s with zx := { s.zx with ins := lmod s.zx.ins i fun x => { x with cross := some c, est := some e } } }
  if (List.range 3).all fun k => !zxOn s k || (s.zx.ins.getD k {}).missing || ((s.zx.ins.getD k {}).est).isSome then closeLocalHoop s else s

/-- Edges of the same polarity are ignored for a quarter of the period (02 R57). -/
def tooSoon (s : State) (last : Option Nat) (t : Nat) : Bool :=
  match last with
  | some l => decide (t < l + s.zx.period / 2)
  | none => false

/-- An accepted rising edge at clock `t`. The period is measured from the rising edge before it, also across a time in which the input was
missing (DESIGN CHOICE, log 121). -/
def zxRise (i t : Nat) (s : State) : State :=
  let x := s.zx.ins.getD i {}
  let per := match x.rise with
    | some r => (t - r) / 2
    | none => x.period
  let s := { s with zx := { s.zx with
    ins := lmod s.zx.ins i fun x => { x with level := true, prevRise := x.rise, rise := some t, period := per, missing := false }
    period := if x.rise.isSome then per else s.zx.period } }
  if rbit s 0x2034 3 && x.rise.isSome then putEstimate i t s else s

/-- An accepted falling edge at clock `t`: with CENTRE the estimate is the middle of the half-wave less a quarter period. -/
def zxFall (i t : Nat) (s : State) : State :=
  let x := s.zx.ins.getD i {}
  let s := { s with zx := { s.zx with ins := lmod s.zx.ins i fun x => { x with level := false, fall := some t, missing := false } } }
  match x.rise with
  | some r => if !rbit s 0x2034 3 && x.period != 0 then putEstimate i (((r : Int) + t) / 2 - x.period / 2) s else s
  | none => s

/-- ZX_EDGE: input `i` accepts a level change; its time is that of the first sample at the new level (02 R56–R59). An edge that R57 ignores
leaves the accepted level as it was (DESIGN CHOICE, log 122). -/
def execZxEdge (i : Nat) (rising : Bool) (s : State) : Out3 :=
  let t := s.tm.clk - rfld s 0x2034 8 8 * 8000
  let x := s.zx.ins.getD i {}
  .next (
    if 3 ≤ i ∨ !zxOn s i ∨ s.dev.st = .off ∨ x.level = rising then s
    else if rising then (if tooSoon s x.rise t then s else zxRise i t s)
    else if tooSoon s x.fall t then s else zxFall i t s)

/-- ZX_INPUT_MISSING: no accepted edge for 1.5 times the last measured period (02 R63). -/
def execZxInputMissing (i : Nat) (s : State) : Out3 :=
  let x := s.zx.ins.getD i {}
  let last := max (x.rise.getD 0) (x.fall.getD 0)
  .next (
    if 3 ≤ i ∨ x.missing ∨ s.tm.clk - last < 3 * x.period then s
    else
      let s := { s with zx := { s.zx with ins := lmod s.zx.ins i fun x => { x with missing := true, valid := false, est := none } } }
      if (List.range 3).all fun k => !zxOn s k || (s.zx.ins.getD k {}).missing then
        zxSource { s with zx := { s.zx with
          samp2 := s.zx.samp1, samp1 := false, tvCount := if rfld s 0x2000 2 2 = 0 then 0 else s.zx.tvCount } }
      else s)

/-- CTC_INPUT_CHANGE: the contactor-closed input, on a GP pin of function CTC (02 R63, 14 R678). -/
def execCtcInputChange (level : Bool) (s : State) : Out3 :=
  .next (if ctcConnected s then zxSource { s with zx := { s.zx with ctc := level } } else s)

/-- The tenant phase input (02 R66): a value for its most recent strobe, at most one true hoop old. -/
def tenPhase (t : Nat) (v : Word) (s : State) : State :=
  match s.zx.strobe with
  | none => s
  | some (c, _) =>
    if rfld s 0x2060 0 3 ≠ t ∨ hoopUnits s.tm.tperiod < s.tm.clk - c then s
    else
      let s := { s with zx := { s.zx with ten0 := true, tenNear := s.zx.tenNear && nearLoop s c v } }
      if rfld s 0x2000 2 2 = 1 then masterTrue (loopSample c v s) else s

/-- A true hoop of the tenant phase input ends: R66's two hoops, and R70's count where the input is the local source. -/
def tenHoop (s : State) : State :=
  let s := if rfld s 0x2000 2 2 = 1 then countTv (s.zx.ten0 && s.zx.tenNear) s else s
  { s with zx := { s.zx with ten2 := s.zx.ten1, ten1 := s.zx.ten0, ten0 := false, tenNear := true } }

/-- TEN_PHIN: from an enabled tenant. -/
def execTenPhin (t : Nat) (v : Word) (s : State) : Out3 := .next (if reachable s ∧ enabled s t then tenPhase t v s else s)

/-- PHT_SNAP: bit 0 latches both phases and both counters, and CBP_TSC, at one instant (02 R123, 11 R570). -/
def phaseSnap (s : State) : State :=
  { s with
    tm := { s.tm with snapHoop := s.tm.hoop, snapPh := rowPhase s, snapThoop := s.tm.thoop, snapTph := truePhase s }
    can := { s.can with tscSnap := tscNow s } }

/-- PHT_SNAP. -/
def execPhtSnap (v : Word) (s : State) : Out3 := .next (if reachable s ∧ v.getLsbD 0 then phaseSnap s else s)

/-! ### Time commands 30h, 31h, 34h (10 R532–R537) -/

/-- READ_PHASE: all values at one instant; NOT_LOCKED in FREE and ACQUIRE, with the values. -/
def execReadPhase (b : Nat) (s : State) : Out3 :=
  match readyJob s b 0x30 with
  | none => .next s
  | some v =>
    let rp := (rowPhase s).toNat
    let tp := (truePhase s).toNat
    let rec32 := leBytes 4 s.tm.hoop.toNat ++ leBytes 4 rp ++ leBytes 4 s.tm.thoop.toNat ++ leBytes 4 tp ++ leBytes 4 s.tm.period
      ++ leBytes 4 s.tm.tperiod ++ leBytes 2 (lockStat s) ++ leBytes 1 s.tm.mHk ++ leBytes 5 0
    .next (complete b {
      status := if timed s then okStatus v.replayed v.demoted v.clamped false else stNotLocked
      res0 := rp, res1 := s.tm.hoop.toNat + 2 ^ 32 * tp, out := if 32 ≤ v.job.olen then some rec32 else none } s)

/-- WAIT_PHASE: the hoop in which its phase is due (10 R534). -/
def execWaitPhase (b : Nat) (s : State) : Out3 :=
  match readyJob s b 0x31 with
  | none => .next s
  | some v =>
    let row := bitOf (argB v.job 8) 0
    let named := word (argN v.job 4 4)
    let now := hoopOf s row
    let due : Word := if named ≠ 0 then named else if tbPu s row < argN v.job 0 4 / 256 then now else now + 1
    .next (if named ≠ 0 ∧ begun now named then jobFail b stBadParam s else setBob b { v with wait := .phase, due := due } s)

/-- WAIT_PHASE_REACHED: before the phase is reached, or while the sequencer is halted, nothing happens (10 R534, R558). -/
def execWaitPhaseReached (b : Nat) (s : State) : Out3 :=
  match bobOf s b with
  | none => .next s
  | some v =>
    .next (if v.wait = .phase ∧ v.job.op = 0x31 ∧ !s.dbg.halted ∧ phaseReached s v then phaseDone b v s else s)

/-- SET_MAINS_SOURCE: the fields are staged; the command completes at the commit (10 R537). -/
def execSetMainsSource (b : Nat) (s : State) : Out3 :=
  match readyJob s b 0x34 with
  | none => .next s
  | some v =>
    let j := v.job
    let c := putBits (putBits (putBits (regHeld s 0x2000) 0 2 (argB j 0)) 2 2 (argB j 1)) 4 1 (argB j 2)
    let p := putBits (putBits (regHeld s 0x2060) 0 3 (argB j 3)) 3 5 (argB j 4)
    .next (waitAs b .commit (regStore 0x2060 p (regStore 0x2000 c s)))

end Sys2Proof.Machine
end

