-- ==== Sys2Proof/Machine/Reference.lean ====
section
/-! DEFINITION. The train reference: when a follower uses it, its errors, the jam, the time states it drives, and what a master
sends and steers (02 R71–R94, R118–R120, R723–R726; 03 R170). -/

namespace Sys2Proof.Machine

/-! ### Whether a reference is used -/

/-- Excluded by its fields or by the pattern in force (02 R723, R726). -/
def refBad (s : State) (r : RefMsg) (t : TrueMsg) : Bool :=
  r.nrow == 3 || decide (rowsOf r.nrow ≤ r.row) || r.tier == 3 || decide (5 ≤ r.rank) || decide (r.period < 57142857 ∨ 100000000 < r.period)
    || (t.tvalid && decide (t.tperiod < 50000000 ∨ 2000000000 < t.tperiod)) || t.tsrc == 3
    || (s.dev.st == .run && r.nrow != nrowCode s)

/-- A side of a lane. -/
def sideOf (s : State) (l : LaneId) (sd : Side) : SideSt :=
  let x := s.lan.lanes.getD (laneIx l) {}
  match sd with
  | .e1 => x.e1
  | .e2 => x.e2

/-- The other side. -/
def other : Side → Side
  | .e1 => .e2
  | .e2 => .e1

/-- Path delay from the master, in 0.125 ns units (03 R170): none where a coordinate is invalid. -/
def pathDelay (s : State) (l : LaneId) (sd hs : Side) (o : OriginMsg) : Option Int :=
  let own := sideOf s l (other sd)
  let m := match hs with
    | .e1 => (o.yvE1, o.yE1)
    | .e2 => (o.yvE2, o.yE2)
  if own.yv && m.1 then some ((own.y : Int) - m.2) else none

/-- The device state lets the node follow references (02 R73). -/
def canFollow (s : State) : Bool := s.dev.st == .acquire || s.dev.st == .run || s.dev.st == .inaug

/-- Keys of the master followed, or of the node itself while it is master. -/
def masterKeys (s : State) : Nat × Nat × Nat :=
  if s.tm.master then (tierNow s, ownRank s, s.kee.hk) else (s.tm.mTier, s.tm.mRank, s.tm.mHk)

/-- May this reference be used now (02 R64, R82, R120)? -/
def mayUse (s : State) (r : RefMsg) : Bool :=
  let k := (r.tier, r.rank, r.masterHk)
  let force := rfld s 0x2000 0 2 == 2
  if s.tm.master then !force && r.masterHk != s.kee.hk && outranks k (masterKeys s)
  else if !s.tm.following then true
  else if r.masterHk == s.tm.mHk then true
  else if outranks k (masterKeys s) then true
  else decide (1 ≤ s.tm.miss) && !s.tm.usedInRow

/-! ### Errors (02 R89, R724) -/

/-- What a reference says of this node's instant: the row count and phase, and the true count and phase, at the stamp. -/
structure RefPoint where
  row : Nat
  tru : Nat
  deriving DecidableEq, Repr

/-- Count and phase together, in 1/256 pu, that the reference gives for the stamp (02 R89). -/
def refPoint (r : RefMsg) (t : TrueMsg) (p : Int) : RefPoint :=
  let ofs := (((r.txofs : Int) + p) * 2 ^ 32 / (2 * max 1 r.period)).toNat
  let tofs := (p * 2 ^ 32 / (2 * max 1 t.tperiod)).toNat
  { row := r.hoop.toNat * 2 ^ 32 + r.row * 2 ^ 32 / rowsOf r.nrow + ofs, tru := t.thoop.toNat * 2 ^ 32 + t.tphase.toNat + tofs }

/-- The counter of a timebase at the stamp: one less than now when the phase has wrapped since. -/
def countAt (now : Word) (phNow phAt : Phase) : Nat := if phNow.toNat < phAt.toNat then (now - 1).toNat else now.toNat

/-- The counters match: the follower's counter at the stamp is the reference's, carried to the stamp (02 R724; DEDUCED, log 51). -/
def countsMatch (own ref : Nat) : Bool := own % 2 ^ 32 == ref / 2 ^ 32 % 2 ^ 32

/-! ### The jam (02 R71, R116, R118) -/

/-- The row phase and counter set to the reference: `p` at the stamp, plus the time since. -/
def jamRow (r : RefMsg) (p : Nat) (rowAt : Phase) (s : State) : State :=
  let now := p + (rowPhase s - rowAt).toNat
  let s := anchorRow (BitVec.ofNat 32 now) s
  stepped true { s with tm := { s.tm with hoop := word (now / 2 ^ 32), row := r.row } }

/-- The true phase and counter set to the reference: `p` at the stamp, plus the phase `since` run from there. -/
def jamTrue (t : TrueMsg) (p since : Nat) (s : State) : State :=
  let now := p + since
  let s := anchorTrue (BitVec.ofNat 32 now) s
  stepped false { s with tm := { s.tm with thoop := word (now / 2 ^ 32), tperiod := if tied s then s.tm.period else t.tperiod } }

/-- The correction of the follower loop to the row phase for one reference (02 R69): it is free (log 10). -/
def steer (err : Phase) (s : State) : State :=
  let n := s.tm.draws
  let s := anchorRow (rowPhase s + Config.followerTrim (bwFollow s) err n) s
  { s with tm := { s.tm with draws := n + 1 } }

/-- The correction to the true phase (02 R89): none of its own while it is the row phase (R55). -/
def steerTrue (t : TrueMsg) (terr : Phase) (s : State) : State :=
  if tied s then s
  else
    let n := s.tm.draws
    let s := anchorTrue (truePhase s + Config.trueTrim (bwFollow s) terr n) s
    { s with tm := { s.tm with tperiod := t.tperiod, draws := n + 1 } }

/-! ### Following (02 R71–R77, R82, R120) -/

/-- The master followed is noted: MASTER_CHANGE, REF_LANE_CHANGE, and a node that was master stops sending (02 R82, R87). -/
def noteMaster (l : LaneId) (sd : Side) (r : RefMsg) (t : TrueMsg) (s : State) : State :=
  let newHk := decide (r.masterHk ≠ s.tm.mHk) || !s.tm.following
  let newLane := decide (s.tm.refLane ≠ 3 ∧ s.tm.refLane ≠ laneIx l)
  let s := { s with tm := { s.tm with
    following := true, master := false, usedInRow := true, miss := 0, refLane := laneIx l
    mHk := r.masterHk, mRank := r.rank, mTier := r.tier, mLocked := r.locked, mInlb := t.inlb, mNrow := r.nrow, mhold := r.mhold
    rot := t.rot, inlb := t.inlb } }
  let s := if newHk then raise 193 (detHK r.masterHk (nodeOfHk s r.masterHk) s.trn.epoch.toNat) s else s
  let s := if newLane then raise 194 (detLS (laneIx l) (sideIx sd) 0 0 0) s else s
  pckUpdate s

/-- The rows follow the reference's NROW: another N_row takes effect at the next row start (02 R726). -/
def noteRows (r : RefMsg) (s : State) : State :=
  { s with pat := { s.pat with nrowNext := if s.dev.st = .run ∨ r.nrow = nrowCode s then none else some (r.nrow, r.row) } }

/-- The N_row of a reference takes effect at a row start: a base with another N_row is dropped, and the row that starts is the one after the
reference's (02 R726). -/
def takeRows (s : State) : State :=
  match s.pat.nrowNext with
  | none => s
  | some (n, r) => { s with pat := { s.pat with baseV := false, nrowI := n, nrowNext := none }, tm := { s.tm with row := r } }

/-- What a follower does to its row phase on a reference. -/
inductive RefStep where
  /-- It jams, and its time state is ACQUIRE (02 R71, R73, R120, R724). -/
  | jam
  /-- Its loop corrects the residual error, and the time state may become SYNC. -/
  | steer (sync : Bool)
  /-- Nothing. -/
  | none
  deriving DecidableEq, Repr

/-- The step that the time state prescribes for a reference `off` clock units away whose counters match or not, from a master followed or
newly switched to (02 R71–R73, R120, R724). -/
def refStep (s : State) (matches_ switch : Bool) (off : Nat) : RefStep :=
  if !matches_ || (switch && decide (8000 < off)) then .jam
  else match s.tm.tstate with
    | .free => .none
    | .acquire => if !s.tm.jammed ∨ 80000 < off then .jam else .steer (decide (off ≤ 8000) && decide (7 ≤ s.tm.good))
    | .sync => .steer false
    | .holdover => if off ≤ 8000 then .steer true else .jam

/-- The counts of R71–R73 that a reference without a jam moves. -/
def refCounts (off : Nat) (s : State) : State :=
  match s.tm.tstate with
  | .acquire => { s with tm := { s.tm with coarse := true, good := if off ≤ 8000 then s.tm.good + 1 else 0 } }
  | .sync => { s with tm := { s.tm with bigNow := decide (16000 < off) && s.tm.bigNow } }
  | _ => s

/-- The row phase follows the reference. -/
def followRow (r : RefMsg) (p : Nat) (rowAt err : Phase) (off : Nat) (k : RefStep) (s : State) : State :=
  match k with
  | .jam =>
    let s := jamRow r p rowAt (setTime .acquire s)
    { s with tm := { s.tm with jammed := true, coarse := false, good := 0 } }
  | .steer sync =>
    let s := steer err (refCounts off s)
    if sync then setTime .sync s else s
  | .none => s

/-- The true phase follows the reference: it jams with the row phase (02 R71) and when TVALID returns to 1 (R118), else with TVALID it is
steered; `since` is the phase it has run since the stamp. -/
def followTrue (t : TrueMsg) (p since : Nat) (terr : Phase) (jam : Bool) (s : State) : State :=
  let back := t.tvalid && !s.tm.tvalid
  let s := setTvalid t.tvalid s
  if jam || back then jamTrue t p since s else if t.tvalid then steerTrue t terr s else s

/-- One reference used (02 R71–R73, R86, R89, R118, R120, R724). PERIOD holds from the start of this row, where the row phase has its anchor;
the errors and the time they are measured in are those of that period. -/
def useReference (l : LaneId) (sd : Side) (r : RefMsg) (t : TrueMsg) (p : Int) (rowAt trueAt : Phase) (s : State) : State :=
  let switch := s.tm.following && decide (r.masterHk ≠ s.tm.mHk) || s.tm.master
  let s := putPeriod r.period s
  let since := (truePhase s - trueAt).toNat
  let pt := refPoint r t p
  let err := rowAt - BitVec.ofNat 32 pt.row
  let terr := trueAt - BitVec.ofNat 32 pt.tru
  let matches_ := countsMatch (countAt s.tm.hoop (rowPhase s) rowAt) pt.row
    && (!t.tvalid || countsMatch (countAt s.tm.thoop (truePhase s) trueAt) pt.tru)
  let off := phTime err.toInt s.tm.period
  let k := refStep s matches_ switch off
  let s := noteRows r (noteMaster l sd r t (perf 96 none s))
  let s := setLocked r.locked { s with tm := { s.tm with err := err } }
  followTrue t pt.tru since terr (k == .jam) (followRow r pt.row rowAt err off k s)

/-- The first three messages of a valid pattern frame, with the node's phases at its stamp. A reference that the rules exclude, or that
no coordinate locates, is not used: the row counts as missed when its time comes (02 R77, R82, R723; 03 R170). -/
def takeReference (l : LaneId) (sd hdrSide : Side) (r : RefMsg) (t : TrueMsg) (o : OriginMsg) (rowAt trueAt : Phase) : State → State := instant fun s =>
  match pathDelay s l sd hdrSide o with
  | none => s
  | some p => if refBad s r t ∨ !canFollow s ∨ !mayUse s r then s else useReference l sd r t p rowAt trueAt s

/-- REFERENCE. -/
def execReference (l : LaneId) (sd hdrSide : Side) (r : RefMsg) (t : TrueMsg) (o : OriginMsg) (rowAt trueAt : Phase) (s : State) : Out3 :=
  .next (takeReference l sd hdrSide r t o rowAt trueAt s)

/-- REFERENCE_MISSED: a row without a used reference (02 R73, R77). -/
def execReferenceMissed (s : State) : Out3 :=
  .next (
    if !canFollow s ∨ s.tm.master ∨ s.tm.usedInRow then s
    else
      let s := perf 97 none (count 0x205C 1 { s with tm := { s.tm with miss := s.tm.miss + 1 } })
      if s.tm.tstate = .sync ∧ 2 ≤ s.tm.miss then setTime .holdover s else s)

/-- HOLDOVER_LIMIT: HOLD_LIM seconds in HOLDOVER lead to FREE, and on to ACQUIRE at once while the device acquires or runs (02 R73). -/
def execHoldoverLimit (s : State) : Out3 :=
  .next (
    if s.tm.tstate ≠ .holdover ∨ s.tm.clk - s.tm.holdClk < rfld s 0x2000 10 4 * 8000000000 then s
    else timeForDev (setTime .free s))

/-- TVALID_LOSS_TIMEOUT: after 1 s at TVALID 0 the true phase will jam to the row phase at the next row-hoop boundary (02 R118). -/
def execTvalidLossTimeout (s : State) : Out3 :=
  .next (
    if s.tm.tvalid ∨ s.tm.virt ∨ s.tm.clk - s.tm.tlossClk < 8000000000 then s
    else { s with tm := { s.tm with virtNext := true } })

/-! ### The master (02 R76–R80, R92–R94) -/

/-- Claim threshold K (02 R78). -/
def claimK (s : State) : Nat := 3 + ownRank s + 5 * tierNow s

/-- The node sends its own reference in the row that starts (02 R64, R76, R78, R79): as a master, or as a claimant. An ISOLATED node sends
nothing of its own (01 R46). -/
def claims (s : State) : Bool :=
  let sel := rfld s 0x2000 0 2
  canFollow s && s.trn.memb != .isolated &&
    match sel with
    | 1 => false
    | 2 => true
    | _ => s.tm.master || (rbit s 0x2000 4 && (decide (claimK s ≤ s.tm.miss)
        || (s.tm.following && decide (5 ≤ s.tm.tierHoops) && outranks (tierNow s, ownRank s, s.kee.hk) (masterKeys s))))

/-- The true frequency lies within 45.0 Hz to 65.0 Hz (02 R92). -/
def inWide (p : Nat) : Bool := decide (61538462 ≤ p ∧ p ≤ 88888888)

/-- The true frequency lies within 45.5 Hz to 64.5 Hz (02 R92). -/
def inNarrow (p : Nat) : Bool := decide (62015504 ≤ p ∧ p ≤ 87912087)

/-- Nominal row-hoop period (02 R94). -/
def nominal (s : State) : Nat := if rbit s 0x2000 5 then 66666667 else 80000000

/-- A node begins to send references: it goes on with what it followed, and its time state is SYNC; a node that had nothing to follow
starts at phase 0 of hoop 0, at the nominal frequency (02 R73, R80, R92, R94). -/
def becomeMaster (s : State) : State :=
  if s.tm.master then s
  else
    let fresh := !s.tm.following && !s.tm.jammed
    let s := if fresh then
        let s := anchorTrue 0 (anchorRow 0 s)
        { s with tm := { s.tm with hoop := 0, thoop := 0, row := 0, period := nominal s, tperiod := nominal s } }
      else s
    let keep := s.tm.mLocked && s.tm.mInlb && s.tm.following && tierNow s < 2 && inWide s.zx.loopPeriod
    let s := { s with tm := { s.tm with
      master := true, following := false, mHk := s.kee.hk, mRank := ownRank s, mTier := tierNow s, miss := 0
      refLane := 3, inlb := keep, inBand := 0, outBand := 0, closeHoop := false, mhold := false, ownSrc := decide (tierNow s < 2)
      rot := s.zx.rot } }
    let s := raise 193 (detHK s.kee.hk s.trn.node s.trn.epoch.toNat) s
    masterSource (pckUpdate (setLocked keep (setTime .sync { s with tm := { s.tm with coarse := true } })))

/-- A node stops sending references without another to follow: the steward set FOLLOW, or the node is ISOLATED (02 R64, 01 R46). -/
def stopMaster (s : State) : State :=
  if s.tm.master && (rfld s 0x2000 0 2 == 1 || s.trn.memb == .isolated) then { s with tm := { s.tm with master := false, following := true } } else s

/-- Frequency in µHz of a period, and the period of a frequency. -/
def microHz (p : Nat) : Nat := 4000000000000000 / max 1 p

/-- A period limited to a change of at most 0.5 Hz/s in one row (02 R93, R94). -/
def slewed (s : State) (want : Nat) : Nat :=
  let p := s.tm.period
  let f := microHz p
  let d := p / 8000 / nRow s
  max (ceilDiv 4000000000000000 (f + d)) (min (microHz (f - d)) want)

/-- A period within 0.2 Hz of the true frequency (02 R93). -/
def nearTrue (s : State) (want : Nat) : Nat :=
  let f := microHz s.tm.tperiod
  max (ceilDiv 4000000000000000 (f + 200000)) (min (microHz (f - 200000)) want)

/-- A row-hoop period that a REFERENCE may carry (02 R723). -/
def carried (p : Nat) : Nat := max 57142857 (min 100000000 p)

/-- The row-hoop period that the master announces for the row that starts (02 R86, R93, R94). Once LOCKED the rows follow the mains loop, and
its true hoop with them (R55); before that, in the lock band, it moves toward the true hoop by a free amount within the limits (log 11);
outside, toward the nominal period. -/
def masterPeriod (s : State) : State :=
  if !s.tm.master then s
  else if s.tm.locked then
    let d := loopPhase s s.tm.clk - rowPhase s
    setPeriod (carried (Config.trueSteer (bwMains s) s.zx.loopPeriod d s.tm.draws)) { s with tm := { s.tm with draws := s.tm.draws + 1 } }
  else if s.tm.inlb then
    let want := Config.masterSteer s.tm.period s.tm.tperiod (truePhase s - rowPhase s) s.tm.draws
    setPeriod (slewed s (nearTrue s want)) { s with tm := { s.tm with draws := s.tm.draws + 1 } }
  else setPeriod (slewed s (nominal s)) s

/-- The row and true phase differ by at most 1000 pu (02 R93). -/
def phasesClose (s : State) : Bool := decide ((phDiff (rowPhase s) (truePhase s)).natAbs ≤ 1000 * 256)

/-- The lock band at a hoop boundary of the master (02 R92–R94). -/
def lockBand (s : State) : State :=
  if !s.tm.master then s
  else
    let p := s.tm.tperiod
    let inB := if s.tm.tvalid && inNarrow p then s.tm.inBand + 1 else 0
    let outB := if !s.tm.tvalid || !inWide p then s.tm.outBand + 1 else 0
    let inlb := s.tm.tvalid && (if s.tm.inlb then decide (outB < 2) else decide (4 ≤ inB))
    let close := s.tm.closeHoop && phasesClose s
    let s := { s with tm := { s.tm with inBand := inB, outBand := outB, inlb := inlb, closeHoop := true } }
    if !inlb then setLocked false s else if close then setLocked true s else s

/-- A hoop of references more than 2 µs off counts toward HOLDOVER (02 R73). -/
def bigHoop (s : State) : State :=
  let n := if s.tm.bigNow && s.tm.tstate == .sync && !s.tm.master then s.tm.bigHoops + 1 else 0
  let s := { s with tm := { s.tm with bigHoops := n, bigNow := true } }
  if 4 ≤ n then setTime .holdover s else s

/-- A hoop boundary more with the own tier (02 R79). -/
def tierHoop (s : State) : State :=
  let s := noteTier s
  { s with tm := { s.tm with tierHoops := s.tm.tierHoops + 1 } }

/-- REFERENCE and TRUE of the row that starts (02 R83, R84); TXOFS is the frame's place in the row (log 52). -/
def ownReference (s : State) : RefMsg × TrueMsg :=
  ({ tier := tierNow s, masterHk := s.kee.hk, nrow := nrowCode s, nom := rbit s 0x2000 5, locked := s.tm.locked, row := s.tm.row
     rank := ownRank s, mhold := s.tm.mhold, rseq := s.tm.rseq, hoop := s.tm.hoop, period := s.tm.period, txofs := 0 },
   { tsrc := tierNow s, tvalid := s.tm.tvalid, rot := s.tm.rot, inlb := s.tm.inlb, tphase := truePhase s, tperiod := s.tm.tperiod
     thoop := s.tm.thoop })

end Sys2Proof.Machine
end

