-- ==== Sys2Proof/Machine/Tenant.lean ====
section
/-! DEFINITION. Tenants: doorbells, ring control, the function-wide reset, MSI-X, and what the PCIe link does to the functions
(09 R429–R437, R447–R490; 07 R364–R367, R377; 12 R607, R608). -/

namespace Sys2Proof.Machine

/-! ### Doorbells (09 R457–R461, R485) -/

/-- Tenant `t`'s doorbells are heard: it is enabled, its rings run, and no reset runs (09 R431, R479, R485). -/
def doorsOpen (s : State) (t : Nat) : Bool := reachable s && enabled s t && ringEn s t && !(tenOf s t).rst

/-- The pushed images of a doorbell latched for the slots from the tail on, or counted in PUSH_MISS (09 R460, R461). -/
def takePush (t p tail : Nat) (s : State) : State :=
  if p = 0 then s
  else if !(tenOf s t).latch.isEmpty then count (tenBase t + 0x420) 1 s
  else each (List.range p) (fun s i =>
    let k := (tail + i) % sqSize s t
    modTen t (fun x => { x with latch := tset x.latch k (memGets s.ten.push (0x80 * t + 64 * i) 64) }) s) s

/-- A write of TEN_DB. In Mode T a tail that adds nothing starts nothing and discards its push; after a DMA error the entries are
read again (09 R436). -/
def doorbell (t : Nat) (v : Word) (s : State) : State :=
  if !doorsOpen s t then s
  else
    let x := tenOf s t
    let p := min 2 (bitsOf v.toNat 12 2)
    if rbit s (tenBase t + 0x200) 1 then readIndex t true (takePush t p x.sqTail s)
    else
      let tail := v.toNat % 4096 % sqSize s t
      let s := if tail = x.sqTail then s else modTen t (fun x => { x with sqTail := tail }) (takePush t p x.sqTail s)
      match x.dmaErr, headChain s t with
      | true, .missing i => sqRead t i s
      | _, _ => s

/-- TEN_DB. -/
def execTenDb (t : Nat) (v : Word) (s : State) : Out3 := .next (doorbell t v s)

/-- A write of TEN_CQDB: the CQ head (09 R459, R473, R474). -/
def cqDoorbell (t : Nat) (v : Word) (s : State) : State :=
  if !doorsOpen s t then s
  else cqAdvance t (modTen t (fun x => { x with cqHead := v.toNat % 4096 % cqSize s t }) s)

/-- TEN_CQDB. -/
def execTenCqdb (t : Nat) (v : Word) (s : State) : Out3 := .next (cqDoorbell t v s)

/-- CQ_HEAD_POLL: in Mode M with a full CQ the head is read from the index block (09 R459). -/
def execCqHeadPoll (t : Nat) (s : State) : Out3 :=
  .next (if doorsOpen s t && rbit s (tenBase t + 0x200) 1 && cqFull s t then readIndex t false s else s)

/-! ### Ring control (09 R447–R451) -/

/-- The sizes of an SPI tenant's rings, as log2 entries, halved until they fit 16384 bytes: the ring with more bytes first, the SQ on
a tie (09 R448). -/
def fitRings : Nat → Nat × Nat → Nat × Nat
  | 0, z => z
  | f + 1, z =>
    let sq := 64 * 2 ^ z.1
    let cq := 32 * 2 ^ z.2
    if sq + cq ≤ 16384 then z else fitRings f (if cq ≤ sq then (z.1 - 1, z.2) else (z.1, z.2 - 1))

/-- A write of TEN_RCTL by its tenant: the range checks, the fit of R448 with one clamp-log record, and the start of the rings. -/
def rctlWrite (cause : ClampBy) (t : Nat) (v : Word) (s : State) : State :=
  let off := tenBase t + 0x200
  let was := ringEn s t
  let s := regPutChecked cause off v.toNat s
  let z := (rfld s off 2 4, rfld s off 6 4)
  let y := if isSpi s t then fitRings 16 z else z
  let s := if was ∨ y = z then s
    else
      let full := y.1 + 16 * y.2
      ownClamp off 2 8 (z.1 + 16 * z.2) full (fldSet off 2 8 full s)
  if ringEn s t && !was then
    modTen t (fun x => { x with sqHead := 0, sqTail := 0, cqHead := 0, cqTail := 0, phase := true, sinceReady := 0, oldest := none }) s
  else s

/-- TEN_RCTL_WRITE. A tenant that is not enabled writes nothing (09 R431). -/
def execTenRctlWrite (t : Nat) (v : Word) (s : State) : Out3 :=
  .next (if enabled s t then gatedWrite (tenBase t + 0x200) (rctlWrite { kind := 0, ten := t } t v) s else s)

/-- CQ_READY by its time condition (09 R472): TIME is not 0 and has passed since the oldest entry. -/
def execIrqcoalTime (t : Nat) (s : State) : Out3 :=
  let time := rfld s (tenBase t + 0x220) 8 16
  .next (match (tenOf s t).oldest with
    | some c => if time ≠ 0 ∧ time * 8000 ≤ s.tm.clk - c then cqReady raise t s else s
    | none => s)

/-! ### Function-wide reset (09 R478–R483, 07 R364–R367) -/

/-- The interest of tenant `t` in line `la` ends: UNSUB_REQ where no other local interest is left (07 R364). -/
def endInterest (t la : Nat) (s : State) : State :=
  let s := delSub la t s
  if homedHere s la || !(subsOf s la).isEmpty then s
  else match copyOf s la with
    | some e => if e.2.st == .p then dropWay e.1 (sendOwed t 0x0E la .c1 { typ := .unsubReq } s) else s
    | none => s

/-- UNLOCK_REQ of tenant `ten` for a line homed here, on an internal bobbin; where none, or no tracker, is free, it waits as the node's other
messages do (07 R364; DESIGN CHOICE, log 33). -/
def unlockHere (ten la : Nat) (s : State) : State :=
  let o : Owed := { ten := ten, op := 0x0C, la := la, cls := .c1, msg := { typ := .unlockReq } }
  let later := fun (s : State) => { s with ten := { s.ten with owed := s.ten.owed ++ [o] } }
  match freeIntern s with
  | none => later s
  | some b =>
    let m : LineMsg := { typ := .unlockReq, la := la, ten := ten, trk := b, cls := clsAt s la .c1 }
    let r := homeLocal b m false (setBob b { kind := .intern, job := { ten := ten, op := 0x0C, la := la }, wait := .home, home := true } s)
    if r.2 then r.1 else later (freeBob b s)

/-- UNLOCK_REQ for a lease of the tenant, on an internal bobbin (07 R364). -/
def endLease (h : HeldLease) (s : State) : State :=
  if homedHere s h.la then unlockHere h.ten h.la s else sendOwed h.ten 0x0C h.la .c1 { typ := .unlockReq } s

/-- A message that waited for an internal bobbin is still wanted: a refresh by a stale copy, a fill by the way that waits for it
(06 R336, 08 R401). -/
def stillOwed (s : State) (o : Owed) : Bool :=
  match o.msg.typ with
  | .subReq => if o.op = 0x0D then (copyOf s o.la).any fun e => e.2.st == .p && e.2.stale else (relocTarget s o.la).isSome
  | .rdShared => (relocTarget s o.la).isSome
  | .unlockReq => s.heldLeases.any fun h => h.la == o.la && h.ten == o.ten && !h.broken
  | _ => true

/-- The messages that waited for an internal bobbin are sent, as far as bobbins are free (07 R364, R368; log 33). -/
def payOwed (s : State) : State :=
  each s.ten.owed (fun s o =>
    if !stillOwed s o then s
    else if o.msg.typ = .unlockReq ∧ homedHere s o.la then unlockHere o.ten o.la s
    else sendOwed o.ten o.op o.la o.cls o.msg s) { s with ten := { s.ten with owed := [] } }

/-- A bobbin's transaction has been sent, or runs at the home or on the node's own bobbins (07 R364, R365). -/
def inFlight (v : Bobbin) : Bool :=
  match v.wait with
  | .answer => v.left.isSome || v.job.op == 0x23
  | .home | .drain => true
  | .commit | .phase => v.job.op == 0x32 || v.job.op == 0x33
  | _ => false

/-- What a reset does at once to a bobbin of the tenant: a begun keep-store write, agreement, FLUSH or CLEAN runs to its end on its
own (07 R365, 09 R481); a transaction in flight will be absorbed; anything else is dropped. -/
def resetBob (b : Nat) (v : Bobbin) (s : State) : State :=
  if irreversible s b || leaving s b then modBob b (fun v => { v with kind := .intern }) s
  else if inFlight v then modBob b (fun v => { v with absorb := true }) s
  else cutOff b stAborted (letGo b v (modBob b (fun v => { v with absorb := true, kept := none }) s))

/-- Bobbins that tenant `t` holds for jobs. -/
def jobsOf (s : State) (t : Nat) : List (Nat × Bobbin) := s.ten.bobs.filter fun e => e.2.kind == .job && e.2.job.ten == t

/-- Steps 1 to 3 of the reset of tenant `t`; a cause that arrives during it joins it (09 R479, R483). -/
def beginReset (t : Nat) (s : State) : State :=
  if (tenOf s t).rst then s
  else
    let s := modTen t (fun x => { x with rst := true, rstRow := s.tm.rows, rstResume := s.dev.st == .inaug
                                         latch := [], fetched := [], ovf := [], stall := false, lostEv := false, idxPend := false
                                         chainWait := false, dmaErr := false, sinceReady := 0, oldest := none }) s
    let s := forgetReads (dmaForTen t) s
    let s := each (jobsOf s t) (fun s e => resetBob e.1 e.2 s) s
    let s := each ((s.home.subs.filter fun e => e.2 == t).map (·.1)) (fun s la => endInterest t la s) s
    each (s.heldLeases.filter fun h => h.ten == t) (fun s h => endLease h s) s

/-- The tenant's remaining bobbins are freed as by a timeout (07 R366). -/
def freeJobs (t : Nat) (s : State) : State :=
  each (jobsOf s t) (fun s e =>
    if irreversible s e.1 then modBob e.1 (fun v => { v with kind := .intern }) s
    else cutOff e.1 stAborted (letGo e.1 e.2 (modBob e.1 (fun v => { v with absorb := true, kept := none }) (detachPicot e.1 s)))) s

/-- TENANT_RESET_TIMEOUT: three rows after the reset began; during an inauguration, at Resume instead (07 R366, R367). -/
def execTenantResetTimeout (t : Nat) (s : State) : Out3 :=
  let x := tenOf s t
  .next (if x.rst ∧ !x.rstResume ∧ s.dev.st ≠ .inaug ∧ x.rstRow + 3 ≤ s.tm.rows then freeJobs t s else s)

/-- Resets that an inauguration held up end at Resume (07 R367). -/
def resumeResets (s : State) : State :=
  each (List.range 8) (fun s t =>
    if (tenOf s t).rst then freeJobs t (modTen t (fun x => { x with rstResume := false }) s) else s) s

/-- Entry into INAUG holds up the resets that run (07 R367). -/
def holdResets (s : State) : State :=
  { s with ten := { s.ten with tens := s.ten.tens.map fun x => if x.rst then { x with rstResume := true } else x } }

/-- The registers of a tenant's window that step 6 returns to reset: the ring registers, TEN_IRQCOAL, TEN_TMODEF, TEN_EVMASK and the
counters (09 R479). -/
def clearWindow (t : Nat) (s : State) : State :=
  let lo := tenBase t + 0x200
  let hi := tenBase t + 0x428
  let ours := fun (k : Nat) => decide (lo ≤ k ∧ k < hi)
  { s with reg := { s.reg with
      cur := s.reg.cur.filter fun e => !ours e.1
      ctr := s.reg.ctr.filter fun e => !ours e.1 } }

/-- Step 6: TEN_FENCE increments, the window returns to reset, RST clears and RESET_DONE is raised. -/
def endReset (t : Nat) (s : State) : State :=
  let s := clearWindow t s
  let s := modTen t (fun x => { x with
    sqHead := 0, sqTail := 0, cqTail := 0, cqHead := 0, phase := true, rst := false, rstResume := false
    fence := (x.fence + 1) % 65536 }) s
  let s := { s with evt := { s.evt with cqCond := s.evt.cqCond &&& ~~~(BitVec.ofNat 8 (2 ^ t)) } }
  raise (323 + 8 * t) detNone s

/-- RESET_DONE: the last bobbin of a resetting tenant is free (09 R479 step 6). -/
def execResetDone (t : Nat) (s : State) : Out3 :=
  .next (if (tenOf s t).rst && (jobsOf s t).isEmpty then endReset t s else s)

/-- A steward write of TEN_S_CTRL (09 R478, R487): EN from 1 to 0, or FRESET, begins a reset. -/
def sctrlWrite (cause : ClampBy) (t : Nat) (v : Word) (s : State) : State :=
  let off := tenBase t + 0x1C00
  let was := rbit s off 0
  let s := regPutChecked cause off v.toNat s
  if (was && !rbit s off 0) || v.getLsbD 1 then beginReset t s else s

/-- TENANT_ENABLE_WRITE. -/
def execTenantEnableWrite (t : Nat) (v : Word) (s : State) : Out3 :=
  .next (if t < 8 then gatedWrite (tenBase t + 0x1C00) (sctrlWrite { kind := 0 } t v) s else s)

/-- FRESET: a write of TEN_S_CTRL with bit 1 set; one with bit 1 clear is ignored as a reset (09 TEN_S_CTRL). -/
def execFreset (t : Nat) (v : Word) (s : State) : Out3 :=
  .next (if t < 8 ∧ v.getLsbD 1 then gatedWrite (tenBase t + 0x1C00) (sctrlWrite { kind := 0 } t v) s else s)

/-! ### Quotas (09 R476, 01 R26) -/

/-- Requested quota of tenant `n`. -/
def quotaReq (s : State) (n : Nat) : Nat := rfld s (tenBase n + 0x1C04) 0 9

/-- Raise each quota of 0 to 1 and take as much from the largest, the lowest tenant on a tie (09 R476). -/
def raiseZeros (qs : List (Nat × Nat)) : List (Nat × Nat) :=
  let zeros := (qs.filter fun e => e.2 == 0).length
  let top := qs.foldl (fun (a : Nat × Nat) e => if a.2 < e.2 then e else a) (0, 0)
  qs.map fun e => if e.2 = 0 then (e.1, 1) else if e.1 = top.1 then (e.1, e.2 - zeros) else e

/-- Quotas in force recomputed at a commit. When the enabled tenants or their requests have changed, each quota that the sum cuts has its
record in the clamp log (01 R26, 13 R645). -/
def quotaCommit (s : State) : State :=
  let on := (List.range 8).filter fun n => enabled s n
  let sum := (on.map (quotaReq s)).foldl (· + ·) 0
  let want := on.map fun n => (n, quotaReq s n)
  let force := if sum ≤ 480 then want else raiseZeros (want.map fun e => (e.1, e.2 * 480 / sum))
  let new := want != s.ten.quotaAsk
  each ((List.range 8).map fun n => (n, ((force.find? fun e => e.1 == n).map (·.2)).getD (quotaReq s n))) (fun s e =>
    let s := modTen e.1 (fun x => { x with quota := e.2 }) s
    if new && e.2 < quotaReq s e.1 then ownClamp (tenBase e.1 + 0x1C04) 0 9 (quotaReq s e.1) e.2 s else s)
    { s with ten := { s.ten with quotaAsk := want } }

/-! ### PCIe functions (09 R431, R434, R437; 12 R607, R608; 14 R690) -/

/-- MSI-X messages of unmasked vectors whose PBA bit is set leave, as the PCIe specification requires (12 R607). -/
def msixFlush (n : Nat) (s : State) : State :=
  each (List.range 8) (fun s vec =>
    let t := tenOf s n
    if fnLive s n && t.msixEn && !t.fnMask && !t.vecMask.getLsbD vec && t.pba.getLsbD vec then
      msixSignal n vec (modTen n (fun t => { t with pba := t.pba &&& ~~~(BitVec.ofNat 8 (2 ^ vec)) }) s)
    else s) s

/-- MSIX_GAP_END: one message when an event arose in the gap (12 R608). -/
def execMsixGapEnd (fn vec : Nat) (s : State) : Out3 :=
  let bit : BitVec 8 := BitVec.ofNat 8 (2 ^ vec)
  let hit := (tenOf s fn).gapEvt.getLsbD vec
  let s := modTen fn (fun t => { t with gap := t.gap &&& ~~~bit, gapEvt := t.gapEvt &&& ~~~bit }) s
  .next (if hit then msixSignal fn vec s else s)

/-- A function's configuration space after an FLR: memory space and MSI-X off, vectors masked (09 R437, R482; log 20). -/
def flrConfig (n : Nat) (s : State) : State :=
  modTen n (fun t => { t with mse := false, msixEn := false, fnMask := false, vecMask := 0xFF, pba := 0, gap := 0, gapEvt := 0, msixTab := [] }) s

/-- An FLR of function `n`: the PF's clears VF Enable and resets every enabled VF tenant; that of an inert VF resets no tenant
(09 R430, R437). -/
def flr (n : Nat) (s : State) : State :=
  if n = 0 then
    let vfs := ((List.range 8).filter fun k => k != 0 && !isSpi s k && enabled s k)
    let s := each vfs (fun s k => beginReset k (flrConfig k s)) (beginReset 0 (flrConfig 0 s))
    { s with ten := { s.ten with vfEn := false } }
  else if !s.ten.vfEn ∨ 8 ≤ n then s
  else if isSpi s n then flrConfig n s
  else beginReset n (flrConfig n s)

/-- The link goes down or up: PCIE_LINK (12 event 11). -/
def pcieLink (up : Bool) (s : State) : State :=
  if s.ten.linkUp = up then s
  else raise 11 (detST (b2n s.ten.linkUp) (b2n up)) { s with ten := { s.ten with linkUp := up } }

/-- Every PCIe function is reset (09 R437). -/
def resetFns (s : State) : State :=
  let vfs := (List.range 8).filter fun k => k != 0
  flr 0 (each vfs (fun s k => flr k s) s)

/-- PCIE_FUNCTION_RESET (09 R437). -/
def execPcieFunctionReset (kind : PcieReset) (fn : Nat) (s : State) : Out3 :=
  .next (match kind with
    | .flr => flr fn s
    | .d3ToD0 => flr fn s
    | .hotReset => resetFns s
    | .linkDown => pcieLink false (resetFns s))

/-- PERST_ASSERT: a link-down, for as long as it stays asserted (14 R690). -/
def execPerstAssert (s : State) : Out3 :=
  let s := { s with ten := { s.ten with perst := true } }
  .next (pcieLink false (resetFns s))

/-- PCIE_LINK_UP: after PERST# release or a link-down (12 R600 event 11). -/
def execPcieLinkUp (s : State) : Out3 :=
  .next (pcieLink true { s with ten := { s.ten with perst := false } })

/-- PCIE_CONFIG_WRITE (09 R431, 12 R607). -/
def execPcieConfigWrite (c : PcieCfg) (s : State) : Out3 :=
  .next (match c with
    | .vfEnable on => { s with ten := { s.ten with vfEn := on } }
    | .memSpace fn on => modTen fn (fun t => { t with mse := on }) s
    | .msixEnable fn on => msixFlush fn (modTen fn (fun t => { t with msixEn := on }) s)
    | .msixFnMask fn on => msixFlush fn (modTen fn (fun t => { t with fnMask := on }) s)
    | .msixVecMask fn vec on => msixFlush fn (modTen fn (fun t => { t with
        vecMask := if on then t.vecMask ||| BitVec.ofNat 8 (2 ^ vec) else t.vecMask &&& ~~~(BitVec.ofNat 8 (2 ^ vec)) }) s))

/-- POSTED_WRITE_CREDIT: what waited for credit leaves, in order (07 R377). -/
def execPostedWriteCredit (s : State) : Out3 :=
  .next { s with
    ten := { s.ten with noCredit := false, posted := [] }
    out := s.ten.posted.reverse ++ s.out }

end Sys2Proof.Machine
end

