-- ==== Sys2Proof/Machine/Inaug.lean ====
section
/-! DEFINITION. Inauguration up to the Cut: causes, entry into INAUG, Discovery, the numbering, the agreement, Freeze and drain
(05 R229–R259, R281–R283). -/

namespace Sys2Proof.Machine

/-! ### Membership, and what an inauguration ends -/

/-- Code of a membership in TRN_STAT.MEMB. -/
def membCode : Memb → Nat
  | .unnumbered => 0
  | .joining => 1
  | .member => 2
  | .listenOnly => 3
  | .isolated => 4

/-- The membership changes: MEMB_STATE (01 R46, 12 event 2). -/
def setMemb (m : Memb) (s : State) : State :=
  if s.trn.memb = m then s
  else raise 2 (detST (membCode s.trn.memb) (membCode m)) { s with trn := { s.trn with memb := m } }

/-- A proposal ends with a verdict (04 R217, R221, R228; 10 R543, R547): at its proposer a cancellation completes the command. -/
def endProposal (p : Proposal) (verdict reason subject : Nat) (s : State) : State :=
  let s := { s with pat := { s.pat with
    props := s.pat.props.filter (fun q => !(q.target == p.target && q.proposer == p.proposer && q.hoop == p.hoop))
    lastVerdict := verdict, lastReason := reason, lastSubject := subject, lastTarget := p.target % 4 } }
  if verdict = 4 then
    let s := raise 227 (detN reason subject) (count 0x6084 1 s)
    match p.bob with
    | some b => complete b { status := if p.target < 4 then stPattern else stDenied, res1 := reason + 256 * subject } s
    | none => s
  else s

/-- Detect cancels every pending proposal, reason INAUG, even after GO (04 R221). -/
def cancelProposals (s : State) : State :=
  let s := each s.pat.props (fun s p => endProposal p 4 23 0 s) s
  { s with pat := { s.pat with switchAt := none } }

/-- The stable state that a transient copy left (05 R264). -/
def stableOf (c : Copy) : CState :=
  match c.st with
  | .is | .im | .ip => .i
  | .sm => .s
  | .mi => .m
  | .ci => c.back
  | x => x

/-- A committed write that only awaits the mirror's answer. -/
def awaitsMirror (t : Tracker) : Bool := t.phase == .mirror && t.purpose == .request

/-- A local command whose tracker is gone is performed again; one that had committed replays (05 R264, R265). -/
def performAgain (s : State) (t : Tracker) : State :=
  match t.bob with
  | some b => modBob b (fun v => if v.seq = t.bobSeq ∧ v.wait = .home then
      { v with wait := .state, replay := v.replay || awaitsMirror t } else v) s
  | none => s

/-- Every busy home line returns to its state before (05 R264). A write that is committed and only awaits the mirror's answer stands in the
replay table: its command, performed again, is answered from there (05 R265, R276). -/
def dropTrackers (s : State) : State :=
  let all := s.home.trks
  let s := each (all.filter awaitsMirror) (fun s t => replayAdd t.la (keyOf t) t.ver (t.cls == .c0) s) s
  each all performAgain (setTrks [] { s with home := { s.home with mirrWait := [], mirrAcks := [] } })

/-- Copies dropped: the tenants that subscribed a P copy are told, and the modified ones are counted (05 R263, 10 R557). The place of one
that a request still waits for stays, invalid. -/
def dropCopies (p : Nat × Copy → Bool) (s : State) : State :=
  let gone := s.cc.ways.filter p
  let m := (gone.filter fun e => e.2.st == .m).length
  let s := each gone (fun s e =>
    let s := if e.2.st = .p then subLost e.2.la s else s
    match e.2.bob with
    | some _ => setCopy e.1 { e.2 with st := .i, version := 0, data := 0 } s
    | none => dropWay e.1 s) s
  if m = 0 then s else raise 215 (detN 0 m) (count 0x7090 m s)

/-- The copies of a node that leaves the train return to the stable states they left, as at a Cut (DEDUCED, log 60). -/
def leaveCopies (s : State) : State :=
  let f := fun (c : Copy) => if c.held.isSome then c
    else { c with st := stableOf c, bob := none, again := none, recalled := none, inval := false }
  { s with cc := { s.cc with ways := (s.cc.ways.map fun (e : Nat × Copy) => (e.1, f e.2)).filter fun e => e.2.st != .i || e.2.held.isSome } }

/-- A request of the node itself is in flight: it has left, or a Cut has taken it back to be replayed (05 R264, R279). -/
def underway (v : Bobbin) : Bool := v.left.isSome || (v.wait == .answer && v.req.isSome && v.replay)

/-- The commands of a node that leaves the train (05 R279, R282, R283): those in flight end ABORTED; those whose request has not left wait
for a state in which they run, and the node's own messages go with it. -/
def leaveJobs (s : State) : State :=
  let s := each (s.ten.bobs.filter fun e => underway e.2) (fun s e => cutOff e.1 stAborted s) s
  each (s.ten.bobs.filter fun e => e.2.wait == .answer && e.2.req.isSome) (fun s e =>
    match e.2.kind with
    | .intern => freeBob e.1 s
    | _ => setBob e.1 { e.2 with wait := .state, req := none } s) s

/-- The node leaves the train: its proposals are cancelled, commands in flight end ABORTED, busy home lines return as at a Cut, and it has
no number and no epoch (01 R49; 05 R279, R282, R283). -/
def leaveTrain (s : State) : State :=
  let s := leaveJobs (leaveCopies (dropTrackers (cancelProposals s)))
  { s with
    trn := { s.trn with
      node := 0, nnodes := 0, members := 0, epoch := 0, roster := [], held := 0, roleSrc := 0, mirrV := 0, step := 0, restarts := 0, frozen := false
      call := none, masterCall := false, enterNext := false, restartNext := false, restartFreeze := false, restartCounted := false
      lagging := false, wasDrained := false, claims := [], outcome := none, agreed := none
      sendAgreed := false, drainEnd := false, cutHoop := none, sendResume := false, needAck := [], migOut := [], migIn := [] }
    lan := { s.lan with foreValid := false, txq := [], probeWait := [], credit := [] }
    home := { s.home with naks := 0 }
    ten := { s.ten with owed := [] }
    pat := { s.pat with cur := 4, baseV := false, switchAt := none, moving := [], props := [], lost := [] } }

/-- The node becomes ISOLATED: it drops every copy (05 R246, R282; 10 R557). -/
def isolate (cause : Nat) (s : State) : State :=
  let s := setMemb .isolated { s with trn := { s.trn with isoCause := cause } }
  raise 210 (detN 0 cause) (count 0x7088 1 (dropCopies (fun _ => true) s))

/-- Isolated by restarts: RUN, ISOLATED (05 R282). -/
def isolateByRestarts : State → State := instant fun s =>
  let s := isolate 2 (raise 211 detNone (leaveTrain s))
  timeForDev (setDev .run { s with trn := { s.trn with isoRestarts := true, noEntry := true, isoClk := s.tm.clk } })

/-! ### Causes (05 R229–R235, R281, R282) -/

/-- Freeze (05 R256). -/
def freeze (s : State) : State :=
  if s.trn.frozen then s else { s with trn := { s.trn with frozen := true, freezeRow := s.tm.rows } }

/-- The classes whose Freeze begins at the entry (05 R238): every cause but an uncoupling and a request. -/
def freezesAtEntry (c : Nat) : Bool := c != 1 && c != 3

/-- A cause between entry into INAUG and Resume restarts the inauguration at the next row, where Freeze begins if its class asks for it; what
is detected before that row belongs to the same restart. The fourth counted restart isolates the node (05 R238, R281, R282). -/
def restart (c : Nat) (counted : Bool) (s : State) : State :=
  let t := { s with trn := { s.trn with restartNext := true, restartFreeze := s.trn.restartFreeze || freezesAtEntry c } }
  if !counted ∨ s.trn.restartCounted then t
  else if 3 ≤ s.trn.restarts then isolateByRestarts s
  else count 0x7084 1 { t with trn := { t.trn with restarts := s.trn.restarts + 1, restartCounted := true } }

/-- A cause detected at this node: it calls (05 R229, R232, R234, R281; 01 R51). A node isolated by restarts waits for its retry (05 R282;
DEDUCED, log 60). -/
def causeFound (c : Nat) (s : State) : State :=
  match s.dev.st with
  | .run =>
    if s.trn.isoRestarts then s
    else
      let s := cancelProposals s
      { s with trn := { s.trn with
        call := some (s.trn.call.getD c), cause := s.trn.call.getD c, step := 1
        detectClk := some (s.trn.detectClk.getD s.tm.clk) } }
  | .inaug => restart c (c != 2) s
  | _ => s

/-- A CALL repeats one that has been heard: in this row or the row before, or the master's own until Discovery ends (05 R232; DEDUCED,
log 63). -/
def repeated (s : State) (fromRanging : Bool) (m : InaugMsg) : Bool :=
  (tget s.trn.callers (8 * m.hk + m.cause)).any (fun r => decide (s.tm.rows ≤ r + 1))
    || (!fromRanging && m.hk == s.tm.mHk && m.cause == s.trn.cause && decide (s.trn.step ≤ 2))

/-- CALL heard (05 R229, R232, R233). Every one in a ranging frame is of the coupling class (R229); a restart by the CALL of a node that joins
is not counted (R281). In INAUG a repetition changes nothing (R281). -/
def hearCall (fromRanging : Bool) (m : InaugMsg) (s : State) : State :=
  let c := if fromRanging then 0 else m.cause
  let again := repeated s fromRanging m
  let s := { s with trn := { s.trn with callers := tset s.trn.callers (8 * m.hk + m.cause) s.tm.rows } }
  match s.dev.st with
  | .run =>
    if s.trn.isoRestarts then s
    else
      let s := cancelProposals s
      { s with trn := { s.trn with
        cause := s.trn.call.getD c, enterNext := true, step := 1, masterCall := s.trn.masterCall || s.tm.master
        detectClk := some (s.trn.detectClk.getD s.tm.clk) } }
  | .inaug =>
    if again then s
    else restart c (m.cause != 2) { s with trn := { s.trn with masterCall := s.trn.masterCall || (s.tm.master && !s.trn.frozen) } }
  | _ => s

/-- CALL. -/
def execCall (fromRanging : Bool) (m : InaugMsg) (s : State) : Out3 := .next (hearCall fromRanging m s)

/-- The base of pattern I (04 R210): the pattern in force at Detect; none for an unnumbered node and for one that ran pattern I. -/
def takeBase (s : State) : State :=
  if s.pat.cur < 4 ∧ s.trn.node ≠ 0 then { s with pat := { s.pat with cur := 4, baseV := true, base := s.pat.cur } }
  else if s.dev.st = .inaug ∧ s.pat.baseV then s
  else { s with pat := { s.pat with
    cur := 4, baseV := false, nrowI := if s.tm.following then s.tm.mNrow else if bandFast s then 2 else 0 } }

/-- The tracker belongs to a transfer of lines (06 R315). -/
def moves (t : Tracker) : Bool :=
  match t.purpose with
  | .move _ => true
  | _ => false

/-- The records of an inauguration begun anew. -/
def clearInaug (s : State) : State :=
  { s with
    home := { s.home with trks := s.home.trks.filter fun t => !moves t }
    trn := { s.trn with
      step := 2, restartNext := false, restartFreeze := false, restartCounted := false, wasDrained := false
      lists := [], lastList := none, list := [], propNode := 0, propN := 0, propHks := [], propIso := 0
      claims := [], outcome := none, confirmRow := false, attempts := 0, agreed := none, sendAgreed := false, drainEnd := false
      cutHoop := none, sendResume := false, needAck := [], migOut := [], migIn := [] }
    lan := { s.lan with txq := s.lan.txq.filter fun i => i.use != .mig
                        lanes := s.lan.lanes.map fun l => { l with e1 := { l.e1 with wave := none }, e2 := { l.e2 with wave := none } } } }

/-- A replay-table entry of an own command that is still to be performed again. -/
def stillToReplay (s : State) (r : Replay) : Bool :=
  r.key.hk == s.kee.hk && (bobOf s r.key.trk).any fun v => v.replay && v.job.ten == r.key.ten

/-- At the entry the replay table holds the committed writes whose ACK is still unsent: their answer is queued, or waits for the mirror
(05 R265). -/
def recordUnsent (s : State) : State :=
  let s := { s with home := { s.home with replay := s.home.replay.filter (stillToReplay s) } }
  let s := each s.lan.txq (fun s i => match i.msg, i.wrote with
    | .line m, some k => replayAdd m.la k m.version (m.cls == .c0) s
    | _, _ => s) s
  let unsent := s.home.trks.filter awaitsMirror ++ s.home.mirrAcks
  each unsent (fun s t => replayAdd t.la (keyOf t) t.ver (t.cls == .c0) s) s

/-- Gated sides open (03 R185). -/
def openGates (s : State) : State :=
  let f := fun (x : SideSt) => if x.link = .gated then { x with link := .up } else x
  { s with lan := { s.lan with lanes := s.lan.lanes.map fun l => { l with e1 := f l.e1, e2 := f l.e2 } } }

/-- Entry into INAUG, at a row start (05 R233, R235, R238). -/
def enterInaug (s : State) : State :=
  let c := s.trn.cause
  let s := cancelProposals s
  let s := clearInaug (takeBase s)
  let s := recordUnsent (openGates (setMemb .joining (setDev .inaug s)))
  let s := if freezesAtEntry c then freeze s else s
  let s := { s with trn := { s.trn with
    enterNext := false, lagging := false, restarts := 0, isoCause := 0, lastCause := c, detectClk := some (s.trn.detectClk.getD s.tm.clk) } }
  holdResets (raise 208 (detN c 0) (count 0x7080 1 (timeForDev s)))

/-- The restart of R281 at a row start: after the Cut the new epoch and the chosen pattern are the old epoch and the base. -/
def restartNow (s : State) : State :=
  if !s.trn.restartNext then s
  else if s.trn.restartFreeze then freeze (clearInaug (takeBase s))
  else clearInaug (takeBase s)

/-- ISOLATION_RETRY: after RETRY seconds the node clears the count and calls with CAUSE 2 (05 R282). -/
def retryInaug (s : State) : State :=
  causeFound 2 { s with trn := { s.trn with isoRestarts := false, noEntry := false, restarts := 0 } }

def execIsolationRetry (s : State) : Out3 :=
  .next (if s.trn.isoRestarts ∧ rfld s 0x7000 8 8 * 8000000000 ≤ s.tm.clk - s.trn.isoClk then retryInaug s else s)

/-! ### Discovery (05 R240–R246) -/

/-- The node adds no entry of its own (05 R241, R282). -/
def addsEntry (s : State) : Bool :=
  !s.trn.noEntry && (match s.tm.tstate with
    | .free => false
    | .acquire => s.tm.jammed
    | _ => true)

/-- The own entry (05 R240). -/
def ownEntry (s : State) : DiscEntry := { hk := s.kee.hk, vmin := 0, vmax := 0, cab := rbit s 0x7000 5, memb := s.trn.node != 0 }

/-- A DISC whose COUNT names entries. -/
def countOk (m : DiscMsg) : Bool := decide (1 ≤ m.count ∧ m.count ≤ 6)

/-- The messages of a wave that are read: those before a COUNT of 0 or above 6 (05 R240). -/
def waveRead (ms : List DiscMsg) : List DiscMsg := ms.takeWhile countOk

/-- The entries of a wave. -/
def waveEntries (ms : List DiscMsg) : List DiscEntry := ((waveRead ms).map (·.entries)).flatten

/-- The wave is complete (05 R240, R242). -/
def waveComplete (ms : List DiscMsg) : Bool := !ms.isEmpty && ms.all fun m => countOk m && m.complete

/-- Entries on one side: none where the node itself ends the chain there. -/
def sideWave (x : SideSt) : Option (List DiscEntry) :=
  match x.wave with
  | some w => if waveComplete w then some (waveEntries w) else none
  | none => if x.noPeer || x.link == .down || x.link == .spderr then some [] else none

/-- The list of one lane, when complete (05 R242). -/
def laneList (s : State) (l : LaneSt) : Option (List DiscEntry) :=
  match sideWave l.e1, sideWave l.e2 with
  | some a, some b => some (a ++ [ownEntry s] ++ b.reverse)
  | _, _ => none

/-- The longest list, the first of equals. -/
def longest (ls : List (List DiscEntry)) : Option (List DiscEntry) :=
  ls.foldl (fun b l => match b with
    | none => some l
    | some c => if c.length < l.length then some l else b) none

/-- Messages of 1 to 6 entries from position `at0` (05 R240, R241). The fuel is the entries' number. -/
def chunkWave (complete : Bool) : Nat → Nat → List DiscEntry → List DiscMsg
  | 0, _, _ => []
  | f + 1, at0, es =>
    let h := es.take 6
    let t := es.drop 6
    { complete := complete, last := t.isEmpty, first := at0, count := h.length, entries := h } :: if t.isEmpty then [] else chunkWave complete f (at0 + 6) t

/-- A wave forwarded with the own entry (05 R240, R241): the own entry takes the first free place of the last message, or a new
message; a wave that was cut short goes on as incomplete. -/
def forwardWave (s : State) (ms : List DiscMsg) : List DiscMsg :=
  let rd := waveRead ms
  let bad := decide (rd.length < ms.length)
  let rd := if bad then rd.map fun m => { m with complete := false } else rd
  if !addsEntry s then (if bad then (rd.dropLast ++ (rd.getLast?.toList.map fun m => { m with last := true })) else rd)
  else match rd.getLast? with
    | none => chunkWave false 1 0 [ownEntry s]
    | some m =>
      if m.count < 6 then rd.dropLast ++ [{ m with count := m.count + 1, entries := m.entries ++ [ownEntry s], last := true }]
      else rd.dropLast ++ [{ m with last := false }, { complete := m.complete, last := true, first := m.first + 6, count := 1, entries := [ownEntry s] }]

/-- The numbering that a list gives (05 R244). -/
structure Numbering where
  ver : Nat
  hks : List Nat
  /-- Node 1 lies toward the list's first entry. -/
  first : Bool
  deriving DecidableEq, Repr

/-- The common version of a list (05 R244). -/
def listVer (l : List DiscEntry) : Nat := l.foldl (fun v e => min v (e.vmax + 1)) 4

/-- Marked ISOLATED, with the ISOCAUSE: 1 version, 3 duplicate home key. -/
def markOf (l : List DiscEntry) (e : DiscEntry) : Nat :=
  if listVer l < e.vmin + 1 then 1 else if 2 ≤ (l.filter fun x => x.hk == e.hk).length then 3 else 0

/-- Node 1 lies toward the first of the unmarked entries (05 R244). -/
def nearFirst (u : List DiscEntry) : Bool :=
  let low := decide ((u.head?.map (·.hk)).getD 0 ≤ (u.getLast?.map (·.hk)).getD 0)
  match (u.zipIdx).filter (fun e => e.1.cab) with
  | [c] => if 2 * c.2 + 1 < u.length then true else if u.length < 2 * c.2 + 1 then false else low
  | _ => low

/-- The rule of 05 R244. -/
def numbering (l : List DiscEntry) : Numbering :=
  let u := l.filter fun e => markOf l e == 0
  let ord := if nearFirst u then u else u.reverse
  { ver := listVer l, first := nearFirst u, hks := (ord.map (·.hk)).take 62 }

/-- The own ISOCAUSE under a list: 4 beyond 62 nodes. -/
def ownMark (l : List DiscEntry) (own : DiscEntry) : Nat :=
  let k := markOf l own
  if k ≠ 0 then k else if (numbering l).hks.contains own.hk then 0 else 4

/-! ### Claims and digests (05 R247–R249) -/

/-- The own CLAIM. -/
def ownClaim (s : State) : InaugMsg :=
  { step := 1, num := s.trn.propNode, hk := s.kee.hk, f1 := s.trn.epoch, f2 := s.trn.node, f3 := s.trn.roleSrc.toNat, f4 := s.trn.mirrV.toNat
    f5 := rfld s 0x7004 0 8, f6 := rfld s 0x7004 8 8, f7 := rfld s 0x7004 16 8, unit := rfld s 0x7008 0 16 }

/-- The candidate enable bits after the local check (05 R249). -/
def penBits (s : State) : Nat :=
  ((List.range 4).map fun i =>
    let ok := rbit s 0x6024 (8 + i) && (match slotPrick s (rfld s 0x6024 (2 * i) 2) with
      | some p => decide (s.trn.propN ≤ p.maxnode) && check15 s p
      | none => false)
    flagAt ok i).foldl (· + ·) 0

/-- Digest of a slot, 0 where it is not valid. -/
def slotDigest (s : State) (i : Nat) : Nat := ((slotPrick s i).map (·.digest)).getD 0

/-- The own DIGEST messages (05 R248). -/
def ownDigest (s : State) (part : Bool) : DigestMsg :=
  let i := 2 * b2n part
  { part := part, va := (slotPrick s i).isSome, vb := (slotPrick s (i + 1)).isSome, pref := if part then 0 else rfld s 0x6024 0 8
    pen := if part then 0 else penBits s, da := word (slotDigest s i), db := word (slotDigest s (i + 1))
    listd := if part then 0 else word (crc32 (s.trn.propHks.map (BitVec.ofNat 8))) }

/-- An attempt begins with the own record (05 R255). -/
def startAttempt (s : State) : State :=
  { s with trn := { s.trn with
    attempts := s.trn.attempts + 1, confirmRow := false
    claims := if s.trn.propNode = 0 then [] else
      [(s.trn.propNode, { claim := some (ownClaim s), dig0 := some (ownDigest s false), dig1 := some (ownDigest s true) })] } }

/-- A DIGEST shows a list other than the one that numbering `n` comes from (05 R248). -/
def otherList (n : Numbering) (r : ClaimRec) : Bool := r.dig0.any fun d => d.listd != word (crc32 (n.hks.map (BitVec.ofNat 8)))

/-- Discovery has ended elsewhere without this node, whose list is `l`: it did not follow an AGREED, or a DIGEST shows another list
(05 R243, R255). -/
def leftOut (s : State) (l : List DiscEntry) : Bool := s.trn.lagging || s.trn.claims.any fun e => otherList (numbering l) e.2

/-- The end of a row of Discovery: the list of its ranging stitch (05 R242). A node that first has a list after Discovery has ended elsewhere
calls with CAUSE 2 (05 R243). -/
def closeDiscovery (s : State) : State :=
  let was := s.trn.lastList
  let ls := (List.range 3).filterMap fun l => if laneEn s l then laneList s (s.lan.lanes.getD l {}) else none
  let best := if addsEntry s then longest ls else none
  let s := { s with
    trn := { s.trn with lists := [], lastList := best }
    lan := { s.lan with lanes := s.lan.lanes.map fun l => { l with e1 := { l.e1 with wave := none }, e2 := { l.e2 with wave := none } } } }
  match was, best with
  | none, some l => if leftOut s l then { s with trn := { s.trn with call := some 2, restartNext := true, lagging := false } } else s
  | _, _ => s

/-- Discovery ends with list `l` (05 R244–R246). -/
def endDiscovery (l : List DiscEntry) (s : State) : State :=
  let n := numbering l
  let k := match n.hks.findIdx? (· == s.kee.hk) with
    | some i => i + 1
    | none => 0
  let iso := ownMark l (ownEntry s)
  startAttempt { s with trn := { s.trn with
    step := 3, list := l, propNode := if iso = 0 then k else 0, propN := n.hks.length, propHks := n.hks, propFore := !n.first
    propIso := iso, attempts := 0, call := none } }

/-- DISC: a wave that reaches a side in a ranging stitch (05 R240–R242); the lane's list, once it is complete, is kept. -/
def execDisc (l : LaneId) (sd : Side) (ms : List DiscMsg) (s : State) : Out3 :=
  .next (
    if s.dev.st ≠ .inaug then s
    else
      let i := laneIx l
      let lane := s.lan.lanes.getD i {}
      let lane := match sd with
        | .e1 => { lane with e1 := { lane.e1 with wave := some ms } }
        | .e2 => { lane with e2 := { lane.e2 with wave := some ms } }
      let s := { s with lan := { s.lan with lanes := s.lan.lanes.set i lane } }
      match (if addsEntry s then laneList s lane else none) with
      | some es => { s with trn := { s.trn with lists := tset s.trn.lists i es } }
      | none => s)

/-! ### Agreement (05 R250–R255) -/

/-- A node's record by its proposed number. -/
def claimOf (s : State) (k : Nat) : ClaimRec := tgetD s.trn.claims k {}

/-- A record with all of its first row. -/
def heard (r : ClaimRec) : Bool := r.claim.isSome && r.dig0.isSome && r.dig1.isSome

/-- CLAIM and DIGESTs of all N nodes are in. -/
def allHeard (s : State) : Bool := s.trn.propN != 0 && (List.range s.trn.propN).all fun i => heard (claimOf s (i + 1))

/-- What a record's DIGEST says of slot `i`: its digest when valid. -/
def recDigest (r : ClaimRec) (i : Nat) : Option Word :=
  let d := (if i < 2 then r.dig0 else r.dig1).getD {}
  if i % 2 = 0 then (if d.va then some d.da else none) else if d.vb then some d.db else none

/-- The chosen pattern: slot and digest (05 R250). -/
def choosePattern (s : State) : Option (Nat × Word) :=
  let recs := (List.range s.trn.propN).map fun i => claimOf s (i + 1)
  let one := (claimOf s 1).dig0.getD {}
  let cands := (List.range 4).filterMap fun i =>
    if bitOf one.pen i then
      let slot := bitsOf one.pref (2 * i) 2
      (recDigest (claimOf s 1) slot).map fun d => (slot, d, (recs.filter fun r => recDigest r slot == some d).length)
    else none
  match cands.find? fun c => c.2.2 == s.trn.propN with
  | some c => some (c.1, c.2.1)
  | none => (cands.foldl (fun b c => match b with
      | none => some c
      | some x => if x.2.2 < c.2.2 then some c else b) (none : Option (Nat × Word × Nat))).map fun c => (c.1, c.2.1)

/-- A candidate for a role: node number, group (0 first), priority, home key. -/
structure Cand where
  node : Nat
  group : Nat
  prio : Nat
  hk : Nat
  deriving DecidableEq, Repr

/-- The better candidate (05 R251). -/
def better (a b : Cand) : Bool :=
  decide (a.group < b.group ∨ a.group = b.group ∧ (b.prio < a.prio ∨ b.prio = a.prio ∧ a.hk < b.hk))

/-- Priority of a CLAIM for role `r` (05 R236). -/
def prioOf (m : InaugMsg) (r : Nat) : Nat :=
  match r with
  | 2 => m.f5 % 16
  | 3 => m.f5 / 16 % 16
  | 4 => m.f6 % 16
  | 5 => m.f6 / 16 % 16
  | 6 => m.f7 % 16
  | 7 => m.f7 / 16 % 16
  | _ => 0

/-- UNIT of node `k`. -/
def unitOf (s : State) (k : Nat) : Nat := ((claimOf s k).claim.getD {}).unit

/-- The elected holder of a role with priorities: nodes excluded, and the node whose unit the others' outranks (0 none). -/
def elect (s : State) (chosen : Option (Nat × Word)) (r : Nat) (excl : List Nat) (away : Nat) : Nat :=
  let cs := (List.range s.trn.propN).filterMap fun i =>
    let k := i + 1
    let m := (claimOf s k).claim.getD {}
    let has := match chosen with
      | some c => recDigest (claimOf s k) c.1 == some c.2
      | none => true
    if prioOf m r = 0 ∨ !has ∨ excl.contains k then none
    else some { node := k, group := if away ≠ 0 ∧ m.unit = unitOf s away then 1 else 0, prio := prioOf m r, hk := m.hk : Cand }
  ((cs.foldl (fun b c => match b with
      | none => some c
      | some x => if better c x then some c else b) (none : Option Cand)).map (·.node)).getD 0

/-- OLDEPOCH of node `k`. -/
def oldOf (s : State) (k : Nat) : Word := ((claimOf s k).claim.getD {}).f1

/-- The dominant epoch, 0 for none (05 R253). -/
def dominantOf (s : State) : Word := (((List.range s.trn.propN).map fun i => oldOf s (i + 1)).find? (· != 0)).getD 0

/-- Nodes of the dominant epoch whose CLAIM sets bit `r` of the field that `f` reads. -/
def claimants (s : State) (dom : Word) (f : InaugMsg → Nat) (r : Nat) : List Nat :=
  ((List.range s.trn.propN).map (· + 1)).filter fun k =>
    dom != 0 && oldOf s k == dom && bitOf (f ((claimOf s k).claim.getD {})) r

/-- The node that holds role home `r` whole (05 R267): where two claim it, the one that the dominant epoch names. 0 none. -/
def sourceOf (s : State) (dom : Word) (r : Nat) : Nat :=
  let cs := claimants s dom (·.f3) r
  match cs.find? fun k => s.trn.epoch == dom && ((claimOf s k).claim.getD {}).f2 == s.trn.holders.getD r 0 with
  | some k => k
  | none => cs.headD 0

/-- Holders per role (05 R251, R283). -/
def electAll (s : State) (chosen : Option (Nat × Word)) (dom : Word) : List Nat :=
  let cabs := ((List.range s.trn.propN).map (· + 1)).filter fun k => s.trn.list.any fun e => e.hk == s.trn.propHks.getD (k - 1) 0 && e.cab
  let keep := fun (r v : Nat) => if chosen.isNone && sourceOf s dom r != 0 then sourceOf s dom r else v
  let lead := keep 0 (match cabs with
    | [k] => k
    | _ => 1)
  let tail := keep 1 s.trn.propN
  let grid := keep 2 (elect s chosen 2 [] 0)
  let grid2 := keep 3 (elect s chosen 3 [grid] grid)
  let mirror := keep 4 (elect s chosen 4 [lead, grid] lead)
  [lead, tail, grid, grid2, mirror, keep 5 (elect s chosen 5 [] 0), keep 6 (elect s chosen 6 [] 0), keep 7 (elect s chosen 7 [] 0)]

/-- The new epoch (05 R253). -/
def newEpoch (s : State) : Word :=
  let top := ((List.range s.trn.propN).map fun i => (oldOf s (i + 1)).toNat / 256).foldl max 0
  word ((if top = 0xFFFFFF then 1 else top + 1) * 256 + s.trn.propHks.headD 0)

/-- The outcome of an attempt whose records are all in (05 R250–R254). -/
def outcomeOf (s : State) : Outcome :=
  let c := choosePattern s
  let dom := dominantOf s
  { n := s.trn.propN, ver := listVer s.trn.list, slot := (c.map (·.1)).getD 4, digest := (c.map (·.2)).getD 0, epoch := newEpoch s
    dominant := dom, holders := electAll s c dom, hks := s.trn.propHks }

/-- The outcome record (05 R254). -/
def outcomeBytes (o : Outcome) : List Byte :=
  leBytes 1 o.n ++ leBytes 1 o.ver ++ leBytes 1 o.slot ++ [0] ++ leBytes 4 o.digest.toNat ++ leBytes 4 o.epoch.toNat ++ leBytes 4 o.dominant.toNat
    ++ o.holders.map (BitVec.ofNat 8) ++ o.hks.map (BitVec.ofNat 8)

/-- OUTD. -/
def outd (o : Outcome) : Word := word (crc32 (outcomeBytes o))

/-- The outcome, once every record is in. -/
def tryOutcome (s : State) : State :=
  if s.trn.step = 3 ∧ allHeard s then { s with trn := { s.trn with outcome := some (outcomeOf s) } } else s

/-- A record of node `k` changed. -/
def modClaim (k : Nat) (f : ClaimRec → ClaimRec) (s : State) : State :=
  { s with trn := { s.trn with claims := tset s.trn.claims k (f (claimOf s k)) } }

/-- Takes part in an inauguration before its Cut. -/
def inaugOpen (s : State) : Bool := s.dev.st == .inaug && decide (s.trn.step ≤ 5)

/-- CLAIM (05 R247, R255). -/
def execInaugClaim (src : Nat) (m : InaugMsg) (s : State) : Out3 :=
  .next (if inaugOpen s then tryOutcome (modClaim src (fun r => { r with claim := some m }) s) else s)

/-- DIGEST (05 R248, R249). -/
def execDigest (src : Nat) (m : DigestMsg) (s : State) : Out3 :=
  .next (
    if inaugOpen s then
      tryOutcome (modClaim src (fun r => if m.part then { r with dig1 := some m } else { r with dig0 := some m }) s)
    else s)

/-- The own OUTD: of the outcome computed. -/
def ownOutd (s : State) : Option Word := s.trn.outcome.map outd

/-- Every numbered node confirmed the own OUTD; the own confirmation is the outcome itself. -/
def allConfirm (s : State) : Bool :=
  match ownOutd s with
  | none => false
  | some d => (List.range s.trn.propN).all fun i => i + 1 == s.trn.propNode || (claimOf s (i + 1)).confirm == some d

/-- The master places AGREED in the next pattern frame once it heard every CONFIRM (05 R255). -/
def masterAgree (s : State) : State :=
  if s.tm.master ∧ s.trn.step = 3 ∧ s.trn.confirmRow ∧ allConfirm s then { s with trn := { s.trn with sendAgreed := true } } else s

/-- CONFIRM (05 R255). -/
def execConfirm (src : Nat) (m : InaugMsg) (s : State) : Out3 :=
  .next (if inaugOpen s then masterAgree (modClaim src (fun r => { r with confirm := some m.f1 }) s) else s)

/-- Attempts before the inauguration restarts (05 R255). -/
def maxAttempts (s : State) : Nat := if bandFast s then 3 else 2

/-- AGREED reaches a node: Freeze begins, and Agreement ends; a node with another OUTD restarts Discovery alone, and one that is still in
Discovery has been left out (05 R238, R243, R255, R281). -/
def takeAgreed (d : Word) (s : State) : State :=
  if s.dev.st ≠ .inaug ∨ !(s.trn.step = 2 ∨ s.trn.step = 3) then s
  else
    let s := freeze s
    if s.trn.step = 3 ∧ ownOutd s = some d then { s with trn := { s.trn with agreed := some d, step := 4, sendAgreed := false } }
    else { s with trn := { s.trn with lagging := s.trn.lagging || !s.trn.restartNext, restartNext := s.trn.restartNext || s.trn.step == 3 } }

/-- STATUS AGREED. -/
def execStatusAgreed (m : InaugMsg) (s : State) : Out3 := .next (takeAgreed m.f1 s)

/-- AGREEMENT_TIMEOUT: AGREED has not appeared after the attempts of R255. -/
def execAgreementTimeout (s : State) : Out3 :=
  .next (
    if s.dev.st = .inaug ∧ s.trn.step = 3 ∧ s.trn.agreed = none ∧ s.trn.confirmRow ∧ maxAttempts s ≤ s.trn.attempts then
      restart s.trn.cause true s
    else s)

/-! ### Freeze and drain (05 R256–R259) -/

/-- The node is drained (05 R258). -/
def drained (s : State) : Bool :=
  s.home.trks.isEmpty && s.ten.bobs.all fun e => !(e.2.left.isSome && e.2.wait == .answer)

/-- The first row in which the node is drained: from there on it says so in every row until the Cut (05 R258). -/
def noteDrained (s : State) : State := { s with trn := { s.trn with wasDrained := s.trn.wasDrained || drained s } }

/-- The row that starts within Discovery, Agreement or the drain (05 R242, R247, R255, R258). -/
def agreementRow (s : State) : State :=
  if s.dev.st ≠ .inaug then s
  else if s.trn.step = 2 then
    let prev := s.trn.lastList
    let s := closeDiscovery s
    match s.trn.lastList with
    | some l => if prev = some l then endDiscovery l s else s
    | none => s
  else if s.trn.step = 3 ∧ s.trn.agreed = none then
    if !s.trn.confirmRow then tryOutcome { s with trn := { s.trn with confirmRow := true } }
    else if s.trn.attempts < maxAttempts s then startAttempt s
    else s
  else if s.trn.step = 4 ∨ s.trn.step = 5 then noteDrained s
  else s

/-- Every numbered node is drained, as the master knows it. -/
def allDrained (s : State) : Bool :=
  s.trn.propN != 0 && (List.range s.trn.propN).all fun i => if i + 1 = s.trn.propNode then s.trn.wasDrained else (claimOf s (i + 1)).drained

/-- Drain ends at the master. -/
def endDrain (s : State) : State := { s with trn := { s.trn with drainEnd := true, step := 5 } }

/-- DRAINED (05 R258, R259). -/
def execDrained (src : Nat) (m : InaugMsg) (s : State) : Out3 :=
  .next (
    if inaugOpen s ∧ m.step = 3 then
      let s := modClaim src (fun r => { r with drained := true }) s
      if s.tm.master ∧ s.trn.step = 4 ∧ allDrained s then endDrain s else s
    else s)

/-- DRAIN_LIMIT: 15 rows at 1000 Mb/s and 3 at 100 Mb/s since Freeze (05 R259). -/
def execDrainLimit (s : State) : Out3 :=
  .next (
    if s.dev.st = .inaug ∧ s.tm.master ∧ s.trn.step = 4 ∧ s.trn.frozen ∧ (if bandFast s then 15 else 3) ≤ s.tm.rows - s.trn.freezeRow then
      endDrain s
    else s)

/-- CUTHOOP of a STATUS CUT (05 R236). -/
def cutHoopOf (m : InaugMsg) : Word := word (m.f2 + 256 * m.f3 + 65536 * m.f4 + 16777216 * m.f5)

/-- STATUS CUT, with the OUTD agreed: the Cut comes at the start of CUTHOOP (05 R259). -/
def execStatusCut (m : InaugMsg) (s : State) : Out3 :=
  .next (
    if s.dev.st = .inaug ∧ s.trn.agreed = some m.f1 ∧ (s.trn.step = 4 ∨ s.trn.step = 5) then
      { s with trn := { s.trn with cutHoop := some (cutHoopOf m), step := 5 } }
    else s)

end Sys2Proof.Machine
end

