-- ==== Sys2Proof/Machine/Migrate.lean ====
section
/-! DEFINITION. Moving role homes and mirrored lines: the transfers, MIG_LINE, MIG_DIR, MIG_DONE and the retry (05 R267–R277;
10 R545–R547). -/

namespace Sys2Proof.Machine

/-- Line address of line `lx` of role `r`. -/
def roleLa (r lx : Nat) : Nat := (0xE0 + r) * 65536 + lx

/-- A role's line indexes. -/
def roleLines : List Nat := List.range 0x400

/-- Lines of role `r` that a transfer sends: those in a mapped region, or the mirrored ones alone (05 R267, R271, R273). -/
def moveLines (s : State) (r : Nat) (mirrorOnly : Bool) : List Nat :=
  roleLines.filter fun lx => if mirrorOnly then isMirrored s (roleLa r lx) else (regionAt s (roleLa r lx)).isSome

/-- Directory groups with any filter entry, by their first line (05 R271). -/
def moveDirs (s : State) (r : Nat) : List Nat :=
  ((List.range 128).map (8 * ·)).filter fun g => (List.range 8).any fun i => (fEntry s (roleLa r (g + i))).isSome

/-- The ROLESRC bit of role `r` is set here. -/
def isSource (s : State) (r : Nat) : Bool := s.trn.roleSrc.getLsbD r

/-- One bit of a role field. -/
def roleBit (r : Nat) : BitVec 8 := BitVec.ofNat 8 (2 ^ r)

/-- A transfer as it begins: of the whole role home from its source, of the mirrored lines from the MIRROR holder, or the refill of a
new MIRROR holder (05 R267, R271, R273). -/
def freshMove (s : State) (r dst : Nat) (mirror : Bool) : MigOut :=
  let full := !mirror && isSource s r
  { role := r, dst := dst, mirror := mirror, todo := moveLines s r (!full), dirs := if full then moveDirs s r else [] }

/-- The tracker of a transfer is free again. -/
def dropMove (r : Nat) (mirror : Bool) (s : State) : State :=
  setTrks (s.home.trks.filter fun t => !(t.purpose == .move mirror && t.la == roleLa r 0)) s

/-- A transfer takes a reserved tracker (06 R315); with none free it goes on without (DESIGN CHOICE, log 132). -/
def takeMove (r : Nat) (mirror : Bool) (s : State) : State :=
  match takeReserved s with
  | none => s
  | some ix =>
    setTrks ({ ix := ix, kind := .reserved, purpose := .move mirror, la := roleLa r 0, msg := { typ := .migDone, la := roleLa r 0 }
               phase := .mirror, row := s.tm.rows } :: s.home.trks) s

/-- A transfer begun. -/
def beginMove (r dst : Nat) (mirror : Bool) (s : State) : State :=
  takeMove r mirror (dropMove r mirror { s with trn := { s.trn with
    migOut := s.trn.migOut.filter (fun m => !(m.role == r && m.mirror == mirror)) ++ [freshMove s r dst mirror] } })

/-- Code of a home state in MIG_DIR (05 R269). -/
def dirCode : FState → Nat
  | .sh => 1
  | .ex => 2
  | .pub => 3

/-- MIG_DIR of the group that begins at line `g` (05 R269). -/
def migDirMsg (s : State) (r g dst : Nat) : LineMsg :=
  let es := (List.range 8).map fun i => fEntry s (roleLa r (g + i))
  { typ := .migDir, cls := .c1, dst := dst, la := roleLa r g
    param := word ((es.zipIdx.map fun e => flagAt e.1.isSome e.2).foldl (· + ·) 0)
    data := lineOf (es.map fun e => match e with
      | some f => leBytes 8 (f.vec.toNat + 2 ^ 62 * dirCode f.st)
      | none => leBytes 8 0).flatten }

/-- MIG_DONE that closes a transfer (05 R270). -/
def migDoneMsg (m : MigOut) (lines dirs : Nat) : LineMsg :=
  { typ := .migDone, cls := .c1, dst := m.dst, la := roleLa m.role 0, flg := BitVec.ofNat 3 (2 * b2n m.mirror), param := word (lines + 65536 * dirs) }

/-- The ACK of a transfer, for every node, queued for the next C0 response stitch (05 R270); it takes effect as it leaves (R274). -/
def sendMigAck (r : Nat) (mirror : Bool) (s : State) : State :=
  queueMsg { typ := .migDone, cls := .c0, dst := 63, la := roleLa r 0, flg := BitVec.ofNat 3 (1 + 2 * b2n mirror) } none s

/-- Storage of role `r` emptied, or made ORPHAN (05 R263, R267). -/
def wipeRole (r : Nat) (orphan : Bool) (s : State) : State :=
  let ours := fun (x : Nat) => decide (0x2000 + 0x400 * r ≤ x ∧ x < 0x2400 + 0x400 * r)
  let blank := if orphan then roleLines.map fun lx => (0x2000 + 0x400 * r + lx, ({ orphan := true } : HomeLine)) else []
  let below := s.home.lines.filter fun e => decide (e.1 < 0x2000 + 0x400 * r)
  let above := s.home.lines.filter fun e => decide (0x2400 + 0x400 * r ≤ e.1)
  { s with home := { s.home with lines := below ++ blank ++ above, filter := s.home.filter.filter fun e => !ours e.1 } }

/-- The lines that are not mirrored become ORPHAN at a holder that rebuilds the role from its own mirror copies (05 R267). -/
def orphanRest (r : Nat) (s : State) : State :=
  each (roleLines.filter fun lx => !isMirrored s (roleLa r lx)) (fun s lx => setLine (roleLa r lx) { orphan := true } s) s

/-! ### The ACK of a transfer -/

/-- A transfer's ACK is known at this node: it is no longer awaited (05 R278). -/
def ackKnown (r : Nat) (mirror : Bool) (s : State) : State :=
  { s with trn := { s.trn with needAck := s.trn.needAck.filter (· != (r, mirror)) } }

/-- The claim of a role that moves is complete (10 R546, R547): the requests go to the claimant from now on. -/
def roleMoved (r : Nat) (s : State) : State :=
  let s := { s with pat := { s.pat with moving := s.pat.moving.filter (·.1 != r) } }
  match s.ten.bobs.find? fun e => e.2.job.op == 0x45 && e.2.wait == .agree && argB e.2.job 0 == r && e.2.kind == .job with
  | some e => if s.dev.st = .run ∧ s.trn.holders.getD r 0 = s.trn.node then complete e.1 { res0 := e.2.due.toNat } s else s
  | none => s

/-- A transfer record of this node as receiver. -/
def migInOf (s : State) (r : Nat) (mirror : Bool) : Option MigIn := s.trn.migIn.find? fun m => m.role == r && m.mirror == mirror

/-- A transfer record changed, or made. -/
def modMigIn (r src : Nat) (mirror : Bool) (f : MigIn → MigIn) (s : State) : State :=
  let m := (migInOf s r mirror).getD { role := r, src := src, mirror := mirror }
  { s with trn := { s.trn with migIn := s.trn.migIn.filter (fun x => !(x.role == r && x.mirror == mirror)) ++ [f m] } }

/-- The new holder's copies of the role's lines are its own lines now (01 R23; DEDUCED, log 61). -/
def ownRole (r : Nat) (s : State) : State :=
  each (s.cc.ways.filter fun e => laHk e.2.la == 0xE0 + r && e.2.held.isNone) (fun s e => ownLine e.2.la s) s

/-- The ACK of a transfer leaves: the ROLESRC bit of the new holder is set, or a refilled mirror is valid (05 R274). A role that was rebuilt
refills a new MIRROR holder in turn (05 R273). -/
def ackEffect (r : Nat) (mirror : Bool) (s : State) : State :=
  let s := if mirror then { s with trn := { s.trn with mirrV := s.trn.mirrV ||| roleBit r } }
    else ownRole r { s with trn := { s.trn with roleSrc := s.trn.roleSrc ||| roleBit r, held := s.trn.held ||| roleBit r } }
  let s := if !mirror && s.trn.needAck.contains (r, true) then beginMove r (mirrorNode s) true s else s
  let s := ackKnown r mirror s
  if mirror then s else roleMoved r s

/-- An ACK of a transfer leaves this node in a C0 response stitch; the first one takes effect (05 R270, R274). -/
def ackLeft (m : LineMsg) (s : State) : State :=
  match roleOf (laHk m.la) with
  | none => s
  | some r =>
    let mirror := m.flg.getLsbD 1
    if m.dst = 63 ∧ m.flg.getLsbD 0 ∧ (migInOf s r mirror).any (fun x => x.done && !x.acked) then
      ackEffect r mirror (modMigIn r 0 mirror (fun x => { x with acked := true }) s)
    else s

/-- The lines of a transfer that have come, with one more: a line of the same version again, or one before those that have come, begins the
transfer anew (05 R271; DEDUCED, log 136); a newer version of one is a further MIG_LINE (10 R546). -/
def gotLine (lx : Nat) (v : Word) (x : MigIn) : MigIn :=
  let anew := { x with got := [(lx, v)], more := 0, dirs := [], done := false, acked := false }
  match tget x.got lx with
  | some w => if newer v w then { x with got := tset x.got lx v, more := x.more + 1, done := false, acked := false } else anew
  | none => if x.got.any fun e => lx < e.1 then anew else { x with got := tset x.got lx v, done := false, acked := false }

/-- The directory groups that have come, with one more. -/
def gotDir (lx : Nat) (x : MigIn) : MigIn :=
  { x with dirs := if x.dirs.any fun d => lx ≤ d then [lx] else x.dirs ++ [lx], done := false, acked := false }

/-! ### MIG_LINE (05 R268, R271, R276, R277) -/

/-- The line that a MIG_LINE carries. -/
def migLineOf (s : State) (m : LineMsg) : HomeLine :=
  let p := m.param.toNat
  { data := m.data, version := m.version, ageBase := m.age, ageRow := s.tm.rows
    key := if bitOf p 21 then some { trk := p % 1024, ten := bitsOf p 10 3, hk := bitsOf p 13 8 } else none
    orphan := bitOf p 22, lost := bitOf p 23 }

/-- The line stored unless the node holds a higher version (05 R271); its key joins the replay table (05 R265). -/
def storeMig (m : LineMsg) (s : State) : State :=
  let h := migLineOf s m
  let old := homeLine s m.la
  if newer old.version m.version && !old.orphan then s
  else
    let s := setLine m.la h s
    match h.key with
    | some k => if s.dev.st = .inaug then replayAdd m.la k m.version (m.cls == .c0) s else s
    | none => s

/-- An answer to one mirror send, with the line's LA and VERSION (05 R276). -/
def mirrorAck (r : Rx) (s : State) : State :=
  queueMsg { typ := .migDone, cls := r.msg.cls, dst := r.src, la := r.msg.la, version := r.msg.version, flg := 3 } none s

/-- An OWNED MIG_LINE at a role's new holder: committed one version above the line's, which is ORPHAN no more (05 R277). -/
def takeOwned (m : LineMsg) (s : State) : State :=
  (mirrorSend m.la (homeCommit m.la m.data none none (setLine m.la { homeLine s m.la with orphan := false } s))).1

/-- MIG_LINE at its receiver: a line of a transfer comes in a migration stitch, a mirror send in another (05 R272). -/
def takeMigLine (r : Rx) (s : State) : State :=
  let m := r.msg
  match forNode s r, roleOf (laHk m.la) with
  | true, some k =>
    if m.flg.getLsbD 0 then
      if r.mig then modMigIn k r.src true (gotLine (laLx m.la) m.version) (storeMig m s) else mirrorAck r (storeMig m s)
    else if m.flg.getLsbD 1 then takeOwned m s
    else modMigIn k r.src false (gotLine (laLx m.la) m.version) (storeMig m s)
  | _, _ => s

/-- MIG_LINE. -/
def execMigLine (r : Rx) (s : State) : Out3 := .next (takeMigLine { r with msg := { r.msg with typ := .migLine } } s)

/-! ### MIG_DIR (05 R269) -/

/-- The state of a directory code. -/
def dirState : Nat → Option FState
  | 1 => some .sh
  | 2 => some .ex
  | 3 => some .pub
  | _ => none

/-- Entry `i` of a MIG_DIR: its line's filter entry, without the new holder, which is no sharer of its own line; C0 PUBLISH lines are anchored
(06 R318). -/
def dirEntry (m : LineMsg) (s : State) (i : Nat) : Option FEntry :=
  let w := leNat (lineGet m.data (8 * i) 8)
  if !bitOf m.param.toNat i then none
  else (dirState (w / 2 ^ 62)).bind fun st =>
    let vec := dropNode (BitVec.ofNat 62 (w % 2 ^ 62)) s.trn.node
    if vec = 0 then none else some { st := st, vec := vec, anchor := c0Line s (m.la + i) }

/-- One entry of a MIG_DIR written; in a full set it waits for a way on a reserved tracker (06 R315, R319; 07 R371). -/
def takeDir (m : LineMsg) (s : State) (i : Nat) : State :=
  let la := m.la + i
  match dirEntry m s i with
  | none => s
  | some e =>
    if hasWay s la then
      setEntry la (some { e with seq := s.home.fseq }) { s with home := { s.home with fseq := s.home.fseq + 1 } }
    else match takeReserved s with
      | none => s
      | some ix =>
        let t : Tracker := { ix := ix, kind := .reserved, purpose := .dir e, la := la, msg := { typ := .migDir, la := la }, phase := .way
                             row := s.tm.rows }
        dirTrk t e (setTrks (t :: s.home.trks) s)

/-- Every entry of a MIG_DIR has a way, or a reserved tracker to wait for one. -/
def dirFits (m : LineMsg) (s : State) : Bool :=
  let full := (List.range 8).filter fun i => (dirEntry m s i).isSome && !hasWay s (m.la + i)
  decide (full.length ≤ ((List.range 128).filter fun k => s.home.trks.all fun t => t.ix != 896 + k).length)

/-- MIG_DIR at the new holder. One that finds no room is not counted, so that its transfer comes again (05 R270, R271; DEDUCED,
log 136). -/
def takeMigDir (r : Rx) (s : State) : State :=
  match forNode s r, roleOf (laHk r.msg.la) with
  | true, some k =>
    if dirFits r.msg s then modMigIn k r.src false (gotDir (laLx r.msg.la)) (each (List.range 8) (takeDir r.msg) s) else s
  | _, _ => s

/-- MIG_DIR. -/
def execMigDir (r : Rx) (s : State) : Out3 := .next (takeMigDir { r with msg := { r.msg with typ := .migDir } } s)

/-! ### MIG_DONE (05 R270, R274, R276, R278; 10 R546) -/

/-- A transfer closed: acknowledged when every counted message is here; else the count begins anew with the next transfer
(05 R270, R271). -/
def closeMove (r : Rx) (k : Nat) (s : State) : State :=
  let mirror := r.msg.flg.getLsbD 1
  let p := r.msg.param.toNat
  let x := (migInOf s k mirror).getD { role := k, src := r.src, mirror := mirror }
  if x.done then sendMigAck k mirror s
  else if p % 65536 ≤ x.got.length + x.more ∧ p / 65536 ≤ x.dirs.length then
    sendMigAck k mirror (modMigIn k r.src mirror (fun y => { y with done := true, got := [], more := 0, dirs := [] }) s)
  else modMigIn k r.src mirror (fun y => { y with got := [], more := 0, dirs := [] }) s

/-- The source hears the ACK of its transfer (05 R274): the ROLESRC bit passes; the old holder discards held requests and stops acting
for the home key (10 R546). -/
def sourceAcked (k : Nat) (s : State) : State :=
  let s := { s with trn := { s.trn with roleSrc := s.trn.roleSrc &&& ~~~(roleBit k), held := s.trn.held &&& ~~~(roleBit k) } }
  { s with home := { s.home with
    trks := s.home.trks.filter fun t => roleOf (laHk t.la) != some k
    filter := s.home.filter.filter fun e => !decide (0x2000 + 0x400 * k ≤ e.1 ∧ e.1 < 0x2400 + 0x400 * k) } }

/-- An ACK for every node. -/
def hearAck (k : Nat) (mirror : Bool) (s : State) : State :=
  let mine := s.trn.migOut.any fun m => m.role == k && m.mirror == mirror
  let s := dropMove k mirror { s with trn := { s.trn with migOut := s.trn.migOut.filter fun m => !(m.role == k && m.mirror == mirror) } }
  let s := if mine && !mirror && s.trn.holders.getD k 0 != s.trn.node then sourceAcked k s else s
  let s := ackKnown k mirror s
  if mirror then s else roleMoved k s

/-- MIG_DONE: the close of a transfer, its ACK, or the answer to a mirror send. -/
def takeMigDone (r : Rx) (s : State) : State :=
  match forNode s r, roleOf (laHk r.msg.la) with
  | true, some k =>
    if !r.msg.flg.getLsbD 0 then closeMove r k s
    else if r.msg.dst = 63 then hearAck k (r.msg.flg.getLsbD 1) s
    else mirrorAnswer r.msg.la r.msg.version s
  | _, _ => s

/-- MIG_DONE. -/
def execMigDone (r : Rx) (s : State) : Out3 := .next (takeMigDone { r with msg := { r.msg with typ := .migDone } } s)

/-- MIGRATION_RETRY: no ACK two rows after MIG_DONE: the whole transfer is sent again (05 R271). -/
def execMigrationRetry (role : Nat) (s : State) : Out3 :=
  .next (
    let late := fun (m : MigOut) => m.role == role && (match m.doneRow with
      | some r => decide (2 ≤ s.tm.rows - r)
      | none => false)
    { s with trn := { s.trn with migOut := s.trn.migOut.map fun m => if late m then freshMove s m.role m.dst m.mirror else m } })

/-- The messages of the transfers still to send, in order, with the action of each on the state when it leaves: lines, directory, and
MIG_DONE once nothing else of the transfer waits (05 R271). -/
def migQueue (s : State) : List LineMsg :=
  (s.trn.migOut.map fun m =>
    if m.doneRow.isSome then []
    else m.todo.map (fun lx => migLineMsg s (roleLa m.role lx) m.dst .c1 m.mirror false)
      ++ m.dirs.map (fun g => migDirMsg s m.role g m.dst)
      ++ [migDoneMsg m (m.sentLines + m.todo.length) (m.sentDirs + m.dirs.length)]).flatten

/-- A message of a transfer leaves. -/
def migLeft (m : LineMsg) (s : State) : State :=
  let k := (roleOf (laHk m.la)).getD 8
  let mirror := if m.typ = .migDone then m.flg.getLsbD 1 else m.flg.getLsbD 0
  let f := fun (x : MigOut) =>
    if x.role != k || x.doneRow.isSome then x
    else match m.typ with
      | .migLine => if x.mirror == mirror && x.todo.contains (laLx m.la) then { x with todo := x.todo.erase (laLx m.la), sentLines := x.sentLines + 1 } else x
      | .migDir => if !x.mirror && x.dirs.contains (laLx m.la) then { x with dirs := x.dirs.erase (laLx m.la), sentDirs := x.sentDirs + 1 } else x
      | _ => if x.mirror == mirror then { x with doneRow := some s.tm.rows } else x
  { s with trn := { s.trn with migOut := s.trn.migOut.map f } }

end Sys2Proof.Machine
end

