-- ==== Sys2Proof/Machine/Sides.lean ====
section
/-! DEFINITION. The records of the lanes and their sides, and the hop delays held against the pattern in force (03 R149, R174; 04 R226). -/

namespace Sys2Proof.Machine

/-- A lane's record. -/
def laneAt (s : State) (l : LaneId) : LaneSt := s.lan.lanes.getD (laneIx l) {}

/-- A lane's record changed. -/
def modLane (l : LaneId) (f : LaneSt → LaneSt) (s : State) : State := { s with lan := { s.lan with lanes := s.lan.lanes.modify (laneIx l) f } }

/-- A side's record changed. -/
def modSide (l : LaneId) (sd : Side) (f : SideSt → SideSt) (s : State) : State :=
  modLane l (fun x => match sd with
    | .e1 => { x with e1 := f x.e1 }
    | .e2 => { x with e2 := f x.e2 }) s

/-- REP_NOM in 0.125 ns units (03 R149, LAN_REPLAT). -/
def repNom (s : State) (l : LaneId) : Nat := if laneFast s (laneIx l) then 5120 else 44800

/-- The longer hop over a side's link, in 0.125 ns units: the delay of the link in its direction plus REP_NOM (03 R174, 04 R226). -/
def hopDelay (s : State) (l : LaneId) (x : SideSt) : Int := max x.dIn x.dOut + repNom s l

/-- A ranged hop is longer than the pattern in force allows on its lane (04 R226). -/
def hopLong (s : State) (l : LaneId) (x : SideSt) : Bool :=
  match basePrick s with
  | some p => x.hasMean && bitOf p.lanes (laneIx l) && decide ((p.hopmax.getD (laneIx l) 0 * 8 : Int) < hopDelay s l x)
  | none => false

/-- A side's hop held against HOPMAX: PAT_HOP_LONG when it comes to exceed it (04 R226). -/
def judgeHop (l : LaneId) (sd : Side) (s : State) : State :=
  let x := sideOf s l sd
  let far := hopLong s l x
  let t := modSide l sd (fun x => { x with hopOver := far }) { s with pat := { s.pat with hopLong := s.pat.hopLong || far } }
  if far && !x.hopOver then raise 225 (detLS (laneIx l) (sideIx sd) 0 0 (ctrGet t 0x608C + 1)) (count 0x608C 1 t) else t

/-- Every hop held against the HOPMAX of a pattern that has just come into force. -/
def judgeHops (s : State) : State :=
  each [LaneId.a, LaneId.b, LaneId.c] (fun s l => each [Side.e1, Side.e2] (fun s sd =>
    judgeHop l sd (modSide l sd (fun x => { x with hopOver := false }) s)) s) { s with pat := { s.pat with hopLong := false } }

end Sys2Proof.Machine
end

