-- ==== Sys2Proof/Machine/Cut.lean ====
section
/-! DEFINITION. The Cut and Resume (05 R260–R267, R277–R280; 07 R361–R363, R367). -/

namespace Sys2Proof.Machine

/-! ### Sharer vectors and home lines (05 R261, R262, R264) -/

/-- A vector of old numbers in the new numbering (05 R261). -/
def remapVec (old new : List Nat) (v : Sharers) : Sharers :=
  (nodesOf v).foldl (fun a k =>
    match new.findIdx? (· == old.getD (k - 1) 0) with
    | some i => a ||| nodeBit (i + 1)
    | none => a) 0

/-- One filter entry at the Cut: an owner that is gone loses the line (05 R262); an entry without sharers leaves unless anchored. -/
def remapEntry (old new : List Nat) (x : Nat) (e : FEntry) (s : State) : State :=
  let la := laOf s.kee.hk x
  let v := remapVec old new e.vec
  let s := if e.st = .ex ∧ e.vec ≠ 0 ∧ v = 0 then
      let h := homeLine s la
      raise 141 (detLA la) (cohCount 8 (setLine la { h with version := h.version + 1, lost := true, ageBase := 0, ageRow := s.tm.rows } s))
    else s
  if v = 0 then (if e.anchor then setEntry la (some { e with vec := 0 }) s else setEntry la none s)
  else setEntry la (some { e with vec := v }) s

/-! ### Copies and requests (05 R263, R264; 07 R361, R362) -/

/-- A line held after a RECALL returns to M, its WRITEBACK with REPLAY waiting for Resume (07 R361); where no internal bobbin is free it
stays in M (log 33). -/
def unholdCopy (k : Nat) (c : Copy) (s : State) : State :=
  let s := setCopy k { c with st := .m, held := none, stale := false } s
  match freeIntern s with
  | none => s
  | some b =>
    let cls := remoteCls s c.la (clsAt s c.la .c1)
    let m : LineMsg := { typ := .writeback, cls := cls, trk := b, la := c.la, version := c.version, data := c.data, replay := true }
    let s := { s with ten := { s.ten with seq := s.ten.seq + 1 } }
    let s := setBob b { kind := .intern, job := { ten := 0, op := 0x10, la := c.la }, wait := .answer, cls := cls, req := some m, replay := true } s
    setCopy k { c with st := .m, held := none, bob := some b } s

/-- One way at the Cut. -/
def cutCopy (s : State) (e : Nat × Copy) : State :=
  let c := e.2
  if c.held.isSome then (if (copyOf s c.la).isSome then dropWay e.1 s else unholdCopy e.1 c s)
  else
    let st := if c.again.any (·.2.2) then .m else stableOf c
    let stale := c.stale || (st == .p && remoteCls s c.la (clsAt s c.la .c1) != .c0)
    setCopy e.1 { c with st := st, stale := stale, again := none, recalled := none, inval := false } s

/-- A copy is discarded at the Cut (05 R263): its home key is in use no more, or it is a role line of an epoch that does not dominate. -/
def discards (s : State) (dominant : Bool) (la : Nat) : Bool :=
  !hkInUse s (laHk la) || homeNode s la == 0 || (!dominant && (roleOf (laHk la)).isSome)

/-- The copies of R263 discarded; the modified ones are counted. -/
def discardCopies (dominant : Bool) (s : State) : State := dropCopies (fun e => discards s dominant e.2.la && e.2.st != .i) s

/-- A copy's way is its copy's no more; the place of a request that is still to be answered stays, invalid. -/
def leaveWay (k : Nat) (c : Copy) (s : State) : State :=
  match c.bob with
  | some _ => setCopy k { c with st := .i } s
  | none => dropWay k s

/-- Modified data of a line homed here, of the node's own copy: committed, and sent to the mirror (05 R276, R277). -/
def commitOwn (la : Nat) (data : Line) (s : State) : State := (mirrorSend la (homeCommit la data none none s)).1

/-- The owner of a modified copy of a role line that is rebuilt sends it to the new holder, OWNED (05 R268, R277); the copy ends with it
(DEDUCED, log 62). -/
def sendOwned (rebuilt : Nat → Bool) (s : State) : State :=
  each (s.cc.ways.filter fun e => e.2.st == .m && (roleOf (laHk e.2.la)).any rebuilt) (fun s e =>
    let la := e.2.la
    let m : LineMsg := { typ := .migLine, cls := .c1, dst := homeNode s la, flg := 2, la := la, age := copyAge s e.2, version := e.2.version
                         data := e.2.data }
    queueMsg m none (leaveWay e.1 e.2 s)) s

/-- A line that has become homed here keeps no copy: modified data is committed, and ends its ORPHAN mark (05 R277; DEDUCED, log 61). -/
def ownCopies (s : State) : State :=
  each (s.cc.ways.filter fun e => homedHere s e.2.la && e.2.st != .i) (fun s e =>
    let la := e.2.la
    let s := if e.2.st = .m then commitOwn la e.2.data (setLine la { homeLine s la with orphan := false } s) else s
    leaveWay e.1 e.2 s) s

/-- A request without a final response waits for Resume, with REPLAY where it had left, no refusal counted, no elder
(05 R264; 07 R363). -/
def replayBob (v : Bobbin) : Bobbin :=
  if v.wait = .answer ∧ v.req.isSome then { v with replay := v.replay || v.left.isSome, left := none, naks := 0, elder := false } else v

/-! ### Roles (05 R260, R263, R267) -/

/-- Where the role home comes from: the node that holds it whole, or that holds its mirror copies; 0 none (05 R267). -/
def sources (s : State) (dom : Word) (r : Nat) : Nat × Nat := (sourceOf s dom r, (claimants s dom (·.f4) r).headD 0)

/-- One role at the Cut, at a node of number `me`. -/
def cutRole (o : Outcome) (src : Nat × Nat) (me : Nat) (wasDom : Bool) (r : Nat) (s : State) : State :=
  let h := o.holders.getD r 0
  let heldBefore := holdsRole s r || isSource s r
  let s := if heldBefore && !wasDom then raise 216 (detN r 0) (wipeRole r false s) else s
  let bit := roleBit r
  let mineNow := h == me && me != 0
  let s := { s with trn := { s.trn with
    held := if mineNow then s.trn.held ||| bit else s.trn.held &&& ~~~bit
    roleSrc := if src.1 == me && me != 0 then s.trn.roleSrc ||| bit
      else if mineNow && src.1 == 0 && (src.2 == 0 || src.2 == me) then s.trn.roleSrc ||| bit else s.trn.roleSrc &&& ~~~bit } }
  let s :=
    if !mineNow ∨ src.1 = me then s
    else if src.1 ≠ 0 then wipeRole r false s
    else if src.2 = me then orphanRest r s
    else wipeRole r true s
  if me ≠ 0 ∧ h ≠ 0 ∧ h ≠ me ∧ (src.1 = me ∨ (src.1 = 0 ∧ src.2 = me)) then beginMove r h false s else s

/-- The source of role `r` as the Cut uses it: with no pattern chosen nothing moves, and a role without a whole source is ORPHAN but for
mirror copies at its holder (05 R267, R283). -/
def cutSource (o : Outcome) (src : Nat × Nat) (r : Nat) : Nat × Nat :=
  if o.slot = 4 ∧ src.1 = 0 ∧ src.2 ≠ o.holders.getD r 0 then (0, 0) else src

/-- Transfers of the Cut that no ACK has closed (05 R278); with no pattern chosen nothing moves (R283). -/
def requiredAcks (o : Outcome) (src : Nat → Nat × Nat) : List (Nat × Bool) :=
  let hold := fun (r : Nat) => o.holders.getD r 0
  let moves := (List.range 8).filter fun r =>
    let f := if (src r).1 ≠ 0 then (src r).1 else (src r).2
    hold r != 0 && f != 0 && f != hold r
  let mirror := hold 4
  let changed := mirror != 0 && (src 4).1 != mirror
  let refills := if changed then (List.range 8).filter fun r => r != 4 && hold r != 0 && hold r != mirror else []
  if o.slot = 4 then [] else moves.map (·, false) ++ refills.map (·, true)

/-- The roles of the outcome, and the copies of R263 and R277: those that go with a home or an epoch first. -/
def cutRoles (o : Outcome) (me : Nat) (s : State) : State :=
  let wasDom := s.trn.epoch == o.dominant && o.dominant != 0
  let srcs := (List.range 8).map fun r => cutSource o (sources s o.dominant r) r
  let at_ := fun (r : Nat) => srcs.getD r (0, 0)
  let need := requiredAcks o at_
  let oldMirror := o.holders.getD 4 0 == me && me != 0 && (at_ 4).1 == me
  let s := { s with trn := { s.trn with holders := o.holders, needAck := need, mirrV := if oldMirror then s.trn.mirrV else 0 } }
  let s := discardCopies wasDom s
  let s := each (List.range 8) (fun s r => cutRole o (at_ r) me wasDom r s) s
  let s := each need (fun s a =>
    let r := a.1
    let f := if (at_ r).1 ≠ 0 then (at_ r).1 else (at_ r).2
    if a.2 && o.holders.getD r 0 == me && me != 0 && (f == me || f == 0) then beginMove r (o.holders.getD 4 0) true s
    else if !a.2 && o.holders.getD r 0 == me then modMigIn r f false id s
    else if a.2 && o.holders.getD 4 0 == me then modMigIn r (o.holders.getD r 0) true id s
    else s) s
  sendOwned (fun r => (at_ r).1 == 0) (ownCopies s)

/-! ### The Cut -/

/-- The pattern of the outcome at this node: the slot when it holds it with the digest and its lanes' speeds agree with it (05 R260; 04
R208, R219). -/
def chosenHere (s : State) (o : Outcome) : Option Nat :=
  if o.slot < 4 ∧ (slotPrick s o.slot).any (fun p => word p.digest == o.digest && check15 s p) then some o.slot else none

/-- Streams of the new epoch begin at 0000h (03 R160, R165). -/
def newStreams (n : Nat) : Table RxStream :=
  ((List.range n).map fun i => (List.range 3).map fun c => (4 * (i + 1) + c, ({ e := some 0 } : RxStream))).flatten

/-- The pattern put in force (05 R260, R283). -/
def cutPattern (o : Outcome) (s : State) : State :=
  match chosenHere s o with
  | some i => judgeHops { s with pat := { s.pat with cur := i, baseV := false } }
  | none => { s with
      pat := { s.pat with cur := 4, baseV := false
                          nrowI := if o.slot < 4 then nrowCode s else if s.tm.following then s.tm.mNrow else if bandFast s then 2 else 0 } }

/-- Held leases end at the Cut (06 R330). -/
def breakLeases (ls : List HeldLease) : List HeldLease := ls.map fun l => { l with broken := true }

/-- The Cut (05 R260–R267). -/
def doCut (o : Outcome) (s : State) : State :=
  let old := s.trn.roster
  let me := s.trn.propNode
  let s := dropTrackers s
  let s := each s.home.filter (fun s (e : Nat × FEntry) => remapEntry old o.hks e.1 e.2 s) s
  let s := each s.cc.ways cutCopy s
  let s := { s with
    ten := { s.ten with bobs := s.ten.bobs.map (fun (e : Nat × Bobbin) => (e.1, replayBob e.2))
                        owed := s.ten.owed.filter fun (w : Owed) => w.msg.typ != MsgType.unlockReq }
    lan := { s.lan with
      fore := s.trn.propFore, foreValid := me != 0, fseq := [0, 0, 0], streams := newStreams o.n, txq := [], probeWait := []
      credit := [], skipped := [], mute := false }
    home := { s.home with naks := 0, nakCnt := [], leases := [], brokenAt := [] }
    heldLeases := breakLeases s.heldLeases
    trn := { s.trn with step := 6, cutHoop := none, drainEnd := false, noPat := o.slot == 4, version := o.ver } }
  let s := cutRoles o me { s with trn := { s.trn with node := me, roster := o.hks, nnodes := o.n } }
  let s := cutPattern o { s with trn := { s.trn with oldEpoch := s.trn.epoch, epoch := o.epoch } }
  refitRegions s

/-- The boundary at which hoop CUTHOOP begins (05 R259). -/
def cutNow (s : State) : State :=
  match s.trn.cutHoop, s.trn.outcome with
  | some h, some o => if s.dev.st = .inaug ∧ s.tm.hoop = h ∧ s.trn.agreed = some (outd o) then doCut o s else s
  | _, _ => s

/-! ### Resume (05 R278–R280) -/

/-- The state in which a replayed request's copy waits again. -/
def waitState (m : LineMsg) (c : Copy) : CState :=
  match m.typ with
  | .rdShared => .is
  | .subReq => if c.st = .p then .p else .ip
  | .rdOwn => .im
  | .ownNodata => if c.st = .s then .sm else .im
  | .writeback => .mi
  | .evictClean => .ci
  | _ => c.st

/-- The copies of bobbin `b` wait again for request `q`. -/
def rewait (b : Nat) (q : LineMsg) (s : State) : State :=
  let f := fun (c : Copy) => if c.bob == some b && c.la == q.la then { c with back := c.st, st := waitState q c } else c
  { s with cc := { s.cc with ways := s.cc.ways.map fun e => (e.1, f e.2) } }

/-- A request that writes, which a LISTEN-ONLY node does not send (01 R46, 10 R556). -/
def writesHome (m : LineMsg) : Bool :=
  match m.typ with
  | .wrPublish | .wrMasked | .atomicReq | .rdOwn | .ownNodata | .lockReq | .unlockReq | .writeback => true
  | _ => false

/-- One request goes out again (05 R264, R279): a home that has left the train ends the command; a home that is now this node takes it
as a local one; at a node that is now LISTEN-ONLY a write is DENIED (01 R46, 10 R556), and a modified copy stays. -/
def reissue (b : Nat) (v : Bobbin) (s : State) : State :=
  match v.req with
  | none => s
  | some q =>
    if homeNode s q.la = 0 ∨ !hkInUse s (laHk q.la) then cutOff b stAborted s
    else if s.trn.memb = .listenOnly ∧ writesHome q ∧ !homedHere s q.la then cutOff b stDenied s
    else if homedHere s q.la then nowLocal b v q.la s
    else
      let m := { q with replay := v.replay, elder := false, cls := remoteCls s q.la q.cls }
      let s := if v.replay then count 0x708C 1 s else s
      let s := rewait b q s
      queueMsg m (some b) (setBob b { v with req := some m } s)

/-- C1 and C2 P copies marked stale at the Cut are refreshed (07 R362, 06 R336). -/
def refreshStale (s : State) : State :=
  each (s.cc.ways.filter fun e => e.2.st == .p && e.2.stale && e.2.bob.isNone && remoteCls s e.2.la (clsAt s e.2.la .c1) != .c0) (fun s e =>
    refreshLine e.2.la s) s

/-- The membership that Resume gives (05 R246, R278, R283). -/
def resumeMemb (s : State) : State :=
  if s.trn.propIso ≠ 0 ∨ s.trn.node = 0 then
    let s := isolate s.trn.propIso (leaveTrain s)
    if s.trn.propIso = 3 then raise 213 (detHK s.kee.hk 0 0) s else if s.trn.propIso = 4 then raise 214 detNone s else s
  else if s.pat.cur < 4 ∨ s.trn.noPat then setMemb .member s
  else setMemb .listenOnly s

/-- INAUG_REQUEST commands end at Resume (05 R280, 10 R542). -/
def endRequests (s : State) : State :=
  each (s.ten.bobs.filter fun e => e.2.job.op == 0x41 && e.2.wait == .agree) (fun s e =>
    complete e.1 { status := if s.trn.memb = .isolated ∧ s.trn.isoCause = 1 then stVersion else stOk, res0 := s.trn.epoch.toNat
                   res1 := membCode s.trn.memb + 256 * s.trn.node } s) s

/-- The nodes that Resume makes MEMBER: with no pattern chosen all of them, else those whose DIGESTs show the one chosen (04 R219, 05 R278;
DEDUCED, log 64). -/
def resumeMembers (s : State) : Sharers :=
  ((List.range s.trn.nnodes).map (· + 1)).foldl (fun v k =>
    let is := match s.trn.outcome with
      | some o => o.slot == 4 || claimOf s k == ({} : ClaimRec) || recDigest (claimOf s k) o.slot == some o.digest
      | none => true
    if is then v ||| nodeBit k else v) 0

/-- Resume (05 R278). The replay table takes no further write, and its entries answer the requests that are reissued now (05 R264, R265;
DEDUCED, log 130). -/
def doResume : State → State := instant fun s =>
  let s := setDev .run s
  let s := { s with
    trn := { s.trn with
      frozen := false, step := 0, lastRestarts := s.trn.restarts, restarts := 0, restartNext := false, sendResume := false, sendAgreed := false
      restartFreeze := false, restartCounted := false, lagging := false, wasDrained := false
      call := none, masterCall := false, enterNext := false, lastDur := (s.tm.clk - s.trn.detectClk.getD s.tm.clk) / 80000 % 65536
      detectClk := none, agreed := none, members := resumeMembers s, migIn := s.trn.migIn.filter (·.done) } }
  let s := resumeMemb s
  let s := each (s.ten.bobs.filter fun e => e.2.wait == .answer && e.2.req.isSome && e.2.left.isNone && s.trn.node != 0)
    (fun s e => reissue e.1 e.2 s) s
  let s := refreshStale s
  let s := if s.trn.noPat then raise 212 detNone s else s
  let s := raise 209 (detHK s.kee.hk s.trn.node s.trn.epoch.toNat) s
  timeForDev (resumeResets (endRequests s))

/-- STATUS RESUME with the OUTD agreed, after the Cut (05 R278). -/
def execStatusResume (m : InaugMsg) (s : State) : Out3 :=
  .next (if s.dev.st = .inaug ∧ s.trn.step = 6 ∧ s.trn.agreed = some m.f1 then doResume s else s)

/-! ### READ_TOPOLOGY, INAUG_REQUEST, ROLE_QUERY (10 R538–R542) -/

/-- An inauguration is in progress. -/
def inaugNow (s : State) : Bool := s.dev.st == .inaug || s.trn.call.isSome || s.trn.enterNext

/-- TRN_STAT (05 R284). -/
def trnStat (s : State) : Nat :=
  membCode s.trn.memb + 8 * s.trn.node + 512 * s.trn.step + 4096 * s.trn.restarts + flagAt s.trn.frozen 14 + 2 ^ 15 * s.trn.nnodes
    + 2 ^ 21 * s.trn.isoCause + flagAt s.trn.noPat 24

/-- READ_TOPOLOGY. -/
def execReadTopology (b : Nat) (s : State) : Out3 :=
  .next (match readyJob s b 0x40 with
    | none => s
    | some _ =>
      if !serving s then s
      else
        let bytes := leBytes 4 s.trn.epoch.toNat ++ leBytes 1 s.trn.nnodes ++ leBytes 1 s.trn.node
          ++ leBytes 1 (flagAt s.lan.fore 0 + flagAt s.lan.foreValid 1 + flagAt (inaugNow s) 2) ++ leBytes 1 (membCode s.trn.memb)
          ++ s.trn.holders.map (BitVec.ofNat 8) ++ leBytes 4 (patDigest s) ++ leBytes 1 s.pat.cur ++ [0, 0, 0]
          ++ s.trn.roster.map (BitVec.ofNat 8)
        jobDone b (trnStat s) 0 (some (slice bytes 0 96)) s)

/-- ORPHAN lines of role `r` held here. -/
def orphans (s : State) (r : Nat) : Nat :=
  if !holdsRole s r then 0
  else (s.home.lines.filter fun e => decide (0x2000 + 0x400 * r ≤ e.1 ∧ e.1 < 0x2400 + 0x400 * r) && e.2.orphan).length

/-- A migration of role `r` is in progress. -/
def migrating (s : State) (r : Nat) : Bool :=
  s.trn.migOut.any (·.role == r) || s.pat.moving.any (·.1 == r) || s.trn.needAck.any (·.1 == r)

/-- Four holder node numbers from role `r` (TRN_ROLES_LO and TRN_ROLES_HI). -/
def rolesWord (s : State) (r : Nat) : Nat := leNat ((List.range 4).map fun i => BitVec.ofNat 8 (s.trn.holders.getD (r + i) 0))

/-- TRN_ROLEFLAGS (05 R284). -/
def roleFlags (s : State) : Nat :=
  s.trn.held.toNat + 256 * ((List.range 8).map fun r => flagAt (decide (orphans s r ≠ 0)) r).foldl (· + ·) 0 + 65536 * s.trn.roleSrc.toNat
    + 2 ^ 24 * s.trn.mirrV.toNat

/-- ROLE_QUERY. -/
def execRoleQuery (b : Nat) (s : State) : Out3 :=
  .next (match readyJob s b 0x44 with
    | none => s
    | some _ =>
      if !serving s then s
      else
        let one := fun (r : Nat) =>
          let h := s.trn.holders.getD r 0
          leBytes 1 h ++ leBytes 1 (hkOfNode s h)
            ++ leBytes 1 (flagAt (holdsRole s r) 0 + flagAt (decide (orphans s r ≠ 0)) 1 + flagAt (isSource s r) 2
                + flagAt (s.trn.mirrV.getLsbD r) 3 + flagAt (migrating s r) 4)
            ++ [0] ++ leBytes 2 (orphans s r) ++ [0, 0]
        jobDone b (rolesWord s 0) (rolesWord s 4 + 2 ^ 32 * roleFlags s) (some ((List.range 8).map one).flatten) s)

/-- INAUG_REQUEST: it calls with CAUSE 3, and completes at Resume (05 R280, 10 R542). During an inauguration it starts no new one. -/
def execInaugRequest (b : Nat) (s : State) : Out3 :=
  .next (match readyJob s b 0x41 with
    | none => s
    | some _ =>
      match s.dev.st with
      | .standby => jobFail b stDenied s
      | .acquire => waitAs b .agree s
      | .inaug => waitAs b .agree s
      | .run =>
        let s := waitAs b .agree s
        if s.trn.isoRestarts then retryInaug s else if inaugNow s then s else causeFound 3 s
      | _ => s)

end Sys2Proof.Machine
end

