-- ==== Sys2Proof/Machine/Keep.lean ====
section
/-! DEFINITION. The keep store: pages, the order of page writes, KEE_CMD, the daily read, fault records, the clamp log's persistence,
and LOAD_PRICKING (08 R411–R428; 04 R205–R208; 13 R649; 10 R548, R549). -/

namespace Sys2Proof.Machine

/-! ### Pages and CRCs (08 R411–R413, R417) -/

/-- The bytes of page `p`. -/
def pageOf (s : State) (p : Nat) : List Byte := memGets s.kee.mem (0x100 * p) 256

/-- Page `p` written: erased and programmed, its USED mark with it (08 R411, 13 R661). -/
def putPage (p : Nat) (bs : List Byte) (s : State) : State :=
  { s with kee := { s.kee with
      mem := memPuts s.kee.mem (0x100 * p) (slice bs 0 256), badPages := s.kee.badPages.filter (· != p), used := s.kee.used.filter (· != p) } }

/-- A structure of `n` bytes ends with the CRC of the bytes before it (08 R413). -/
def sealed (bs : List Byte) : Bool := crc32 (bs.take (bs.length - 4)) == leAt bs (bs.length - 4) 4

/-- Bytes followed by their CRC. -/
def withCrc (bs : List Byte) : List Byte := bs ++ leBytes 4 (crc32 bs)

/-- An identity copy is valid: its CRC, and no page error (08 R413, R422). -/
def idValid (s : State) (p : Nat) : Bool := sealed (pageOf s p) && !s.kee.badPages.contains p

/-- The identity page in use: the valid copy with the newest SEQ (08 R413). -/
def idPage (s : State) : Option Nat :=
  match idValid s 0, idValid s 1 with
  | true, true => if newer (word (leAt (pageOf s 1) 248 4)) (word (leAt (pageOf s 0) 248 4)) then some 1 else some 0
  | true, false => some 0
  | false, true => some 1
  | _, _ => none

/-- Order of pending page writes (08 R423). -/
def keepRank : KeepWr → Nat
  | .bist _ => 0
  | .fault _ => 1
  | .clampLog _ _ => 2
  | .node _ _ => 3
  | .prick _ _ _ _ => 4
  | .steward _ _ => 5

/-- Bytes of a fault record's page: the record in its place, the page's earlier records kept (08 R418). -/
def faultPage (s : State) (bytes : List Byte) : Nat × List Byte :=
  let n := leAt bytes 0 4 - 1
  let p := 2 + n / 8 % 6
  let i := n % 8
  (p, if i = 0 then slice bytes 0 256 else slice ((pageOf s p).take (32 * i) ++ bytes) 0 256)

/-- The page of a write and its bytes. -/
def keepPage (s : State) : KeepWr → Nat × List Byte
  | .bist bytes => (224 + leAt bytes 0 4 % 32, bytes)
  | .fault bytes => faultPage s bytes
  | .clampLog p bytes => (p, bytes)
  | .prick _ slot i bytes => (32 + 32 * slot + i, bytes)
  | .steward p bytes => (p, bytes)
  | .node p bytes => (p, bytes)

/-- The first of the pending writes of the lowest rank. -/
def keepFirst (l : List KeepWr) : Option KeepWr :=
  (List.range 6).findSome? fun r => l.find? fun w => keepRank w == r

/-- The slot that a pricking write replaces becomes invalid. -/
def slotOff (w : KeepWr) (s : State) : State :=
  match w with
  | .prick b slot _ _ =>
    modBob b (fun v => { v with par := 11 }) { s with pat := { s.pat with slots := s.pat.slots.modify slot fun x => { x with valid := false } } }
  | _ => s

/-- The next page write starts when none is in progress (08 R411, R423). -/
def keepKick (s : State) : State :=
  match s.kee.cur, keepFirst s.kee.pend with
  | none, some w => slotOff w { s with kee := { s.kee with cur := some (w, (keepPage s w).1, false), pend := s.kee.pend.erase w } }
  | _, _ => s

/-- A page write is asked for. -/
def keepAsk (w : KeepWr) (s : State) : State := keepKick { s with kee := { s.kee with pend := s.kee.pend ++ [w] } }

/-! ### Fault history (08 R418) -/

/-- A fault-history record of 32 bytes. -/
def faultBytes (s : State) (ev : Nat) (detail : List Byte) : List Byte :=
  withCrc (leBytes 4 s.kee.faultSeq.toNat ++ leBytes 4 ev ++ leBytes 4 s.tm.hoop.toNat ++ leBytes 4 s.trn.epoch.toNat ++ slice detail 0 12)

/-- One record written; its SEQ counts on. -/
def faultWrite (ev : Nat) (detail : List Byte) (s : State) : State :=
  let bs := faultBytes s ev detail
  keepAsk (.fault bs) { s with kee := { s.kee with faultSeq := s.kee.faultSeq + 1, faults := s.kee.faults + 1 } }

/-- A fault recorded: at most 16 in an hour; those beyond are counted, and a summary record goes before the next one (08 R418; the
summary carries event 511 and the count, DESIGN CHOICE, log 68). -/
def recordFault (ev : Nat) (detail : List Byte) (s : State) : State :=
  let s := if 28800000000000 ≤ s.tm.clk - s.kee.faultClk then { s with kee := { s.kee with faultClk := s.tm.clk, faults := 0 } } else s
  if 16 ≤ s.kee.faults then count 0xD024 1 { s with kee := { s.kee with supp := s.kee.supp + 1 } }
  else
    let s := if s.kee.supp = 0 then s else faultWrite 511 (leBytes 4 s.kee.supp) { s with kee := { s.kee with supp := 0 } }
    faultWrite ev detail s

/-! ### The end of a page write (08 R411, R420, R421) -/

/-- The page's wear count after a write: 10 at a junction above 85 °C, else 1; KEE_WORN as it passes 10^6 (08 R420). -/
def addWear (p : Nat) (hot : Bool) (s : State) : State :=
  let old := Config.wearBase p + tgetD s.kee.wear p 0
  let add := if hot then 10 else 1
  let s := { s with kee := { s.kee with wear := tset s.kee.wear p (tgetD s.kee.wear p 0 + add) } }
  if old ≤ 1000000 ∧ 1000000 < old + add then raise 10 (detN p (old + add)) s else s

/-- The checks of a slot run again, and the slot's record (04 R208). -/
def checkSlot (i : Nat) (s : State) : State :=
  let bs := slotBytes s i
  let c := checkPrick bs i (prickLen bs)
  { s with pat := { s.pat with slots := s.pat.slots.set i { valid := c == 0, lastFail := c } } }

/-- The reason of a pricking whose page could not be written: the check that the slot now fails, the digest where it fails none
(DEDUCED, log 65). -/
def failedSlot (i : Nat) (s : State) : State × Nat :=
  let s := checkSlot i s
  let c := (s.pat.slots.getD i {}).lastFail
  let c := if c = 0 then 3 else c
  ({ s with pat := { s.pat with slots := s.pat.slots.set i { valid := false, lastFail := c } } }, c)

/-- A page write ended well or not. -/
def keepEnd (w : KeepWr) (p : Nat) (ok : Bool) (s : State) : State :=
  match w with
  | .prick b slot _ _ =>
    let more := s.kee.pend.any fun x => match x with
      | .prick y _ _ _ => y == b
      | _ => false
    if !ok then
      let s := { s with kee := { s.kee with pend := s.kee.pend.filter fun x => match x with
        | .prick y _ _ _ => y != b
        | _ => true } }
      let r := failedSlot slot s
      complete b { status := stPattern, res1 := r.2 } (count 0x6088 1 r.1)
    else if more then s
    else complete b { status := stOk } (checkSlot slot s)
  | .steward _ _ => { s with kee := { s.kee with busy := false, done := true, err := if ok then 0 else 2, page := p } }
  | _ => s

/-- The write in progress has been read back. -/
def pageWritten (same hot : Bool) : State → State := instant fun s =>
  match s.kee.cur with
  | none => s
  | some (w, p, again) =>
    let bs := (keepPage s w).2
    let s := perf 146 none (count 0xD080 1 (addWear p hot s))
    if same then keepKick (keepEnd w p true (putPage p bs { s with kee := { s.kee with cur := none } }))
    else if !again then count 0xD084 1 { s with kee := { s.kee with cur := some (w, p, true) } }
    else
      let s := raise 7 (detN p 0) (putPage p [] { s with kee := { s.kee with cur := none } })
      keepKick (keepEnd w p false { s with kee := { s.kee with badPages := s.kee.badPages ++ [p] } })

/-! ### KEE_CMD (08 R414, R416, R427, R428) -/

/-- The steward may write the page (08 R428). -/
def stewardPage (p : Nat) : Bool := p ≤ 1 || decide (8 ≤ p ∧ p ≤ 23) || decide (160 ≤ p ∧ p ≤ 223)

/-- KEE_BUF. -/
def keeBuf (s : State) : List Byte := ((List.range 64).map fun i => leBytes 4 (regCur s (0xD100 + 4 * i))).flatten

/-- KEE_STAT after a command that ended at once. -/
def keeFail (err : Nat) (s : State) : State := { s with kee := { s.kee with busy := false, done := true, err := err } }

/-- A command of KEE_CMD may begin: the register is reachable, and none is in progress (DESIGN CHOICE for the latter, log 66). -/
def keeReady (s : State) : Bool := reachable s && !s.kee.busy

/-- KEE_CMD READ: the page is being read; KEEP_READ_DONE ends it. -/
def keeRead (p : Nat) (s : State) : State :=
  if keeReady s then { s with kee := { s.kee with busy := true, done := false, reading := some (p % 256) } } else s

def execKeeRead (p : Nat) (s : State) : Out3 := .next (keeRead p s)

/-- An identity page as it is written: a home key outside 01h–DFh is clamped to the one held, with the CRC to match (08 R414;
DEDUCED, log 67). -/
def idClamped (p : Nat) (bs : List Byte) (s : State) : List Byte × State :=
  let hk := leAt bs 8 1
  if 2 ≤ p ∨ (1 ≤ hk ∧ hk ≤ 0xDF) then (bs, s)
  else
    let bs' := splice bs 8 (leBytes 1 s.kee.hk)
    (withCrc (bs'.take 252), ownClamp 0xD108 0 8 hk s.kee.hk s)

/-- KEE_CMD WRITE: KEE_BUF to a permitted page, in STANDBY, RUN and SAFE. -/
def keeWrite (p : Nat) (s : State) : State :=
  let p := p % 256
  let bs := keeBuf s
  let stateOk := match s.dev.st with
    | .standby | .run | .safe => true
    | _ => false
  if !keeReady s then s
  else if !stewardPage p then keeFail 1 s
  else if !stateOk then keeFail 4 s
  else if p < 2 ∧ leAt bs 0 8 ≠ s.kee.dieId.toNat then keeFail 1 s
  else
    let r := idClamped p bs s
    keepAsk (.steward p r.1) { r.2 with kee := { r.2.kee with busy := true, done := false } }

def execKeeWrite (p : Nat) (s : State) : Out3 := .next (keeWrite p s)

/-- KEE_CMD VERIFY. -/
def keeVerify (s : State) : State :=
  if keeReady s then { s with kee := { s.kee with busy := true, done := false, verifying := true } } else s

def execKeeVerify (s : State) : Out3 := .next (keeVerify s)

/-- The firmware patch image (08 R416). -/
def patchImage (s : State) : List Byte := memGets s.kee.mem (0x100 * 160) 16384

/-- PATCH_MIN of the identity page in use. -/
def patchMin (s : State) : Nat := match idPage s with
  | some p => leAt (pageOf s p) 44 2
  | none => 0

/-- The checks of 08 R416: MAGIC, the ROM version 03h that GLB_ID shows, the length, PV, the signature (its key is not in the spec,
log 12). -/
def patchOk (s : State) : Bool :=
  let bs := patchImage s
  let l := leAt bs 8 2
  leAt bs 0 2 == 0x5A73 && leAt bs 4 4 == 3 && decide (74 ≤ l ∧ l ≤ 16384) && decide (patchMin s ≤ leAt bs 2 2) && Config.patchSigOk (bs.take l)
    && (s.kee.badPages.all fun p => p < 160 || 160 + ceilDiv l 256 ≤ p)

/-- What the read of a page finds is counted (08 R422). -/
def readFound (p : Nat) (r : ScrubFind) (s : State) : State :=
  match r with
  | .correctable => count 0xD088 1 s
  | .clean => s
  | _ => raise 9 (detN p 0) (count 0xD08C 1 { s with kee := { s.kee with
      badPages := if s.kee.badPages.contains p then s.kee.badPages else s.kee.badPages ++ [p] } })

/-- KEE_BUF filled from a page. -/
def fillBuf (bs : List Byte) (s : State) : State :=
  each (List.range 64) (fun s i => regSet (0xD100 + 4 * i) (leAt bs (4 * i) 4) s) s

/-- KEEP_READ_DONE: the page read or VERIFY in progress ends (08 R428). -/
def execKeepReadDone (r : ScrubFind) (s : State) : Out3 :=
  .next (
    let good := r == .clean || r == .correctable
    match s.kee.reading with
    | some p =>
      let s := readFound p r s
      let s := { s with kee := { s.kee with
        busy := false, done := true, reading := none, err := if good then 0 else 3, page := p
        wearReg := Config.wearBase p + tgetD s.kee.wear p 0 } }
      if good then fillBuf (pageOf s p) s else s
    | none =>
      if s.kee.verifying then
        { s with kee := { s.kee with busy := false, done := true, verifying := false, err := if good && patchOk s then 0 else 3 } }
      else s)

/-- A page that belongs to a structure with copies or a rotation (08 R412, R422). -/
def copied (p : Nat) : Bool := p < 32 || 224 ≤ p

/-- KEEP_DAILY_READ (08 R422). -/
def execKeepDailyRead (page : Nat) (r : ScrubFind) (s : State) : Out3 :=
  .next (
    let p := page % 256
    if !powered s then s
    else match r with
      | .clean => s
      | .correctable =>
        let s := count 0xD088 1 s
        if copied p then keepAsk (.node p (pageOf s p)) s else raise 8 (detN p 0) s
      | _ => readFound p r s)

/-! ### The clamp log persisted (08 R419, 13 R649) -/

/-- The 16 bytes of a clamp-log record (13 R647). -/
def clampBytes (c : ClampRec) : List Byte :=
  leBytes 1 (c.kind % 4 + 4 * (c.ten % 8) + flagAt c.debug 5 + flagAt c.prev 6) ++ leBytes 1 c.flsb ++ leBytes 1 c.fwid ++ leBytes 1 c.op
    ++ leBytes 3 c.loc ++ leBytes 1 c.hoop ++ leBytes 4 c.written.toNat ++ leBytes 4 c.stored.toNat

/-- A record read back, with PREV set (13 R649). -/
def clampRead (bs : List Byte) : ClampRec :=
  let b := leAt bs 0 1
  { kind := b % 4, ten := bitsOf b 2 3, debug := bitOf b 5, prev := true, flsb := leAt bs 1 1, fwid := leAt bs 2 1, op := leAt bs 3 1
    loc := leAt bs 4 3, hoop := leAt bs 7 1, written := word (leAt bs 8 4), stored := word (leAt bs 12 4) }

/-- The 1024 bytes of the persisted log (13 R649). -/
def logImage (s : State) (seq : Word) : List Byte :=
  let rs := s.int.clamps.take 63
  withCrc (slice (leBytes 4 seq.toNat ++ leBytes 1 rs.length ++ [0] ++ leBytes 2 s.int.dropped ++ (rs.map clampBytes).flatten) 0 1020)

/-- A persisted copy's bytes: copy A at page 24, copy B at page 28. -/
def logCopy (s : State) (b : Bool) : List Byte := memGets s.kee.mem (if b then 0x1C00 else 0x1800) 1024

/-- A copy is valid. -/
def logValid (s : State) (b : Bool) : Bool :=
  sealed (logCopy s b) && (s.kee.badPages.all fun p => p < (if b then 28 else 24) || (if b then 32 else 28) ≤ p) && leAt (logCopy s b) 4 1 ≤ 63

/-- Copy B is the newer valid one. -/
def logNewB (s : State) : Bool :=
  logValid s true && (!logValid s false || newer (word (leAt (logCopy s true) 0 4)) (word (leAt (logCopy s false) 0 4)))

/-- CLAMP_LOG_PERSIST: a changed log is written to the older copy, at most once per hour, and not in SHUTDOWN (08 R419). -/
def execClampLogPersist (s : State) : Out3 :=
  .next (
    let due : Bool := match s.kee.logClk with
      | none => true
      | some t => decide (28800000000000 ≤ s.tm.clk - t)
    if !powered s ∨ s.dev.st = .shutdown ∨ !s.int.logDirty ∨ !due then s
    else
      let seq := s.int.logSeq + 1
      let img := logImage s seq
      let base := if logNewB s then 24 else 28
      let s := { s with int := { s.int with logDirty := false, logSeq := seq }, kee := { s.kee with logClk := some s.tm.clk } }
      each (List.range 4) (fun s i => keepAsk (.clampLog (base + i) (slice img (256 * i) 256)) s) s)

/-! ### LOAD_PRICKING (04 R205–R207, 10 R548, R549) -/

/-- The slot may not be replaced: it is in force, the base of a running pattern I, or the target of a pending switch (04 R207). -/
def slotInUse (s : State) (i : Nat) : Bool :=
  s.pat.cur == i || (s.pat.cur == 4 && s.pat.baseV && s.pat.base == i) || s.pat.props.any (·.target == i)
    || s.pat.switchAt.any fun x => x.1 == i

/-- The lowest check of R204 that a pricking fails as it is loaded, check 15 among them; 0 when it passes (04 R204, R205). -/
def loadCheck (s : State) (bs : List Byte) (slot len : Nat) : Nat :=
  let c := checkPrick bs slot len
  if c ≠ 0 then c else if check15 s (parsePrick bs) then 0 else 15

/-- LOAD_PRICKING, once its pricking has been read (bobbin mark 10): checked, and its 32 pages written, or rejected. -/
def execLoadPricking (b : Nat) (s : State) : Out3 :=
  .next (match readyJob s b 0x46 with
    | none => s
    | some v =>
      if v.par ≠ 10 ∨ !serving s then s
      else
        let slot := argB v.job 0 % 4
        let reject := fun (r : Nat) => complete b { status := stPattern, res1 := r } (count 0x6088 1 s)
        let c := loadCheck s v.out slot (argN v.job 4 4)
        if slotInUse s slot then reject 25
        else if c ≠ 0 then reject c
        else
          let ws := (List.range 32).map fun i => KeepWr.prick b slot i (slice v.out (256 * i) 256)
          keepKick (waitAs b .keep { s with kee := { s.kee with pend := s.kee.pend ++ ws } }))

end Sys2Proof.Machine
end

