-- ==== Sys2Proof/Machine/Switch.lean ====
section
/-! DEFINITION. Pattern switching and role claims: the agreement, its verdict, the switch at the boundary of hoop n + 4
(04 R216–R221; 10 R540, R543–R547). -/

namespace Sys2Proof.Machine

/-- Target of a role proposal. -/
def roleTarget (t : Nat) : Option Nat := if 0x80 ≤ t ∧ t ≤ 0x87 then some (t - 0x80) else none

/-- A proposal's identity in messages. -/
def samePrp (m : PatMsg) (p : Proposal) : Bool := p.target == m.target && p.proposer == m.proposer && p.hoop == m.phoop && p.sent

/-- The record of a message's proposal, made where the PROPOSE was not heard. -/
def prpOf (s : State) (m : PatMsg) : Proposal :=
  (s.pat.props.find? (samePrp m)).getD
    { target := m.target, proposer := m.proposer, hoop := m.phoop, digest := m.digest, acks := nodeBit m.proposer, sent := true }

/-- A proposal's record put in place of the one with its identity. -/
def putPrp (p : Proposal) (s : State) : State :=
  let same := fun (q : Proposal) => q.target == p.target && q.proposer == p.proposer && q.hoop == p.hoop && q.sent == p.sent
  { s with pat := { s.pat with props := s.pat.props.filter (fun q => !same q) ++ [p] } }

/-- The account of 04 R212 fits a budget entry. -/
def accountFits (s : State) (b : Option Budget) : Bool :=
  match b with
  | some e => decide (accountPub s + reserveClaim s ≤ e.hom)
  | none => false

/-- The first failing reason of 04 R218 for a pattern target, 0 when it passes. -/
def targetReason (s : State) (t : Nat) (digest : Word) : Nat :=
  match slotPrick s t with
  | none => 16
  | some p =>
    if word p.digest ≠ digest then 17
    else if p.maxnode < s.trn.nnodes then 18
    else if !accountFits s p.bud[s.trn.node - 1]? then 19
    else if !check15 s p then 20
    else 0

/-- Another proposal, of another hoop, is pending (04 R218, R221). -/
def prpBusy (s : State) (hoop : Word) : Bool := s.pat.props.any fun p => p.sent && p.hoop != hoop

/-- The answer of this node to a PROPOSE: 0 for ACK, or the reason of NACK; none for no answer (04 R218, R219; 10 R545). -/
def prpAnswer (s : State) (m : PatMsg) : Option Nat :=
  match roleTarget m.target with
  | some _ => if s.trn.memb = .member then some (if prpBusy s m.phoop then 21 else 0) else none
  | none =>
    let r := targetReason s m.target m.digest
    match s.trn.memb with
    | .member => some (if r ≠ 0 then r else if prpBusy s m.phoop then 21 else 0)
    | .listenOnly => if r = 16 ∨ r = 17 then none else some 0
    | _ => none

/-- A control message queued for the next C0 response stitch, to every node (04 R217). -/
def queueCtl (m : Msg) (s : State) : State :=
  { s with lan := { s.lan with txq := s.lan.txq ++ [{ msg := m, cls := .c0, use := .rsp, level := 0 }] } }

/-- The answer recorded in the proposal. -/
def recordAns (s : State) (k r : Nat) (p : Proposal) : Proposal :=
  let _ := s
  if r = 0 then { p with acks := p.acks ||| nodeBit k }
  else { p with nack := match p.nack with
    | some (j, q) => if k < j then some (k, r) else some (j, q)
    | none => some (k, r) }

/-- PROPOSE (04 R217, R218). -/
def execPatSwitchPropose (src : Nat) (m : PatMsg) (s : State) : Out3 :=
  .next (
    if s.dev.st ≠ .run ∨ s.trn.node = 0 ∨ s.pat.props.any (samePrp m) then s
    else
      let p := prpOf s { m with proposer := src }
      match prpAnswer s m with
      | none => putPrp p s
      | some r =>
        let s := putPrp (recordAns s s.trn.node r p) s
        queueCtl (.patSwitch { m with step := if r = 0 then 1 else 2, reason := r, subject := 0 }) s)

/-- ACK (04 R217). -/
def execPatSwitchAck (src : Nat) (m : PatMsg) (s : State) : Out3 :=
  .next (if s.dev.st ≠ .run ∨ s.trn.node = 0 then s else putPrp (recordAns s src 0 (prpOf s m)) s)

/-- NACK (04 R217, R221). -/
def execPatSwitchNack (src : Nat) (m : PatMsg) (s : State) : Out3 :=
  .next (if s.dev.st ≠ .run ∨ s.trn.node = 0 then s else putPrp (recordAns s src (max 1 m.reason) (prpOf s m)) s)

/-- A verdict known to this node (04 R217, R228). -/
def takeVerdict (p : Proposal) (verdict reason subject : Nat) (s : State) : State :=
  let s := putPrp { p with verdict := verdict, reason := reason, subject := subject } s
  let s := { s with pat := { s.pat with
    lastVerdict := verdict, lastReason := reason, lastSubject := subject, lastTarget := p.target % 4, heardVerdict := true } }
  if verdict = 3 ∧ p.target < 4 then { s with pat := { s.pat with switchAt := some (p.target, p.hoop + 4), swHoop := p.hoop + 4 } } else s

/-- GO. -/
def execPatSwitchGo (m : PatMsg) (s : State) : Out3 :=
  .next (if s.dev.st ≠ .run ∨ s.trn.node = 0 then s else takeVerdict (prpOf s m) 3 0 0 s)

/-- CANCEL: the proposal ends at the end of hoop n + 3, where the proposer's command completes (04 R217). -/
def execPatSwitchCancel (m : PatMsg) (s : State) : Out3 :=
  .next (if s.dev.st ≠ .run ∨ s.trn.node = 0 then s else takeVerdict (prpOf s m) 4 m.reason m.subject s)

/-! ### The verdict and the switch -/

/-- Node `k` is MEMBER: since the last Resume, or by a switch since (04 R219; DEDUCED, log 64). -/
def isMember (s : State) (k : Nat) : Bool := hasNode s.trn.members k

/-- The lowest MEMBER that has not acknowledged. -/
def missing (s : State) (p : Proposal) : Option Nat :=
  ((List.range s.trn.nnodes).map (· + 1)).find? fun k => isMember s k && !hasNode p.acks k

/-- The master's verdict on one proposal (04 R217, R221). -/
def judge (s : State) (p : Proposal) : Nat × Nat × Nat :=
  let lower := s.pat.props.any fun q => q.sent && q.hoop == p.hoop && q.proposer < p.proposer
  if lower then (4, 22, 0)
  else match missing s p with
    | none => (3, 0, 0)
    | some k => match p.nack with
      | some (j, r) => if j ≤ k then (4, r, j) else (4, 24, k)
      | none => (4, 24, k)

/-- At the start of hoop n + 3 the master decides; every node begins to listen for the verdict (04 R217, R221). -/
def verdicts (s : State) : State :=
  let due := s.pat.props.filter fun p => p.sent && p.hoop + 3 == s.tm.hoop && p.verdict == 0
  if due.isEmpty then s
  else
    let s := { s with pat := { s.pat with heardVerdict := s.tm.master } }
    if !s.tm.master then s
    else
      let js := due.map fun p => (p, judge s p)
      each js (fun s e => takeVerdict e.1 e.2.1 e.2.2.1 e.2.2.2 s) s

/-- The verdicts that the master's pattern frame carries in this hoop (04 R217). -/
def verdictMsgs (s : State) : List Msg :=
  (s.pat.props.filter fun p => p.sent && p.hoop + 3 == s.tm.hoop && p.verdict != 0).map fun p =>
    .patSwitch { step := p.verdict, reason := p.reason, target := p.target, proposer := p.proposer, phoop := p.hoop, digest := p.digest
                 subject := p.subject }

/-- The node holds slot `t` with digest `d` (04 R218, R219). -/
def holdsPattern (s : State) (t : Nat) (d : Word) : Bool := (slotPrick s t).any fun p => word p.digest == d

/-- A pattern comes into force at the node: the hop delays and the C0 regions are held against it (04 R215, R226). -/
def putPattern (t : Nat) (s : State) : State :=
  refitRegions (judgeHops { s with pat := { s.pat with cur := t, baseV := false, switchAt := none } })

/-- The pattern of a proposal put in force by a switch (04 R196, R215, R217, R219): at a node that holds it with the proposed digest; any
other becomes LISTEN-ONLY. Those that acknowledged are MEMBER from here on. -/
def switchTo (p : Proposal) (s : State) : State :=
  let holds := holdsPattern s p.target p.digest
  let s := { s with trn := { s.trn with members := s.trn.members ||| p.acks } }
  let s := raise 226 (detN p.target s.tm.hoop.toNat) (count 0x6080 1 s)
  let s := if holds then setMemb .member s else setMemb .listenOnly s
  putPattern (if holds then p.target else 4) s

/-- The MIRROR role has a new holder: every role home held whole here sends it the mirrored lines, and it holds none valid before
(05 R273, 10 R545). -/
def mirrorMoved (claimant : Nat) (s : State) : State :=
  let me := s.trn.node
  let others := (List.range 8).filter fun r => r != 4 && s.trn.holders.getD r 0 != 0 && s.trn.holders.getD r 0 != claimant
  if claimant = me then
    each others (fun s r => modMigIn r (s.trn.holders.getD r 0) true id s) { s with trn := { s.trn with mirrV := 0 } }
  else each (others.filter fun r => isSource s r && s.trn.holders.getD r 0 == me) (fun s r => beginMove r claimant true s) s

/-- The claimant of a role that nobody held serves it at once (10 R545). -/
def takeUnheld (r src : Nat) (s : State) : State :=
  let s := { s with trn := { s.trn with held := s.trn.held ||| roleBit r } }
  let whole := fun (s : State) => roleMoved r { s with trn := { s.trn with roleSrc := s.trn.roleSrc ||| roleBit r } }
  ownRole r (if src = s.trn.node then whole (orphanRest r s)
    else if src = 0 then whole (wipeRole r true s)
    else modMigIn r src false id (wipeRole r true s))

/-- A role moves to its claimant at the boundary of hoop n + 4 (10 R545, R546). -/
def moveRole (r claimant : Nat) (s : State) : State :=
  let old := s.trn.holders.getD r 0
  let src := if old ≠ 0 then old else mirrorNode s
  let s := { s with
    trn := { s.trn with holders := s.trn.holders.set r claimant }
    pat := { s.pat with moving := if old = 0 then s.pat.moving else s.pat.moving.filter (·.1 != r) ++ [(r, old)] } }
  let me := s.trn.node
  let s := if src = me ∧ claimant ≠ me then beginMove r claimant false s else s
  let s := if r = 4 then mirrorMoved claimant s else s
  if claimant ≠ me then s
  else if old ≠ 0 then modMigIn r old false id (wipeRole r false s)
  else takeUnheld r src s

/-- One proposal at the boundary of hoop n + 4. -/
def settle (p : Proposal) (s : State) : State :=
  let h := s.tm.hoop
  if p.verdict = 3 then
    let s := { s with pat := { s.pat with props := s.pat.props.filter (· != p) } }
    match roleTarget p.target with
    | some r =>
      let s := match p.bob with
        | some b => modBob b (fun v => { v with due := h }) s
        | none => s
      moveRole r p.proposer s
    | none =>
      let s := switchTo p s
      match p.bob with
      | some b => complete b { res0 := h.toNat } s
      | none => s
  else if p.verdict = 4 then endProposal p 4 p.reason p.subject s
  else endProposal p 4 24 0 s

/-- The boundary at which hoop n + 4 begins: switches, role moves and cancellations take effect; a node without a valid pattern frame
in hoop n + 3 stops its data frames (04 R217, R221). -/
def switchBoundary (s : State) : State :=
  let due := s.pat.props.filter fun p => p.sent && p.hoop + 4 == s.tm.hoop
  if due.isEmpty then s
  else if s.pat.heardVerdict || s.tm.master then each due (fun s p => settle p s) s
  else each due (fun s p => endProposal p 4 24 0 s) { s with lan := { s.lan with mute := true }, pat := { s.pat with lost := due } }

/-- A node that lost the verdict takes the pattern of the first valid pattern frame: it runs it from the next row, or becomes
LISTEN-ONLY (04 R221). -/
def unmute (pat : Nat) (digest : Word) (s : State) : State :=
  if !s.lan.mute then s
  else if pat < 4 ∧ holdsPattern s pat digest then
    { s with pat := { s.pat with switchAt := some (pat, s.tm.hoop) } }
  else setMemb .listenOnly { s with lan := { s.lan with mute := false }, pat := { s.pat with cur := 4, baseV := false, nrowI := nrowCode s } }

/-- The row after `unmute` begins: the pattern taken is run. Where it is the target of a proposal whose verdict the node did not hear,
those that acknowledged it are MEMBER (04 R219, R221). -/
def unmuteRow (s : State) : State :=
  match s.lan.mute, s.pat.switchAt with
  | true, some (t, _) =>
    let acks := (s.pat.lost.filter fun p => p.target == t && s.pat.cur != t).foldl (fun v p => v ||| p.acks) (0 : Sharers)
    putPattern t (setMemb .member { s with
      lan := { s.lan with mute := false }
      trn := { s.trn with members := s.trn.members ||| acks }
      pat := { s.pat with lost := [] } })
  | _, _ => s

/-! ### The commands (10 R540, R543–R547) -/

/-- A train command in its states: run, wait, or DENIED (10 R555). -/
def trainGate (s : State) : Gate :=
  match s.dev.st with
  | .run => if s.trn.memb = .member then .run else .deny
  | .inaug => .wait
  | _ => .deny

/-- A proposal of this node waits for its stitch. -/
def propose (b target : Nat) (digest : Word) (s : State) : State :=
  let p : Proposal := { target := target, proposer := s.trn.node, hoop := 0, digest := digest, acks := nodeBit s.trn.node, bob := some b }
  let s := { s with pat := { s.pat with props := s.pat.props ++ [p] } }
  queueCtl (.patSwitch { step := 0, target := target, proposer := s.trn.node, digest := digest }) (waitAs b .agree s)

/-- A PROPOSE leaves in a row of the present hoop, which is n (04 R217). -/
def proposeLeft (m : PatMsg) (s : State) : State :=
  if m.step ≠ 0 then s
  else { s with pat := { s.pat with props := s.pat.props.map fun p =>
      if !p.sent && p.target == m.target && p.bob.isSome then { p with sent := true, hoop := s.tm.hoop } else p } }

/-- A train command on its way to a proposal: its gate, and its time state (02 R96). -/
def trainJob (b op : Nat) (go : Bobbin → State → State) (s : State) : State :=
  match readyJob s b op with
  | none => s
  | some v =>
    if !serving s then s
    else match trainGate s with
      | .deny => jobFail b stDenied s
      | .wait => waitAs b .state s
      | .run => go v s

/-- A pattern proposal checked at its proposer: a failing check rejects it with its reason, and nothing is sent (DEDUCED, log 64). -/
def proposePattern (b : Nat) (v : Bobbin) (s : State) : State :=
  let t := argB v.job 0 % 4
  if s.pat.props.any (fun p => p.bob.isSome && p.target < 4) then complete b { status := stPattern, res1 := 21 } s
  else if s.pat.cur = t then jobDone b s.tm.hoop.toNat 0 none s
  else if !timed s then waitAs b .sync s
  else
    let d := word (slotDigest s t)
    let r := targetReason s t d
    if r ≠ 0 then complete b { status := stPattern, res1 := r + 256 * s.trn.node } s else propose b t d s

/-- PATTERN_PROPOSE. -/
def execPatternPropose (b : Nat) (s : State) : Out3 := .next (trainJob b 0x42 (proposePattern b) s)

/-- ROLE_CLAIM's cases (10 R544, R545). -/
def claimRole (b : Nat) (v : Bobbin) (s : State) : State :=
  let r := argB v.job 0 % 8
  if r < 2 then jobFail b stDenied s
  else if s.trn.holders.getD r 0 = s.trn.node then jobDone b s.tm.hoop.toNat 0 none s
  else if rfld s 0x7004 (4 * (r - 2)) 4 = 0 then jobFail b stDenied s
  else if !timed s then waitAs b .sync s
  else propose b (0x80 + r) (word (patDigest s)) s

/-- ROLE_CLAIM. -/
def execRoleClaim (b : Nat) (s : State) : Out3 := .next (trainJob b 0x45 (claimRole b) s)

/-- PAT_STAT (04 R228). -/
def patStat (s : State) : Nat :=
  let pend := s.pat.props.find? fun p => p.target < 4
  s.pat.cur + flagAt s.pat.baseV 3 + 16 * s.pat.base + flagAt pend.isSome 6 + 128 * ((pend.map (·.target)).getD 0) + flagAt s.pat.hopLong 9

/-- PAT_SWHOOP: hoop n + 4 of the pending switch, whose PROPOSE has left, else of the last one (04 R228). -/
def swHoopNow (s : State) : Word :=
  match s.pat.props.find? fun p => p.target < 4 && p.sent with
  | some p => p.hoop + 4
  | none => s.pat.swHoop

/-- PAT_SWLAST. -/
def swLast (s : State) : Nat := s.pat.lastVerdict + 8 * s.pat.lastReason + 256 * s.pat.lastSubject + 16384 * s.pat.lastTarget

/-- The four registers of slot `i` (04 R228). The contents of a slot are its bytes, valid or not. -/
def slotRegs (s : State) (i : Nat) : List Nat :=
  let v := s.pat.slots.getD i {}
  let bs := slotBytes s i
  let p := parsePrick bs
  [ b2n v.valid + 2 * v.lastFail + 64 * p.nrow + 256 * (p.maxnode % 64) + 65536 * (prickLen bs % 65536), p.digest, leAt p.label 0 4, leAt p.label 4 4 ]

/-- PATTERN_QUERY (10 R540). -/
def execPatternQuery (b : Nat) (s : State) : Out3 :=
  .next (match readyJob s b 0x43 with
    | none => s
    | some _ =>
      if !serving s then s
      else
        let bytes := leBytes 4 (patStat s) ++ leBytes 4 (swHoopNow s).toNat ++ leBytes 4 (swLast s) ++ leBytes 4 0
          ++ ((List.range 4).map fun i => ((slotRegs s i).map (leBytes 4)).flatten).flatten
        jobDone b (patStat s) 0 (some bytes) s)

/-- A register write by this agent reaches the steward window: the steward, or the debug port (09 R486; 12 R621). -/
def stewardly : Who → Bool
  | .tenant _ => false
  | _ => true

/-- PAT_STAGE.HOLD (04 R223). -/
def stageHold (v : Word) (s : State) : State :=
  if v.getLsbD 0 then { s with pat := { s.pat with hold := true, holdClr := none } }
  else if s.pat.hold ∧ s.pat.holdClr.isNone then { s with pat := { s.pat with holdClr := some s.tm.clk } }
  else s

def execPatStageHold (w : Who) (v : Word) (s : State) : Out3 := .next (if stewardly w && reachable s then stageHold v s else s)

end Sys2Proof.Machine
end

