-- ==== Sys2Proof/Machine/Links.lean ====
section
/-! DEFINITION. The sides of the lanes: bypass, MDIO polls, link states, coupler sense; the frames of this node on the wire; and
ranging (03 R125–R139, R168–R192, R721; 05 R230, R231, R240, R241). -/

namespace Sys2Proof.Machine

/-! ### Lanes and sides -/

/-- LAN_CTRL.MAINT. -/
def laneMaint (s : State) (l : LaneId) : Bool := lanBit s (laneIx l) 2

/-- Units of the local clock per byte on the wire. -/
def byteUnits (s : State) (l : LaneId) : Nat := if laneFast s (laneIx l) then 64 else 640

/-- The side may carry a frame of this node of kind `kind` (03 R183, R186, R191, R721). -/
def sideOpen (s : State) (l : LaneId) (sd : Side) (kind : Nat) : Bool :=
  (laneAt s l).byp && laneEn s (laneIx l) && !s.dev.rgDown
    && (match (sideOf s l sd).link with
      | .up => true
      | .gated => kind == 2 || kind == 3
      | _ => false)
    && (!laneMaint s l || kind == 2)

/-! ### Frames of this node (03 R135–R139) -/

/-- Destination to EtherType of a frame sent on a side (03 R135). -/
def etherHeader (s : State) (l : LaneId) (sd : Side) : List Byte :=
  let b := lanBase (laneIx l)
  leBytes 4 (regCur s (b + 0x18)) ++ leBytes 2 (regCur s (b + 0x1C)) ++ [0x0A, 0x4E, 0x00] ++ leBytes 1 s.kee.hk
    ++ leBytes 1 (0x0A + laneIx l) ++ leBytes 1 (1 + sideIx sd) ++ beBytes 2 (rfld s 0x5800 0 16)

/-- The header that every frame of this node shares (03 R138); MLEN and MCOUNT come from its messages. -/
def ownHdr (s : State) (kind cls stitch lmode : Nat) : FrameHdr :=
  { pver := 1, kind := kind, cls := cls, src := s.trn.node, lmode := lmodeOf lmode, srcHk := s.kee.hk, epoch := s.trn.epoch, stitch := stitch % 256
    row := s.tm.row, pat := s.pat.cur, pdigest := word (patDigest s), hoop := s.tm.hoop }

/-- The bytes of a frame of this node as it leaves a side. -/
def frameBytes (s : State) (l : LaneId) (sd : Side) (h : FrameHdr) (ms : List Msg) : List Byte :=
  let area := (ms.map msgEnc).flatten
  etherHeader s l sd ++ payload { h with lane := l, side := sd, mlen := area.length, mcount := ms.length } area

/-- Wire time of a frame of `n` bytes from destination to end-to-end CRC: with preamble, SFD and FCS. -/
def wireUnits (s : State) (l : LaneId) (n : Nat) : Nat := (n + 12) * byteUnits s l

/-- A frame leaves a side now (12 R616 perf events 48 and 50). -/
def emit (l : LaneId) (sd : Side) (bytes : List Byte) (s : State) : State :=
  let i := laneIx l
  let s := { s with out := .frame l sd bytes :: s.out }
  let s := modSide l sd (fun x => { x with busyTill := s.tm.clk + wireUnits s l bytes.length, busyOwn := true, busyHeld := false }) s
  perfN (48 + 16 * i + 2) (leAt bytes 26 2) none (perf (48 + 16 * i) none s)

/-- A frame of this node sent on one side, where the side carries it. -/
def sendOn (l : LaneId) (sd : Side) (h : FrameHdr) (ms : List Msg) (s : State) : State :=
  if sideOpen s l sd h.kind then emit l sd (frameBytes s l sd h ms) s else s

/-! ### Ranging frames (03 R172, R173; 05 R232, R235, R241) -/

/-- The node owns a C0 response stitch in the present pattern. -/
def hasRspStitch (s : State) : Bool :=
  s.trn.node != 0 && (rowStitches s).any fun e => e.2.stype == 1 && e.2.cls == 0 && e.2.use == 1 && e.2.owner == s.trn.node

/-- CALL goes out in the ranging frames: of a node in INAUG that calls, and of one without a C0 response stitch (05 R232, R235). -/
def callInRanging (s : State) : Bool := s.trn.call.isSome && (s.dev.st == .inaug || (s.dev.st == .run && !hasRspStitch s))

/-- The own CALL. -/
def callMsg (s : State) (cause : Nat) : Msg := .inaug { step := 0, cause := cause, hk := s.kee.hk }

/-- ASYM of a side, in 0.125 ns units (03 R178). -/
def asymOf (s : State) (l : LaneId) (sd : Side) : BitVec 16 := BitVec.ofNat 16 (rfld s (lanBase (laneIx l) + 8 + 4 * sideIx sd) 16 16)

/-- The RANGE that a side sends, departing at clock `t`; `y` says whether its Y may be valid (03 R172, R173, R176). -/
def rangeMsg (s : State) (l : LaneId) (sd : Side) (y : Bool) : RangeMsg :=
  let x := sideOf s l sd
  let rx := if x.heardIn then x.rx0 else x.rx1
  { yvalid := y && x.yv, prevv := x.tx1.isSome && rx.isSome, fin := (sideOf s l (other sd)).noPeer, rseq := x.rseq, asym := asymOf s l sd
    y := word x.y, txp := word (x.tx1.getD 0), rxp := word (rx.getD 0) }

/-- Stitch of the present row that ranges lane `l`: its number (03 R725) and mode. -/
def rangingStitch (s : State) (l : LaneId) : Nat × Nat :=
  match (rowStitches s).find? fun e => e.2.stype == 2 && bitOf e.2.lanes (laneIx l) with
  | some e => (e.1, e.2.lmode)
  | none => (0, 0)

/-- A ranging frame sent on a side, its departure instant being `t`. -/
def sendRanging (l : LaneId) (sd : Side) (y : Bool) (waves : List DiscMsg) (t : Nat) (s : State) : State :=
  if !sideOpen s l sd 2 then s
  else
    let st := rangingStitch s l
    let disc := if s.dev.st = .inaug then waves.map Msg.disc else []
    let call := if callInRanging s then [callMsg s (s.trn.call.getD 0)] else []
    let s1 := emit l sd (frameBytes s l sd (ownHdr s 2 3 st.1 st.2) (.range (rangeMsg s l sd y) :: disc ++ call)) s
    let s1 := modSide l sd (fun x => { x with tx0 := x.tx1, tx1 := some t, sent := true }) s1
    if call = [] then s1
    else { s1 with trn := { s1.trn with
      enterNext := s1.trn.enterNext || s1.dev.st == .run, masterCall := s1.trn.masterCall || (s1.tm.master && !s1.trn.frozen) } }

/-- Where the side's other side has no Adezo peer, its coordinate is 0 (03 R169). -/
def endCoord (l : LaneId) (sd : Side) (s : State) : State :=
  if (sideOf s l (other sd)).noPeer then modSide l sd (fun x => { x with y := 0, yv := true }) s else s

/-- The Y that depends on a side is cleared after 16 ranging stitches in a row without a valid one, and RANGE_LOST raised (03 R190). -/
def missY (l : LaneId) (sd : Side) (s : State) : State :=
  let n := min 16 ((sideOf s l sd).misses + 1)
  let fresh := decide ((sideOf s l sd).misses < 16)
  let s := modSide l sd (fun x => { x with misses := n }) s
  if n = 16 ∧ fresh then raiseLane 11 (laneIx l) (sideIx sd) 13 (modSide l (other sd) (fun x => { x with yv := false }) s)
  else if n = 16 then modSide l (other sd) (fun x => { x with yv := false }) s
  else s

/-- A side at the end of its ranging stitch: it heard a valid Y, only RANGE without one (a step toward the 16), or nothing since the end of
the stitch before (a miss to be counted) (03 R190). -/
def closeSide (l : LaneId) (s : State) (sd : Side) : State :=
  let x := sideOf s l sd
  let s := if x.heardY then modSide l sd (fun z => { z with misses := 0 }) s else if x.heard then missY l sd s else s
  modSide l sd (fun z => { z with missed := !x.heard, heard := false, heardY := false, heardIn := false }) s

/-- The ranging stitch of a lane ends. -/
def closeLane (s : State) (l : LaneId) : State :=
  if (laneAt s l).ranging then each [Side.e1, Side.e2] (closeSide l) (modLane l (fun x => { x with ranging := false }) s) else s

/-- A ranging stitch whose end has passed is closed. -/
def endRanging (l : LaneId) (s : State) : State := if (laneAt s l).rngEnd ≤ s.tm.clk then closeLane s l else s

/-- Time from the start of the stitch that ranges a lane to its end, in 0.125 ns units. -/
def rangingUnits (s : State) (l : LaneId) : Nat :=
  match (rowStitches s).find? fun e => e.2.stype == 2 && bitOf e.2.lanes (laneIx l) with
  | some e => (e.2.stop - e.2.start) * (2 * s.tm.period) / 2 ^ 24
  | none => 0

/-- A ranging stitch begins on a lane: each side counts its RSEQ; a side beyond which the node has no peer on the other side sends its
frame, 2 µs after the start (03 R172). -/
def rangingStart (l : LaneId) (s : State) : State :=
  let s := closeLane s l
  let begin_ := fun (x : SideSt) => { x with rseq := (x.rseq + 1) % 32, sent := false, wave := none, heardIn := false }
  let s := modLane l (fun x => { x with
    ranging := true, rngEnd := s.tm.clk + rangingUnits s l, e1 := begin_ x.e1, e2 := begin_ x.e2 }) s
  each [Side.e1, Side.e2] (fun s sd =>
    let s := endCoord l sd s
    if (sideOf s l (other sd)).noPeer then
      sendRanging l sd true (if addsEntry s then chunkWave true 1 0 [ownEntry s] else []) (s.tm.clk + 16000) s
    else s) s

/-- The node ranges on a lane: its bypass driver is energised and the links are evaluated. -/
def ranges (s : State) (l : LaneId) : Bool := (laneAt s l).byp && laneEn s (laneIx l) && !(laneAt s l).settling

/-- RANGING_STITCH_START. -/
def execRangingStitchStart (l : LaneId) (s : State) : Out3 := .next (if ranges s l then rangingStart l s else s)

/-! ### RANGE (03 R174–R179, R226) -/

/-- The mean of 03 R174 in 0.125 ns units, from the stamps of the previous exchange. -/
def rawMean (t1 t4 : Nat) (m : RangeMsg) : Int := ((m.rxp - word t1) + (word t4 - m.txp)).toInt / 2

/-- A result smoothed (03 R175): the new mean and count of outliers, and whether the smoothing restarted. -/
def smooth (x : SideSt) (raw : Int) : Int × Nat × Bool :=
  if !x.hasMean then (raw, 0, false)
  else if (raw - x.mean).natAbs ≤ 400 then (x.mean + (raw - x.mean) / 8, 0, false)
  else if 3 ≤ x.outliers then (raw, 0, true)
  else (x.mean, x.outliers + 1, false)

/-- LAN_LINKLIM in 0.125 ns units. -/
def linkLim (s : State) (l : LaneId) : Int := rfld s (lanBase (laneIx l) + 0x28) 0 16 * 8

/-- The delay of frames that arrive on a side (03 R174). -/
def delayIn (s : State) (l : LaneId) (sd : Side) (m : RangeMsg) : Int := (sideOf s l sd).mean + (asymOf s l sd).toInt - m.asym.toInt

/-- The delay of frames that leave by a side (03 R174). -/
def delayOut (s : State) (l : LaneId) (sd : Side) (m : RangeMsg) : Int := (sideOf s l sd).mean - (asymOf s l sd).toInt + m.asym.toInt

/-- The link delay of one exchange taken in (03 R174, R175, R177, R179; 04 R226). -/
def takeMean (l : LaneId) (sd : Side) (raw : Int) (m : RangeMsg) (s : State) : State :=
  let x := sideOf s l sd
  let r := smooth x raw
  let far := decide (linkLim s l < r.1)
  let afresh := !x.ranged
  let s1 := modSide l sd (fun x => { x with mean := r.1, hasMean := true, outliers := r.2.1, ranged := true, long := far }) s
  let s1 := modSide l sd (fun x => { x with dIn := delayIn s1 l sd m, dOut := delayOut s1 l sd m }) s1
  let s1 := if r.2.2 then raiseLane 7 (laneIx l) (sideIx sd) 13 s1 else s1
  let s1 := if far && (afresh || !x.long) then raiseLane 8 (laneIx l) (sideIx sd) 13 s1 else s1
  judgeHop l sd s1

/-- A valid RANGE received on a side, stamped at its repeat point (03 R168, R172, R174–R177, R190). The stamps of the exchange are those
of the SFD arrival, REP_NOM earlier, as the worked case computes them (DEDUCED, log 72). -/
def takeRange (l : LaneId) (sd : Side) (m : RangeMsg) (stamp : Nat) (s : State) : State :=
  let s := endRanging l s
  let x := sideOf s l sd
  let live := (laneAt s l).ranging
  let t1 := if x.sent && live then x.tx0 else x.tx1
  let s := modSide l sd (fun x => { x with noPeer := false }) s
  let s := match m.prevv && decide (x.jseq = some ((m.rseq + 31) % 32)), t1, x.rx1 with
    | true, some a, some d => takeMean l sd (rawMean a d m) m s
    | _, _, _ => s
  let s := if m.yvalid && (sideOf s l sd).ranged then
      modSide l (other sd) (fun z => { z with y := ((m.y.toNat : Int) + delayIn s l sd m + repNom s l).toNat, yv := true }) s
    else s
  let s := modSide l sd (fun z => { z with
    rx0 := z.rx1, rx1 := some (stamp - repNom s l), jseq := some m.rseq, heard := true, heardIn := z.heardIn || live
    heardY := z.heardY || m.yvalid }) s
  let o := sideOf s l (other sd)
  if live && !o.sent then
    sendRanging l (other sd) true (forwardWave s ((sideOf s l sd).wave.getD [])) stamp s
  else s

/-- RANGE, taken at the repeat point (03 R148, R168). -/
def execRange (l : LaneId) (sd : Side) (m : RangeMsg) (s : State) : Out3 := .next (if ranges s l then takeRange l sd m s.tm.clk s else s)

/-- RANGING_FALLBACK: no valid ranging frame on the other side by the stitch end less the margin (03 R172, 05 R241). -/
def execRangingFallback (l : LaneId) (sd : Side) (s : State) : Out3 :=
  .next (
    if !ranges s l ∨ !(laneAt s l).ranging ∨ (sideOf s l sd).sent then s
    else sendRanging l sd false (if addsEntry s then chunkWave false 1 0 [ownEntry s] else []) s.tm.clk s)

/-- RANGING_MISS: the side received no valid RANGE since the end of its previous ranging stitch (03 R190). Before the stitch has ended, and
where it heard one, nothing happens (log 44). -/
def execRangingMiss (l : LaneId) (sd : Side) (s : State) : Out3 :=
  .next (
    let e := endRanging l s
    let x := sideOf e l sd
    if !ranges s l ∨ !x.missed ∨ !(x.link = .up ∨ x.link = .gated) then s
    else missY l sd (count (lanCtr (laneIx l) 13) 1 (modSide l sd (fun z => { z with missed := false }) e)))

/-- The ranging stitches of the row that ends are closed (03 R190). -/
def closeRanging (s : State) : State := each [LaneId.a, LaneId.b, LaneId.c] closeLane s

/-! ### Link states (03 R130, R133, R183–R187, R721) -/

/-- What a side keeps when its link has gone: no peer, no ranging, nothing held (03 R187). -/
def downSide (x : SideSt) (k : Link) : SideSt :=
  { x with
    link := k, noPeer := true, fport := false, ranged := false, hasMean := false, outliers := 0, long := false, tx1 := none, tx0 := none
    rx1 := none, rx0 := none, jseq := none, heard := false, heardIn := false, missed := false, heardY := false, hopOver := false
    misses := 0, wave := none, elastic := none, delayed := none }

/-- The side enters DOWN with LINK_DOWN and LINK_DOWNS, and the change is reported to Detect unless it is not to be (03 R185). -/
def sideGone (l : LaneId) (sd : Side) (tell : Bool) (s : State) : State :=
  let s := modSide l sd (fun x => { downSide x .down with confirm := if tell then some false else none }) s
  raiseLane 0 (laneIx l) (sideIx sd) 15 (count (lanCtr (laneIx l) 15) 1 s)

/-- A side whose bypass driver drops: one that was UP or GATED is reported (03 R185, R721). -/
def sideDown (l : LaneId) (sd : Side) (tell : Bool) (s : State) : State :=
  match (sideOf s l sd).link with
  | .down => s
  | .spderr => modSide l sd (fun x => downSide x .down) s
  | _ => sideGone l sd tell s

/-- Link-down of R133: the side enters DOWN from whatever state it is in (03 R185), in maintenance unreported (R191). -/
def linkDown (l : LaneId) (sd : Side) (s : State) : State :=
  if (sideOf s l sd).link = .down then s else sideGone l sd (!laneMaint s l) s

/-- The side's link came up at the lane's speed (03 R185); in maintenance it is not gated (DEDUCED, log 70). -/
def sideUp (l : LaneId) (sd : Side) (s : State) : State :=
  let tell := !laneMaint s l
  let k : Link := if s.dev.st = .run ∧ tell then .gated else .up
  raiseLane 1 (laneIx l) (sideIx sd) 15 (modSide l sd (fun x => { x with link := k, confirm := if tell then some true else none }) s)

/-- A link that runs at another speed (03 R130). -/
def sideSpeed (l : LaneId) (sd : Side) (s : State) : State :=
  if (sideOf s l sd).link = .spderr then s
  else raiseLane 2 (laneIx l) (sideIx sd) 15 (modSide l sd (fun x => downSide x .spderr) (sideDown l sd (!laneMaint s l) s))

/-- The device evaluates the lane's links (03 R183, R192). -/
def evaluates (s : State) (l : LaneId) : Bool :=
  (s.dev.st == .acquire || s.dev.st == .run || s.dev.st == .inaug) && laneEn s (laneIx l) && !(laneAt s l).settling

/-- The link as R133 declares it, applied to the side. -/
def applyLink (l : LaneId) (sd : Side) (up fast : Bool) (s : State) : State :=
  if !evaluates s l then s
  else if !up ∨ s.dev.rgDown then linkDown l sd s
  else if fast ≠ laneFast s (laneIx l) then sideSpeed l sd s
  else match (sideOf s l sd).link with
    | .up | .gated => s
    | _ => sideUp l sd s

/-- LAN_SIDEn_CFG of a side. -/
def sideCfg (s : State) (l : LaneId) (sd : Side) : Nat := regCur s (lanBase (laneIx l) + 8 + 4 * sideIx sd)

/-- The MDIO frames of a side's poll in the layout of LAN_MDIO_CMD: a read of register LAN_SIDEn_POLL at PHYAD, and with Clause 45 its address
in MMD POLL_DEV before the read (03 R133, R195). -/
def pollFrames (s : State) (l : LaneId) (sd : Side) : List Word :=
  let c := sideCfg s l sd
  let reg := rfld s (lanBase (laneIx l) + 0x10 + 4 * sideIx sd) 0 16
  let at_ := fun (r op : Nat) => bitsOf c 0 5 + 2 ^ 5 * r + 2 ^ 11 * op
  if bitOf c 5 then [word (at_ (bitsOf c 6 5) 0 + 2 ^ 10 + 2 ^ 16 * reg), word (at_ (bitsOf c 6 5) 2 + 2 ^ 10)]
  else [word (at_ (reg % 32) 2)]

/-- The side's PHY is polled now: LAN_MDIO_CFG.POLL has passed since its last poll, and no frame of the steward is in progress
(03 R133, R134). -/
def pollDue (s : State) (l : LaneId) (sd : Side) : Bool :=
  powered s && laneEn s (laneIx l) && !s.lan.mdioBusy
    && (match (sideOf s l sd).pollClk with
      | some c => decide (rfld s 0x5808 8 8 * 800000 ≤ s.tm.clk - c)
      | none => true)

/-- The link-status bit of the polled register's content. -/
def pollBit (s : State) (l : LaneId) (sd : Side) (data : BitVec 16) : Bool := data.getLsbD (bitsOf (sideCfg s l sd) 11 5)

/-- MDIO_POLL of an enabled side reads the register that LAN_SIDEn_POLL names: two polls in a row whose POLL_BIT is 1, with RXC present,
declare the link up; one that reads 0 declares it down (03 R133). Before the interval has passed nothing happens (log 44). -/
def execMdioPoll (l : LaneId) (sd : Side) (data : BitVec 16) (rxc mbps1000 : Bool) (s : State) : Out3 :=
  .next (
    if !pollDue s l sd then s
    else
      let bit := pollBit s l sd data
      let n := if bit then min 2 ((sideOf s l sd).ones + 1) else 0
      let up := decide (n = 2) && rxc
      let s := { s with out := ((pollFrames s l sd).map Out.mdio).reverse ++ s.out }
      applyLink l sd up mbps1000 (modSide l sd (fun x => { x with
        pollClk := some s.tm.clk, ones := n, rxc := rxc, raw := if bit then x.raw || up else false }) s))

/-- RXC_LOSS: RXC without an edge for 1 µs declares the link down (03 R133). -/
def execRxcLoss (l : LaneId) (sd : Side) (s : State) : Out3 :=
  .next (if !powered s then s else applyLink l sd false true (modSide l sd (fun x => { x with rxc := false, raw := false, ones := 0 }) s))

/-- LINK_CONFIRMED: the side has held its new state for DEBOUNCE ms: a cause (05 R229–R231). -/
def execLinkConfirmed (l : LaneId) (sd : Side) (s : State) : Out3 :=
  .next (match (sideOf s l sd).confirm with
    | none => s
    | some up =>
      if up ∧ rfld s 0x7000 0 2 = 2 ∧ !(s.trn.cple.getD (sideIx sd) false) then s
      else causeFound (if up then 0 else 1) (modSide l sd (fun x => { x with confirm := none }) s))

/-- COUPLER_EDGE: an edge of CPLEn that has held for DEBOUNCE ms; a cause of its own under CPL_MODE 1 (05 R229, R231). -/
def execCouplerEdge (carEnd : Nat) (level : Bool) (s : State) : Out3 :=
  .next (
    if !powered s ∨ carEnd = 0 ∨ 3 ≤ carEnd then s
    else
      let s := { s with trn := { s.trn with cple := s.trn.cple.set (carEnd - 1) level, cpleConf := s.trn.cpleConf.set (carEnd - 1) level } }
      if rfld s 0x7000 0 2 = 1 then causeFound (if level then 0 else 1) s else s)

/-! ### Bypass (01 R43; 03 R183, R185, R721) -/

/-- The bypass driver of a lane is to be energised. -/
def bypWanted (s : State) (l : LaneId) : Bool :=
  (s.dev.st == .acquire || s.dev.st == .run || s.dev.st == .inaug) && laneEn s (laneIx l) && !lanBit s (laneIx l) 3

/-- Both sides of a lane enter DOWN. -/
def lanesDown (l : LaneId) (tell : Bool) (s : State) : State := sideDown l .e2 tell (sideDown l .e1 tell s)

/-- The driver follows the device state and LAN_CTRL; a relay change is followed by the settle time. -/
def setBypass (l : LaneId) (tell : Bool) (s : State) : State :=
  let want := bypWanted s l
  let s := if want = (laneAt s l).byp then s else modLane l (fun x => { x with byp := want, settling := true }) s
  if want ∨ (s.dev.st = .acquire ∨ s.dev.st = .run ∨ s.dev.st = .inaug) ∧ laneEn s (laneIx l) then s
  else modLane l (fun x => { x with settling := false, ranging := false }) (lanesDown l (tell && !laneMaint s l) s)

/-- Every lane's driver follows the device state (01 R43; 03 R183, R185). -/
def bypassAll (tell : Bool) (s : State) : State := setBypass .c tell (setBypass .b tell (setBypass .a tell s))

/-- RELAY_SETTLE: SETTLE ms after a relay change the lane's links are evaluated (03 R183). -/
def execRelaySettle (l : LaneId) (s : State) : Out3 := .next (modLane l (fun x => { x with settling := false }) s)

/-! ### LAN_CTRL and MDIO (03 R134, R183, R191, R195, R721) -/

/-- The clamp record's cause of a register write. -/
def byWho : Who → ClampBy
  | .steward => { kind := 0 }
  | .tenant n => { kind := 0, ten := n }
  | .debug => { kind := 0, debug := true }

/-- A write of LAN_CTRL: SPEED changes with MAINT = 1 after the write only; the bypass driver follows EN and BYP_FORCE at once
(03 R183, R191, R721). -/
def lanCtrlWrite (cause : ClampBy) (l : LaneId) (v : Word) (s : State) : State :=
  let off := lanBase (laneIx l)
  let refused := decide (v.getLsbD 1 ≠ laneFast s (laneIx l)) && !v.getLsbD 2
  let v' := if refused then putBits v.toNat 1 1 (b2n (laneFast s (laneIx l))) else v.toNat
  let s := if refused then raiseLane 10 (laneIx l) 0 0 s else s
  setBypass l true (regPutChecked cause off v' s)

/-- A steward register may be written now. -/
def mayWrite (w : Who) (s : State) : Bool := stewardly w && reachable s

/-- A write of a lane's control register by `w`, where it may write it and its block is not gated (15 R716, 14 R696). -/
def lanCtrlBy (w : Who) (l : LaneId) (v : Word) (s : State) : State :=
  if mayWrite w s then gatedWrite (lanBase (laneIx l)) (lanCtrlWrite (byWho w) l v) s else s

/-- LAN_ENABLE_WRITE (03 R721). -/
def execLanEnableWrite (w : Who) (l : LaneId) (v : Word) (s : State) : Out3 := .next (lanCtrlBy w l v s)

/-- BYP_FORCE_WRITE (03 R183). -/
def execBypForceWrite (w : Who) (l : LaneId) (v : Word) (s : State) : Out3 := .next (lanCtrlBy w l v s)

/-- LANE_SPEED_WRITE (03 R191). -/
def execLaneSpeedWrite (w : Who) (l : LaneId) (v : Word) (s : State) : Out3 := .next (lanCtrlBy w l v s)

/-- LAN_MDIO_CMD (03 R134, R195): the frame starts after the poll in progress. A command while another is in progress is not taken
(DESIGN CHOICE, log 66). -/
def mdioCmd (v : Word) (s : State) : State :=
  if !reachable s ∨ s.lan.mdioBusy then s
  else { s with lan := { s.lan with mdioBusy := true, mdioDone := false, mdioCmd := some v }, out := .mdio v :: s.out }

def execLanMdioCmd (v : Word) (s : State) : Out3 := .next (mdioCmd v s)

/-- MDIO_FRAME_DONE (03 R195). -/
def execMdioFrameDone (rdata : BitVec 16) (s : State) : Out3 :=
  .next (match s.lan.mdioCmd with
    | none => s
    | some v =>
      let op := bitsOf v.toNat 11 2
      { s with lan := { s.lan with
        mdioBusy := false, mdioDone := true, mdioCmd := none, mdioData := if op = 2 ∨ op = 3 then rdata else s.lan.mdioData } })

end Sys2Proof.Machine
end

