-- ==== Sys2Proof/Machine/LineMsgs.lean ====
section
/-! DEFINITION. The line messages of 06 that reach this node, and the timers of the coherence engine: one row each. A row's message
has the row's type, whatever its operand says. -/

namespace Sys2Proof.Machine

/-- A received message with the type of its row. -/
def asType (t : MsgType) (r : Rx) : Rx := { r with msg := { r.msg with typ := t } }

/-- RD_SHARED at the home (06 R305, R307). -/
def execRdShared (r : Rx) (s : State) : Out3 := .next (homeRequest (asType .rdShared r) s)

/-- RD_OWN at the home (06 R307). -/
def execRdOwn (r : Rx) (s : State) : Out3 := .next (homeRequest (asType .rdOwn r) s)

/-- OWN_NODATA at the home (06 R307). -/
def execOwnNodata (r : Rx) (s : State) : Out3 := .next (homeRequest (asType .ownNodata r) s)

/-- WR_PUBLISH at the home (06 R305). -/
def execWrPublish (r : Rx) (s : State) : Out3 := .next (homeRequest (asType .wrPublish r) s)

/-- WR_MASKED at the home (06 R305). -/
def execWrMasked (r : Rx) (s : State) : Out3 := .next (homeRequest (asType .wrMasked r) s)

/-- ATOMIC_REQ at the home (06 R323). -/
def execAtomicReq (r : Rx) (s : State) : Out3 := .next (homeRequest (asType .atomicReq r) s)

/-- LOCK_REQ at the home (06 R326). -/
def execLockReq (r : Rx) (s : State) : Out3 := .next (homeRequest (asType .lockReq r) s)

/-- UNLOCK_REQ at the home (06 R328). -/
def execUnlockReq (r : Rx) (s : State) : Out3 := .next (homeRequest (asType .unlockReq r) s)

/-- SUB_REQ at the home (06 R305). -/
def execSubReq (r : Rx) (s : State) : Out3 := .next (homeRequest (asType .subReq r) s)

/-- UNSUB_REQ at the home (06 R305). -/
def execUnsubReq (r : Rx) (s : State) : Out3 := .next (homeRequest (asType .unsubReq r) s)

/-- WRITEBACK at the home (06 R307; 07 R349). -/
def execWriteback (r : Rx) (s : State) : Out3 := .next (homeWriteback (asType .writeback r) s)

/-- EVICT_CLEAN at the home (06 R307; 07 R353). -/
def execEvictClean (r : Rx) (s : State) : Out3 := .next (homeRequest (asType .evictClean r) s)

/-- READ_HOME at the home (06 R305, R307). -/
def execReadHome (r : Rx) (s : State) : Out3 := .next (homeRequest (asType .readHome r) s)

/-- A home line has left BUSY: the next request of its FIFO starts (06 R304). -/
def execHomeFifoNext (la : Nat) (s : State) : Out3 := .next (startNext la s)

/-- DATA_SHARED at the requester (06 R300; 10 R511). -/
def execDataShared (r : Rx) (s : State) : Out3 := .next (takeShared (asType .dataShared r) s)

/-- DATA_OWN at the requester (06 R300). -/
def execDataOwn (r : Rx) (s : State) : Out3 := .next (takeOwn (asType .dataOwn r) s)

/-- GRANT_OWN at the requester (06 R300). -/
def execGrantOwn (r : Rx) (s : State) : Out3 := .next (takeGrant (asType .grantOwn r) s)

/-- UPDATE at a subscriber (06 R300). -/
def execUpdate (r : Rx) (s : State) : Out3 := .next (takeUpdate (asType .update r) s)

/-- INVALIDATE at a holder (06 R300, R321; 08 R409). -/
def execInvalidateMsg (r : Rx) (s : State) : Out3 := .next (takeInvalidate (asType .invalidate r) s)

/-- RECALL at a holder (06 R300; 07 R351, R352, R359). -/
def execRecall (r : Rx) (s : State) : Out3 := .next (takeRecall (asType .recall r) s)

/-- ACK at the requester (06 R300). -/
def execAck (r : Rx) (s : State) : Out3 := .next (takeAck (asType .ack r) s)

/-- NAK_RETRY at the requester (06 R313, R314). -/
def execNakRetry (r : Rx) (s : State) : Out3 := .next (takeNak (asType .nakRetry r) s)

/-- ATOMIC_RESULT at the requester (10 R513). -/
def execAtomicResult (r : Rx) (s : State) : Out3 := .next (takeAtomic (asType .atomicResult r) s)

/-- LEASE_GRANT at the requester (10 R514). -/
def execLeaseGrant (r : Rx) (s : State) : Out3 := .next (takeGrantLease (asType .leaseGrant r) s)

/-- LEASE_BREAK at the holder (06 R329, R330). -/
def execLeaseBreak (r : Rx) (s : State) : Out3 := .next (takeBreak (asType .leaseBreak r) s)

/-- INV_ACK at the home (06 R308). -/
def execInvAck (r : Rx) (s : State) : Out3 := .next (takeInvAck (asType .invAck r) s)

/-- RECALL_DATA, at the home and at the reader it is forwarded to (06 R308, R309). -/
def execRecallData (r : Rx) (s : State) : Out3 :=
  .next (takeRecallData (asType .recallData r) (takeForwarded (asType .recallData r) s))

/-- RECALL_NODATA at the home (06 R308; 07 R350). -/
def execRecallNodata (r : Rx) (s : State) : Out3 := .next (takeRecallNodata (asType .recallNodata r) s)

/-- REQ_TMO rows have passed without an answer: the request is sent again (06 R334). -/
def execRequestResend (b : Nat) (s : State) : Out3 := .next (resendOp b s)

/-- HOME_TMO rows have passed without an answer to a probe: it is sent again (06 R335). -/
def execHomeResend (trk : Nat) (s : State) : Out3 := .next (homeResendOp trk s)

/-- A lease homed here has reached its expiry hoop (06 R329). -/
def leaseExpired (s : State) (l : Lease) : Bool := decide ((s.tm.hoop - l.expiry).toNat < 2 ^ 31)

/-- A row-hoop boundary at or after a lease's expiry hoop ends the lease (06 R329). -/
def execLeaseExpiry (la : Nat) (s : State) : Out3 :=
  .next (match leaseOn s la with
    | some l => if leaseExpired s l then leaseEnd l s else s
    | none => s)

/-- The 65-row hold of a recalled line ends (07 R359). -/
def execHeldLineRelease (la : Nat) (s : State) : Out3 := .next (releaseHeld la s)

end Sys2Proof.Machine
end

