-- ==== Sys2Proof/Machine/Stitches.lean ====
section
/-! DEFINITION. The stitches this node owns: which messages a frame takes, its numbering, and its launch on the lanes
(03 R152–R160; 04 R198, R202, R210, R221; 05 R247, R255–R258; 06 R29, R338, R339; 07 R346, R347; 02 R95). -/

namespace Sys2Proof.Machine

/-! ### Launching -/

/-- LAN_TXSLIP in 0.125 ns units. -/
def txSlip (s : State) (l : LaneId) : Nat := rfld s (lanBase (laneIx l) + 0x20) 0 16 * 8

/-- An own frame not sent (03 R154): TX_LATE and STITCH_LATE with the stitch. -/
def late (l : LaneId) (sd : Side) (stitch : Nat) (s : State) : State :=
  let i := laneIx l
  let s := perf (48 + 16 * i + 9) none (count (lanCtr i 10) 1 s)
  raise (64 + 16 * i + 5) (detLS i (sideIx sd) (stitch % 256) 0 (ctrGet s (lanCtr i 10))) s

/-- An own data or control frame reaches its start on one side (03 R154, R155): it waits for a repeated frame for at most
LAN_TXSLIP. -/
def launchOn (l : LaneId) (sd : Side) (stitch : Nat) (h : FrameHdr) (ms : List Msg) (s : State) : State :=
  let x := sideOf s l sd
  if !sideOpen s l sd h.kind then s
  else if s.tm.clk < x.busyTill then
    if x.busyTill - s.tm.clk ≤ txSlip s l then
      modSide l sd (fun z => { z with delayed := some (frameBytes s l sd h ms, stitch, s.tm.clk) }) s
    else late l sd stitch s
  else emit l sd (frameBytes s l sd h ms) s

/-- The same frame out of both sides of a lane (03 R139). -/
def launchLane (l : LaneId) (stitch : Nat) (h : FrameHdr) (ms : List Msg) (s : State) : State :=
  launchOn l .e2 stitch h ms (launchOn l .e1 stitch h ms s)

/-- On every lane of a stitch (03 R159). -/
def launchLanes (lanes : Nat) (stitch : Nat) (h : FrameHdr) (ms : List Msg) (s : State) : State :=
  each (lanesIn lanes) (fun s l => launchLane (laneOfIx l) stitch h ms s) s

/-- DELAYED_LAUNCH: the output is free (03 R154). A lane that came into maintenance meanwhile carries no such frame (R191). -/
def execDelayedLaunch (l : LaneId) (sd : Side) (s : State) : Out3 :=
  .next (match (sideOf s l sd).delayed with
    | none => s
    | some (bytes, stitch, t) =>
      if s.tm.clk < (sideOf s l sd).busyTill then s
      else
        let s := modSide l sd (fun x => { x with delayed := none }) s
        if laneMaint s l then s
        else if s.tm.clk - t ≤ txSlip s l then emit l sd bytes s else late l sd stitch s)

/-! ### What a data stitch takes (07 R346, R347; 06 R338, R339) -/

/-- The stitch use of a C0 data stitch. -/
def useCode : Nat → Use
  | 0 => .req
  | 1 => .rsp
  | _ => .hom

/-- Place of an item in the order of its stitch: by level, and for the C0 home-originated use by 06 R338. -/
def itemRank (hom : Bool) (i : TxItem) : Nat :=
  if !hom then i.level
  else if i.push then 4
  else match i.msg with
    | .line m => match m.typ with
      | .invalidate | .recall | .leaseBreak => 2
      | .update | .migLine => 3
      | _ => 1
    | _ => 0

/-- Items in the order in which they are placed. -/
def inOrder (hom : Bool) (l : List TxItem) : List TxItem := ((List.range 5).map fun r => l.filter fun i => itemRank hom i == r).flatten

/-- The node at whose home an item's elder request is to be served. -/
def elderAt (s : State) (i : TxItem) : Option Nat :=
  match i.msg with
  | .line m => if m.elder && i.bob.isSome then some (homeNode s m.la) else none
  | _ => none

/-- The item is an elder request held back: another elder of this node is outstanding at the same home, or goes before it (06 R314). -/
def elderHeld (s : State) (i : TxItem) : Bool :=
  (elderAt s i).any fun h =>
    (s.lan.txq.takeWhile fun j => j != i).any (fun j => elderAt s j == some h)
      || s.ten.bobs.any fun e => some e.1 != i.bob && e.2.elder && e.2.left.isSome && e.2.wait == .answer
          && e.2.req.any (fun q => homeNode s q.la == h)

/-- Length of a message on the wire (03 R141). -/
def msgLen (m : Msg) : Nat := (msgEnc m).length

/-- Items from the front that fit `cap` bytes, none passed over (07 R347). -/
def takeFit : Nat → List TxItem → List TxItem
  | _, [] => []
  | cap, i :: r => if msgLen i.msg ≤ cap then i :: takeFit (cap - msgLen i.msg) r else []

/-- The message as it leaves: a push carries the line's present value and age (06 R29); a PROPOSE names its hoop (04 R217). -/
def finalMsg (s : State) (i : TxItem) : Msg :=
  match i.msg with
  | .line m =>
    if m.typ = .update then
      let h := homeLine s m.la
      .line { m with age := homeAge s h, version := h.version, data := h.data }
    else .line m
  | .patSwitch m => if m.step = 0 then .patSwitch { m with phoop := s.tm.hoop } else .patSwitch m
  | m => m

/-- What the node notes when an item leaves. -/
def itemLeft (s : State) (i : TxItem) : State :=
  let s := { s with lan := { s.lan with txq := s.lan.txq.erase i } }
  match i.msg with
  | .line m =>
    let s := match i.bob with
      | some b => modBob b (fun v => { v with left := some s.tm.rows }) s
      | none => s
    match m.typ with
    | .nakRetry => { s with home := { s.home with naks := s.home.naks - 1 } }
    | .migLine | .migDir | .migDone => if i.use = .mig ∧ !(m.typ = .migLine ∧ m.flg.getLsbD 1) then migLeft m s else ackLeft m s
    | .update => { s with lan := { s.lan with skipped := s.lan.skipped.filter (· != m.la) } }
    | _ => s
  | .patSwitch m => proposeLeft m s
  | .inaug _ => { s with trn := { s.trn with enterNext := true, masterCall := s.trn.masterCall || s.tm.master } }
  | _ => s

/-- Frozen before the Cut: the C0 response and home-originated stitches carry every class (05 R257). -/
def draining (s : State) : Bool := s.trn.frozen && s.trn.step != 6

/-- Class of the frame that a data stitch carries: its own; while draining, C1 or C2 in a C0 stitch for which no C0 message is queued
(05 R257). -/
def frameCls (s : State) (t : Stitch) : Cls :=
  if t.stype = 3 then .c1
  else if t.cls ≠ 0 then clsOf t.cls
  else
    let u := useCode t.use
    let has := fun (c : Cls) => s.lan.txq.any fun i => i.use == u && i.cls == c
    if !draining s ∨ u = .req ∨ has .c0 then .c0 else if has .c1 then .c1 else if has .c2 then .c2 else .c0

/-- A WRITEBACK that the home's RECALL demands, sent during Freeze as well (05 R256). -/
def demanded (s : State) (i : TxItem) : Bool :=
  match i.msg with
  | .line m => m.typ == .writeback && (copyOf s m.la).any fun e => e.2.st == .mi && e.2.recalled.isSome
  | _ => false

/-- The items queued for a stitch, in order: the CALL of 05 R232 first in a C0 response stitch; from Freeze to Resume no request that the home
does not demand (05 R256). -/
def itemsFor (s : State) (t : Stitch) (c : Cls) : List TxItem :=
  if t.stype = 3 then
    (s.lan.txq.filter fun i => i.use == .mig) ++ (migQueue s).map fun m => { msg := .line m, cls := .c1, use := .mig, level := 2 }
  else
    let u := useCode t.use
    let call := if t.cls = 0 ∧ u = .rsp ∧ s.dev.st = .run then
        s.trn.call.toList.map fun k => ({ msg := callMsg s k, cls := .c0, use := .rsp, level := 0 } : TxItem)
      else []
    let mine := s.lan.txq.filter fun i =>
      i.cls == c && i.use != .mig && (t.cls != 0 || i.use == u) && !(s.trn.frozen && i.use == .req && !demanded s i) && !elderHeld s i
    call ++ inOrder (t.cls == 0 && u == .hom) mine

/-- The node may send data frames in a stitch of class `cls` now (02 R95; 01 R46; 04 R221). The rows are on the virtual hoop while they are not
LOCKED (02 R55). -/
def mayLaunch (s : State) (t : Stitch) : Bool :=
  (s.dev.st == .run || s.dev.st == .inaug) && onTrain s && t.owner == s.trn.node && !s.lan.mute
    && (timed s || (t.cls == 2 && s.tm.coarse && !s.tm.locked && s.tm.tstate == .acquire))

/-- Each own stitch of a class counts for the requests that wait for or in it (12 R618 LAT_ST). -/
def countStitch (c : Cls) (s : State) : State :=
  { s with ten := { s.ten with bobs := s.ten.bobs.map fun e =>
      if e.2.wait == .answer && e.2.left.isNone && e.2.cls == c then (e.1, { e.2 with stitches := e.2.stitches + 1 }) else e } }

/-- A stitch of the C0 request use. -/
def c0Req (t : Stitch) : Bool := t.stype != 3 && t.cls == 0 && t.use == 0

/-- Message bytes that a frame of the stitch may carry: of C0 requests no more than what is left of the node's C0_REQ in this row
(06 R339). -/
def frameCap (s : State) (t : Stitch) (cap : Nat) : Nat :=
  match c0Req t, ownBudget s with
  | true, some b => min cap (b.req - s.lan.reqSent)
  | _, _ => cap

/-- Message bytes of a frame. -/
def itemBytes (is : List TxItem) : Nat := (is.map fun i => msgLen i.msg).foldl (· + ·) 0

/-- One data frame of a stitch on a set of lanes, numbered in its class's stream (03 R156, R160). Empty: no frame, no FSEQ. -/
def dataFrame (n : Nat) (t : Stitch) (lanes cap : Nat) (s : State) : State :=
  let c := frameCls s t
  let is := takeFit (frameCap s t cap) (itemsFor s t c)
  if is.isEmpty then s
  else
    let k := clsIx c
    let q := s.lan.fseq.getD k 0
    let h := { ownHdr s 1 k n t.lmode with fseq := q }
    let s1 := launchLanes lanes n h (is.map (finalMsg s)) s
    let s1 := each is itemLeft s1
    let s1 := { s1 with lan := { s1.lan with
      fseq := s1.lan.fseq.set k ((q + 1) % 65536), reqSent := s1.lan.reqSent + (if c0Req t then itemBytes is else 0) } }
    if k = 0 then perf 162 none s1 else s1

/-- A data or migration stitch of this node: one frame for SINGLE, DUAL and TRIPLE; one per lane for SPLIT (03 R159). -/
def dataStitch (n : Nat) (t : Stitch) (s : State) : State :=
  let fast := laneFast s
  let s := countStitch (clsOf t.cls) s
  if t.lmode = 2 then each (lanesIn t.lanes) (fun s l => dataFrame n t (2 ^ l) (capOf t.len (fast l)) s) s
  else dataFrame n t t.lanes (((lanesIn t.lanes).map fun l => capOf t.len (fast l)).foldl min 1472) s

/-! ### Control stitches of pattern I (05 R246, R247, R255, R258) -/

/-- The own CLAIM and the two DIGESTs (05 R247). -/
def ownRecord (s : State) : List Msg := [.inaug (ownClaim s), .digest (ownDigest s false), .digest (ownDigest s true)]

/-- The messages of the own control stitch in this row: a CLAIM with the DIGESTs, or a CONFIRM once every CLAIM is in, or DRAINED (05 R247,
R255, R258). -/
def controlMsgs (s : State) : List Msg :=
  match s.trn.step with
  | 3 =>
    if s.trn.agreed.isSome then []
    else if !s.trn.confirmRow then ownRecord s
    else match allHeard s, ownOutd s with
      | true, some d => [.inaug { step := 2, num := s.trn.propNode, hk := s.kee.hk, f1 := d }]
      | _, _ => ownRecord s
  | 4 | 5 => if s.trn.wasDrained || drained s then [.inaug { step := 3, num := s.trn.propNode, hk := s.kee.hk }] else []
  | _ => []

/-- The own control stitch. -/
def controlStitch (t : Stitch) (s : State) : State :=
  let k := t.owner
  if s.dev.st ≠ .inaug ∨ k ≠ s.trn.propNode ∨ !(timed s ∨ s.tm.coarse) then s
  else
    let ms := controlMsgs s
    if ms.isEmpty then s
    else
      let s := launchLanes t.lanes k { ownHdr s 3 3 k 1 with src := k } ms (if s.trn.step = 4 ∨ s.trn.step = 5 then noteDrained s else s)
      if s.tm.master ∧ s.trn.step = 4 ∧ allDrained s then endDrain s else masterAgree s

/-- OWN_STITCH_START: at most one frame per lane in each stitch (03 R155–R157). -/
def execOwnStitchStart (stitch : Nat) (s : State) : Out3 :=
  .next (
    if s.lan.launched.contains stitch then s
    else match stitchAt s stitch with
      | none => s
      | some t =>
        let s1 := { s with lan := { s.lan with launched := s.lan.launched ++ [stitch] } }
        match t.stype with
        | 1 | 3 => if mayLaunch s t then dataStitch stitch t s1 else s
        | 4 => controlStitch t s1
        | _ => s)

/-! ### Repeat pushes (06 R29, R339) -/

/-- The line of an UPDATE item. -/
def updateLa (i : TxItem) : Option Nat :=
  match i.msg with
  | .line m => if m.typ = .update ∧ m.cls = .c0 then some m.la else none
  | _ => none

/-- C0 PUBLISH lines homed here with a sharer. -/
def pushLines (s : State) : List Nat :=
  (s.home.filter.filter fun e => e.2.st == .pub && e.2.vec != 0 && clsAt s (laOf s.kee.hk e.1) .c1 == .c0).map fun e => laOf s.kee.hk e.1

/-- At a row start each such line gets a push unless an UPDATE of a new commit is queued; those skipped in earlier rows come first. -/
def queuePushes (s : State) : State :=
  let left := s.lan.txq.filter (·.push)
  let skipped := s.lan.skipped.filter (fun la => !(left.filterMap updateLa).contains la) ++ left.filterMap updateLa
  let q := s.lan.txq.filter fun i => !i.push
  let new := q.filterMap updateLa
  let due := (pushLines s).filter fun la => !new.contains la
  let order := skipped.filter (due.contains ·) ++ due.filter fun la => !skipped.contains la
  let item := fun (la : Nat) => ({
    msg := .line { typ := .update, cls := .c0, dst := 63, la := la, flg := 1 }, cls := .c0, use := .hom, level := 2, push := true } : TxItem)
  { s with lan := { s.lan with txq := q ++ order.map item, skipped := skipped.filter (due.contains ·) } }

end Sys2Proof.Machine
end

