-- ==== Sys2Proof/Machine/Lanes.lean ====
section
/-! DEFINITION. Frames that reach this node: their checks, streams and copies, what their messages do, repeating, and foreign traffic
(03 R132, R137, R143–R154, R161–R167, R180–R182, R186, R189, R191, R720; 05 R229, R232, R241, R283). -/

namespace Sys2Proof.Machine

/-- The state that a meaning leaves. -/
def after (o : Out3) (s : State) : State :=
  match o with
  | .next t => t
  | _ => s

/-- Reception counter and perf event of a lane. -/
def laneCount (l : LaneId) (i n : Nat) (s : State) : State := count (lanCtr (laneIx l) i) n s

/-- Perf event of a lane (12 R616). -/
def lanePerf (l : LaneId) (k n : Nat) (s : State) : State := perfN (48 + 16 * laneIx l + k) n none s

/-! ### What a frame is (03 R135–R138, R144, R720) -/

/-- An Adezo frame: the lane's group address and EtherType (03 R137). -/
def isAdezo (s : State) (l : LaneId) (bytes : List Byte) : Bool :=
  let b := lanBase (laneIx l)
  bytes.take 6 == leBytes 4 (regCur s (b + 0x18)) ++ leBytes 2 (regCur s (b + 0x1C)) && (bytes.drop 12).take 2 == beBytes 2 (rfld s 0x5800 0 16)

/-- A MAC control frame (03 R132). -/
def isMacControl (bytes : List Byte) : Bool := (bytes.drop 12).take 2 == [0x88, 0x08]

/-- KIND of an Adezo frame's bytes. -/
def kindOf (bytes : List Byte) : Nat := bitsOf (leAt bytes 14 1) 4 2

/-- A control message with an undefined selector field in it that its own reader checks (03 R720, 02 R723). -/
def selectorBad : Msg → Bool
  | .reference m => m.nrow == 3 || m.tier == 3 || decide (5 ≤ m.rank)
  | .trueP m => m.tsrc == 3
  | _ => false

/-- A frame read: its header and messages, and whether R144 or R720 counts it. A message of a pattern frame that is not acted on keeps
its place (03 R145). -/
def readFrame (bytes : List Byte) : Frame × Bool :=
  let p := bytes.drop 14
  let d := payloadDec p
  let w := walk d.1.cls d.2.length d.2
  let keep := fun (r : Read) => match r with
    | .msg m => some m
    | .skip => if d.1.kind = 0 then some (Msg.disc {}) else none
  let skipped := w.1.any fun r => r == .skip
  ({ hdr := d.1, msgs := w.1.filterMap keep },
   w.2 || skipped || d.1.mcount != w.1.length || decide (p.length < 28 + d.1.mlen) || (readMsgs w.1).any selectorBad)

/-- A frame counted once in UNKNOWN_TYPE (03 R144, R720). -/
def unknownType (l : LaneId) (sd : Side) (s : State) : State := raiseLane 9 (laneIx l) (sideIx sd) 14 (laneCount l 14 1 s)

/-! ### Messages (03 R143; 05 R229; 04 R217) -/

/-- A line message handed to the agent that its type names. -/
def takeLine (r : Rx) (s : State) : State :=
  match r.msg.typ with
  | .rdShared | .rdOwn | .ownNodata | .wrPublish | .wrMasked | .atomicReq | .lockReq | .unlockReq | .subReq | .unsubReq | .evictClean
  | .readHome => homeRequest r s
  | .writeback => homeWriteback r s
  | .dataShared => takeShared r s
  | .dataOwn => takeOwn r s
  | .grantOwn => takeGrant r s
  | .update => takeUpdate r s
  | .invalidate => takeInvalidate r s
  | .recall => takeRecall r s
  | .ack => takeAck r s
  | .nakRetry => takeNak r s
  | .atomicResult => takeAtomic r s
  | .leaseGrant => takeGrantLease r s
  | .leaseBreak => takeBreak r s
  | .invAck => takeInvAck r s
  | .recallData => takeRecallData r (takeForwarded r s)
  | .recallNodata => takeRecallNodata r s
  | .migLine => takeMigLine r s
  | .migDir => takeMigDir r s
  | .migDone => takeMigDone r s

/-- An INAUG message by its STEP (05 R236). -/
def takeInaug (fromRanging : Bool) (src : Nat) (m : InaugMsg) (s : State) : State :=
  match m.step with
  | 0 => hearCall fromRanging m s
  | 1 => after (execInaugClaim src m s) s
  | 2 => after (execConfirm src m s) s
  | 3 => after (execDrained src m s) s
  | _ =>
    if m.num = 1 then takeAgreed m.f1 s
    else if m.num = 2 then after (execStatusCut m s) s
    else after (execStatusResume m s) s

/-- A PAT_SWITCH message by its STEP (04 R216). -/
def takePat (src : Nat) (m : PatMsg) (s : State) : State :=
  match m.step with
  | 0 => after (execPatSwitchPropose src m s) s
  | 1 => after (execPatSwitchAck src m s) s
  | 2 => after (execPatSwitchNack src m s) s
  | 3 => after (execPatSwitchGo m s) s
  | _ => after (execPatSwitchCancel m s) s

/-- The frame came in a migration stitch of the pattern in force (05 R272). -/
def inMigStitch (s : State) (h : FrameHdr) : Bool :=
  s.pat.cur != 4 && (basePrick s).any fun p => (prickRow p h.row).any fun e => e.1 == h.stitch && e.2.stype == 3

/-- A message of a frame from node `src`, delivered from lane `l`. -/
def takeMsg (l : LaneId) (h : FrameHdr) (m : Msg) : State → State := instant fun s =>
  match m with
  | .line q => takeLine { src := h.src, srcHk := h.srcHk, lane := l, mig := inMigStitch s h, msg := q } s
  | .inaug q => takeInaug (h.kind == 2) h.src q s
  | .patSwitch q => takePat h.src q s
  | .digest q => after (execDigest h.src q s) s
  | _ => s

/-- A frame's messages in order. -/
def takeMsgs (l : LaneId) (h : FrameHdr) (ms : List Msg) (s : State) : State := each ms (fun s m => takeMsg l h m s) s

/-- The delivered copy of a frame came from lane `l` (03 R167). -/
def firstValid (l : LaneId) (s : State) : State := lanePerf l 3 1 (laneCount l 3 1 s)

/-! ### Streams (03 R161–R165) -/

/-- Key of a stream. -/
def streamKey (src : Nat) (c : Nat) : Nat := 4 * src + c

/-- A stream's record. -/
def streamOf (s : State) (k : Nat) : RxStream := tgetD s.lan.streams k {}

/-- A stream's record set. -/
def setStream (k : Nat) (x : RxStream) (s : State) : State := { s with lan := { s.lan with streams := tset s.lan.streams k x } }

/-- A data frame handed on. -/
def deliver (l : LaneId) (f : Frame) (s : State) : State := takeMsgs l f.hdr f.msgs (firstValid l s)

/-- Held frames that follow without a gap are delivered. The fuel is their number. -/
def followOn (k : Nat) : Nat → State → State
  | 0, s => s
  | n + 1, s =>
    let x := streamOf s k
    match x.e, x.held.find? (fun h => x.e == some h.1) with
    | some e, some h =>
      followOn k n (deliver h.2.1 h.2.2.2 (setStream k { e := some ((e + 1) % 65536), held := x.held.filter (fun g => g.1 != h.1) } s))
    | _, _ => s

/-- Frames of a stream declared lost (03 R164): counted, LANE_GAP, and the coherence engine is told. -/
def declareLost (k n : Nat) (l : LaneId) (s : State) : State :=
  if n = 0 then s
  else
    let i := laneIx l
    let s := lanePerf l 5 n (laneCount l 5 n s)
    let s := raise (64 + 16 * i + 6) (detLS i 0 (k / 4) (k % 4) (ctrGet s (lanCtr i 5))) s
    staleMark (k / 4) (clsOf (k % 4)) s

/-- The held frame that comes next in a stream. -/
def nextHeld (x : RxStream) : Option (Nat × LaneId × Nat × Frame) :=
  match x.e with
  | none => none
  | some e => x.held.foldl (fun a h => match a with
    | none => some h
    | some b => if (h.1 + 65536 - e) % 65536 < (b.1 + 65536 - e) % 65536 then some h else some b) none

/-- The gap before the next held frame is declared lost, and what follows it is delivered (03 R162). -/
def closeGap (k : Nat) (s : State) : State :=
  let x := streamOf s k
  match x.e, nextHeld x with
  | some e, some h => followOn k 8 (declareLost k ((h.1 + 65536 - e) % 65536) h.2.1 (setStream k { x with e := some h.1 } s))
  | _, _ => s

/-- The gaps before the held frames of which `late` is true are declared lost, one after the other, and what follows is delivered in order
(03 R162). The fuel is the number of held frames. -/
def closeGaps (k : Nat) (late : Nat × LaneId × Nat × Frame → Bool) : Nat → State → State
  | 0, s => s
  | n + 1, s => if (streamOf s k).held.any late then closeGaps k late n (closeGap k s) else s

/-- The held frames of a stream in order. -/
def heldInOrder (x : RxStream) : List (Nat × LaneId × Nat × Frame) :=
  (List.range 8).filterMap fun i => x.held.find? fun h => x.e == some ((h.1 + 65536 - i) % 65536)

/-- Frames held node-wide (03 R163). -/
def heldAll (s : State) : Nat := (s.lan.streams.map fun e => e.2.held.length).foldl (· + ·) 0

/-- The oldest held frame: its stream and the clock of its end. -/
def oldestHeld (s : State) : Option (Nat × Nat) :=
  let all := (s.lan.streams.map fun e => e.2.held.map fun h => (e.1, h.2.2.1)).flatten
  all.foldl (fun (a : Option (Nat × Nat)) h => match a with
    | none => some h
    | some b => if h.2 < b.2 then some h else some b) none

/-- Room for one more held frame: where the window is full, the gap before the oldest held frame is closed (03 R163). -/
def holdRoom (s : State) : State :=
  if heldAll s < 64 then s
  else match oldestHeld s with
    | some (j, t) => closeGaps j (fun h => h.2.2.1 == t) 8 s
    | none => s

/-- A data frame whose checks passed, in its stream (03 R161, R163, R165, R720). Where a jump declares frames lost, those held are not among
them (DEDUCED, log 127). An arriving frame of the stream whose gap a full window has just closed is then a stale copy (DESIGN CHOICE,
log 128). -/
def sequence (l : LaneId) (sd : Side) (f : Frame) (odd : Bool) (s : State) : State :=
  let k := streamKey f.hdr.src f.hdr.cls
  let x := streamOf s k
  let e := x.e.getD f.hdr.fseq
  let d := (f.hdr.fseq + 65536 - e) % 65536
  let dup := fun (s : State) => lanePerf l 4 1 (laneCount l 4 1 s)
  let note := fun (s : State) => if odd then unknownType l sd s else s
  let next := some ((f.hdr.fseq + 1) % 65536)
  if 0x8000 ≤ d then dup s
  else if d = 0 then followOn k 8 (deliver l f (note (setStream k { x with e := next } s)))
  else if d < 8 then
    if x.held.any (·.1 == f.hdr.fseq) then dup s
    else
      let s := holdRoom (note s)
      let x := streamOf s k
      let held := setStream k { x with held := x.held ++ [(f.hdr.fseq, l, s.tm.clk, f)] } s
      if x.e = some f.hdr.fseq then followOn k 8 held
      else if (f.hdr.fseq + 65536 - x.e.getD f.hdr.fseq) % 65536 < 8 then held else dup s
  else
    let hs := heldInOrder x
    let s := declareLost k (d - hs.length) l (note s)
    let s := each hs (fun s h => deliver h.2.1 h.2.2.2 s) (setStream k { e := next, held := [] } s)
    deliver l f s

/-- LAN_REORD_TMO of a lane in 0.125 ns units; 0 selects the default (03 R162). -/
def reordTmo (s : State) (l : LaneId) : Nat :=
  let v := rfld s (lanBase (laneIx l) + 0x24) 0 16
  (if v = 0 then (if laneFast s (laneIx l) then 16 else 128) else v) * 8000

/-- REORDER_TIMEOUT: held frames have waited LAN_REORD_TMO: the gaps before them are lost (03 R162). -/
def execReorderTimeout (src : Nat) (c : Cls) (s : State) : Out3 :=
  .next (closeGaps (streamKey src (clsIx c)) (fun h => decide (reordTmo s h.2.1 ≤ s.tm.clk - h.2.2.1)) 8 s)

/-! ### Unsequenced frames (03 R166, R189; 05 R235, R283) -/

/-- What tells the frames of R166 apart: KIND, sender's home key, stitch, row and hoop of the header (log 54). -/
def copyKey (h : FrameHdr) : Nat := h.kind + 4 * h.srcHk + 1024 * h.stitch + 262144 * h.row + 4194304 * h.hoop.toNat

/-- Lanes of the stitch that an unsequenced frame came in (03 R166): those of the stitch in the present pattern, where it names one. -/
def copyLanes (s : State) (h : FrameHdr) : List Nat :=
  let m := if h.kind = 3 then 3
    else match (rowStitches s).find? fun e => e.2.stype == 0 with
      | some e => e.2.lanes
      | none => 7
  (lanesIn m).filter (laneEn s)

/-- The stitch's lowest lane whose copy has not ended invalid. -/
def lowestLane (s : State) (h : FrameHdr) : Option Nat :=
  (copyLanes s h).find? fun l => !s.lan.invalid.any fun e => e.1 == copyKey h && e.2.1 == l

/-- Row phase at clock value `t`. -/
def rowAtClk (s : State) (t : Int) : Phase := s.tm.rowPh + BitVec.ofInt 32 ((t - s.tm.rowClk) * 2 ^ 32 / (2 * max 1 s.tm.period))

/-- The frame is of the node's own epoch and version (03 R189). -/
def ownEpoch (s : State) (h : FrameHdr) : Bool := s.trn.epoch != 0 && h.epoch == s.trn.epoch && h.pver == s.trn.version

/-- The controls of a pattern frame, after the reference of its first three messages is used for time (03 R145, 02 R723). -/
def takePattern (c : CopyWait) (s : State) : State :=
  let h := c.frame.hdr
  match c.frame.msgs with
  | .reference r :: .trueP t :: .origin o :: ms =>
    takeMsgs c.lane h ms (takeReference c.lane c.side h.side r t o (rowAtClk s c.stamp) (trueAtClk s c.stamp) s)
  | ms => takeMsgs c.lane h ms s

/-- No CALL: one in a frame of another epoch than the node's own, or in an inauguration frame, is no cause (05 R229). -/
def notCall : Msg → Bool
  | .inaug m => m.step != 0
  | _ => true

/-- The node's epoch is set: in RUN, and from the Cut on (03 R189; 05 R260, R266). -/
def epochSet (s : State) : Bool := s.dev.st == .run || (s.dev.st == .inaug && s.trn.step == 6)

/-- The frame's epoch is the one that the agreement gives, at a node that has had no Cut (05 R266). -/
def pastCut (s : State) (h : FrameHdr) : Bool :=
  s.dev.st == .inaug && (s.trn.step == 4 || s.trn.step == 5) && s.trn.agreed.isSome && s.trn.outcome.any fun o => o.epoch == h.epoch

/-- A pattern frame processed (03 R189; 04 R221; 05 R235, R266, R283). -/
def patternFrame (c : CopyWait) (s : State) : State :=
  let h := c.frame.hdr
  let own := ownEpoch s h
  if epochSet s ∧ !own then
    laneCount c.lane 6 1 { s with tm := { s.tm with sawOther := s.tm.sawOther || h.epoch != s.trn.epoch } }
  else
    let s := firstValid c.lane s
    let due := s.pat.props.any fun p => p.sent && p.hoop + 3 == s.tm.hoop
    let s := { s with
      tm := { s.tm with sawOwn := s.tm.sawOwn || own, sawOther := s.tm.sawOther || pastCut s h, sawPatI := s.tm.sawPatI || h.pat == 4 }
      pat := { s.pat with heardVerdict := s.pat.heardVerdict || due } }
    let s := if s.dev.st = .run then unmute h.pat h.pdigest s else s
    takePattern (if own then c else { c with frame := { c.frame with msgs := c.frame.msgs.filter notCall } }) s

/-- An inauguration frame processed: of another epoch in RUN it is a coupling (05 R229); in INAUG its messages count. -/
def inaugFrame (c : CopyWait) (s : State) : State :=
  let h := c.frame.hdr
  let s := firstValid c.lane s
  match s.dev.st with
  | .run => if h.epoch = s.trn.epoch then s else causeFound 0 s
  | .inaug => takeMsgs c.lane h (c.frame.msgs.filter notCall) s
  | _ => s

/-- One copy is chosen, and the frame is processed once (03 R166). -/
def decideOn (c : CopyWait) (s : State) : State :=
  let k := copyKey c.frame.hdr
  let s := { s with lan := { s.lan with
    decided := s.lan.decided ++ [(k, s.tm.rows)], copies := s.lan.copies.filter (fun d => copyKey d.frame.hdr != k)
    invalid := s.lan.invalid.filter (·.1 != k) } }
  if c.kind = 0 then patternFrame c s else inaugFrame c s

/-- Copy on the lower lane. -/
def lowerCopy (a : Option CopyWait) (c : CopyWait) : Option CopyWait :=
  match a with
  | none => some c
  | some b => if laneIx c.lane < laneIx b.lane then some c else some b

/-- The valid copies of one frame. -/
def copiesOf (s : State) (k : Nat) : List CopyWait := s.lan.copies.filter fun c => copyKey c.frame.hdr == k

/-- A frame is decided when the copy of its lowest lane that has not failed has ended valid (03 R166). -/
def tryDecide (h : FrameHdr) (s : State) : State :=
  match (copiesOf s (copyKey h)).foldl lowerCopy none with
  | none => s
  | some c => if (lowestLane s h).all (fun l => laneIx c.lane ≤ l) then decideOn c s else s

/-- A valid copy of an unsequenced frame. -/
def takeCopy (c : CopyWait) (odd : Bool) (s : State) : State :=
  let k := copyKey c.frame.hdr
  if s.lan.decided.any (·.1 == k) then s
  else
    let s := if odd && (copiesOf s k).isEmpty then unknownType c.lane c.side s else s
    tryDecide c.frame.hdr { s with lan := { s.lan with copies := s.lan.copies ++ [c] } }

/-- A copy of an unsequenced frame that ended invalid: the node passes to the next lane (03 R166). -/
def badCopy (l : LaneId) (h : FrameHdr) (s : State) : State :=
  let k := copyKey h
  if s.lan.decided.any (·.1 == k) then s
  else tryDecide h { s with lan := { s.lan with invalid := s.lan.invalid ++ [(k, laneIx l, s.tm.rows)] } }

/-- LANE_COPY_TIMEOUT: LAN_REORD_TMO after the first valid copy, the copy of the lowest lane that is valid is taken (03 R166). -/
def execLaneCopyTimeout (kind stitch : Nat) (s : State) : Out3 :=
  .next (match (s.lan.copies.filter fun c => c.kind == kind && c.stitch == stitch).head? with
    | none => s
    | some f => match (copiesOf s (copyKey f.frame.hdr)).foldl lowerCopy none with
      | some c => decideOn c s
      | none => s)

/-- What the model keeps of decided and failed copies at a row start: those of the last two rows. -/
def oldCopies (s : State) : State :=
  { s with lan := { s.lan with
    decided := s.lan.decided.filter fun e => s.tm.rows ≤ e.2 + 2
    invalid := s.lan.invalid.filter fun e => s.tm.rows ≤ e.2.2 + 2 } }

/-! ### Ranging frames (03 R172; 05 R241) -/

/-- The waves of a ranging frame. -/
def wavesOf (ms : List Msg) : List DiscMsg := ms.filterMap fun m => match m with
  | .disc d => some d
  | _ => none

/-- A valid ranging frame: its waves, its RANGE, then a CALL. -/
def takeRanging (l : LaneId) (sd : Side) (f : Frame) (stamp : Nat) (s : State) : State :=
  let ws := wavesOf f.msgs
  let s := if ws.isEmpty then s else after (execDisc l sd ws s) s
  let s := match f.msgs with
    | .range m :: _ => if ranges s l then takeRange l sd m stamp s else s
    | _ => s
  takeMsgs l f.hdr (f.msgs.drop 1) s

/-- A node in INAUG ends the ranging frame that it forwards for one that fails its checks with an inverted FCS (05 R241, 03 R147); the
side still sends at its fallback instant. -/
def badRanging (l : LaneId) (sd : Side) (s : State) : State :=
  let o := other sd
  if s.dev.st = .inaug ∧ (laneAt s l).ranging ∧ !(sideOf s l o).sent ∧ sideOpen s l o 2 then
    let st := rangingStitch s l
    let bytes := frameBytes s l o (ownHdr s 2 3 st.1 st.2) [.range (rangeMsg s l o false)]
    modSide l o (fun x => { x with busyTill := s.tm.clk + wireUnits s l bytes.length, busyOwn := true })
      { s with out := .repeated l o bytes false :: s.out }
  else s

/-! ### ADEZO_FRAME_RECEIVE (03 R148) -/

/-- The side takes frames in. -/
def rxOpen (s : State) (l : LaneId) (sd : Side) : Bool :=
  (laneAt s l).byp && laneEn s (laneIx l) && !s.dev.rgDown && ((sideOf s l sd).link == .up || (sideOf s l sd).link == .gated)

/-- A frame whose checks passed, by its KIND. A gated side takes ranging and inauguration frames only (03 R186). -/
def takeFrame (l : LaneId) (sd : Side) (f : Frame) (odd : Bool) (len : Nat) (s : State) : State :=
  let stamp := s.tm.clk - wireUnits s l len
  let gate := (sideOf s l sd).link == .gated
  match f.hdr.kind with
  | 2 => takeRanging l sd f stamp (if odd then unknownType l sd s else s)
  | 1 =>
    if gate then s
    else if !ownEpoch s f.hdr then laneCount l 6 1 s
    else if f.hdr.cls = 3 then unknownType l sd s
    else sequence l sd f odd s
  | k => if gate && k == 0 then s else takeCopy { kind := k, stitch := f.hdr.stitch, lane := l, side := sd, stamp := stamp, frame := f } odd s

/-- A frame that failed its FCS or its end-to-end CRC is discarded whole (03 R148, R166). -/
def badFrame (l : LaneId) (sd : Side) (h : FrameHdr) (s : State) : State :=
  match h.kind with
  | 2 => badRanging l sd s
  | 1 => s
  | _ => badCopy l h s

/-- A frame ends at the repeat point (03 R148). -/
def receive (f : RawFrame) (s : State) : State :=
  if !rxOpen s f.lane f.side ∨ !isAdezo s f.lane f.bytes then s
  else
    let r := readFrame f.bytes
    if !f.fcsOk then badFrame f.lane f.side r.1.hdr (laneCount f.lane 1 1 s)
    else if !crcOk (f.bytes.drop 14) then badFrame f.lane f.side r.1.hdr (laneCount f.lane 2 1 s)
    else takeFrame f.lane f.side r.1 r.2 f.bytes.length (lanePerf f.lane 1 1 (laneCount f.lane 0 1 s))

/-- ADEZO_FRAME_RECEIVE. -/
def execAdezoFrameReceive (f : RawFrame) (s : State) : Out3 := .next (receive f s)

/-! ### Repeating (03 R147, R149–R153, R81) -/

/-- The lane repeats from side `sd` to the other: both sides UP, no maintenance (03 R151, R186, R191, R721). -/
def repeats (s : State) (l : LaneId) (sd : Side) : Bool :=
  rxOpen s l sd && (sideOf s l sd).link == .up && (sideOf s l (other sd)).link == .up && !laneMaint s l

/-- A frame repeated with an inverted FCS is counted in REP_STOMP, and LANE_STOMP raised (03 R147). -/
def stomped (l : LaneId) (o : Side) (ok : Bool) (s : State) : State :=
  if ok then s else raiseLane 3 (laneIx l) (sideIx o) 7 (laneCount l 7 1 s)

/-- A repeated frame leaves on side `o`: with an inverted FCS where the incoming one failed (03 R147). -/
def sendRepeated (l : LaneId) (o : Side) (bytes : List Byte) (ok : Bool) (s : State) : State :=
  let s := modSide l o (fun x => { x with busyTill := s.tm.clk + wireUnits s l bytes.length, busyOwn := false, busyHeld := false })
    { s with out := .repeated l o bytes ok :: s.out }
  stomped l o ok (lanePerf l 7 1 s)

/-- The node has sent its own pattern frame in the present stitch (02 R81). -/
def inOwnPattern (s : State) : Bool :=
  (rowStitches s).any fun e =>
    let x := (rowPhase s).toNat / 256 % rowPu (nrowCode s)
    e.2.stype == 0 && s.lan.launched.contains e.1 && decide (e.2.start ≤ x ∧ x < e.2.stop)

/-- The elastic buffer of a side is occupied: a frame waits in it or leaves from it (03 R153). -/
def elasticFull (s : State) (x : SideSt) : Bool := x.elastic.isSome || (x.busyHeld && decide (s.tm.clk < x.busyTill))

/-- A frame on its way to the other side meets the output: it waits in the elastic buffer while the node's own frame leaves, is not repeated
where the buffer is occupied or it is a pattern frame that would wait, and else goes out by `send` (03 R152, R153). -/
def passOn (f : RawFrame) (pattern : Bool) (send : State → State) (s : State) : State :=
  let o := other f.side
  let x := sideOf s f.lane o
  let own := x.busyOwn && decide (s.tm.clk < x.busyTill)
  if elasticFull s x ∨ own ∧ pattern then raiseLane 4 (laneIx f.lane) (sideIx o) 9 (laneCount f.lane 9 1 s)
  else if own then modSide f.lane o (fun x => { x with elastic := some (f.bytes, f.fcsOk) }) s
  else send s

/-- An Adezo frame on its way to the other side (03 R150, R152, R153; 02 R81). -/
def repeatAdezo (f : RawFrame) (s : State) : State :=
  let k := kindOf f.bytes
  if k = 2 ∨ k = 0 ∧ inOwnPattern s then s
  else passOn f (k == 0) (sendRepeated f.lane (other f.side) f.bytes f.fcsOk) s

/-! ### Foreign frames (03 R150, R180–R182) -/

/-- Clock units left from clock value `t` to the end of the present row's foreign window, which runs from FWIN to GUARD; none outside the
window. Pattern I has no foreign window (04 R210). -/
def windowLeft (s : State) (l : LaneId) (t : Nat) : Option Nat :=
  if s.pat.cur = 4 ∨ !(laneAt s l).fwin then none
  else match basePrick s with
    | none => none
    | some p =>
      let x := (rowAtClk s t).toNat / 256 % rowPu p.nrow
      if p.fwin ≤ x ∧ x < p.guardAt then some ((p.guardAt - x) * (2 * s.tm.period) / 2 ^ 24) else none

/-- A foreign frame may start at clock value `t`: no later than the last start (03 R181). -/
def mayStart (s : State) (l : LaneId) (t : Nat) : Bool := (windowLeft s l t).any fun r => decide (1538 * byteUnits s l ≤ r)

/-- Frames of up to 1522 bytes with their FCS are forwarded (03 R182). -/
def foreignFits (bytes : List Byte) : Bool := decide (bytes.length ≤ 1518)

/-- A foreign frame leaves on side `o` at clock value `t`: with an inverted FCS where the incoming one failed (03 R147). -/
def sendForeign (l : LaneId) (o : Side) (bytes : List Byte) (ok : Bool) (t : Nat) (s : State) : State :=
  let s := modSide l o (fun x => { x with busyTill := t + wireUnits s l bytes.length, busyOwn := false, busyHeld := false })
    { s with out := .foreign l o bytes ok :: s.out }
  stomped l o ok (laneCount l 11 1 s)

/-- A foreign frame not passed on. -/
def dropForeign (l : LaneId) (s : State) : State := laneCount l 12 1 s

/-- A foreign frame on its way through a repeater (03 R150, R152, R153, R181, R182). -/
def repeatForeign (f : RawFrame) (s : State) : State :=
  if mayStart s f.lane s.tm.clk ∧ foreignFits f.bytes then passOn f false (sendForeign f.lane (other f.side) f.bytes f.fcsOk s.tm.clk) s
  else dropForeign f.lane s

/-- The frame that leaves the elastic buffer holds its side, and is counted (03 R152, R153). -/
def heldOut (l : LaneId) (sd : Side) (s : State) : State :=
  lanePerf l 8 1 (laneCount l 8 1 (modSide l sd (fun x => { x with busyHeld := true }) s))

/-- The frame that left the elastic buffer, on the wire: a foreign one may start only in the foreign window (03 R150, R181). -/
def sendHeld (l : LaneId) (sd : Side) (bytes : List Byte) (ok : Bool) (s : State) : State :=
  if isAdezo s l bytes then heldOut l sd (sendRepeated l sd bytes ok s)
  else if mayStart s l s.tm.clk then heldOut l sd (sendForeign l sd bytes ok s.tm.clk s)
  else dropForeign l s

/-- FRAME_REPEAT: REP_NOM after the SFD arrival (03 R149, R150). A side without an Adezo peer takes foreign frames into its entry FIFO
instead (03 R180). -/
def execFrameRepeat (f : RawFrame) (s : State) : Out3 :=
  .next (
    if !repeats s f.lane f.side ∨ isMacControl f.bytes then s
    else if isAdezo s f.lane f.bytes then repeatAdezo f s
    else if (sideOf s f.lane f.side).noPeer then s
    else repeatForeign f s)

/-- HELD_REPEAT_SEND: 96 bit times after the own frame has ended (03 R152). On a lane in maintenance nothing is repeated (R191). -/
def execHeldRepeatSend (l : LaneId) (sd : Side) (s : State) : Out3 :=
  .next (match (sideOf s l sd).elastic with
    | none => s
    | some (bytes, ok) =>
      if s.tm.clk < (sideOf s l sd).busyTill + 12 * byteUnits s l then s
      else
        let s := modSide l sd (fun x => { x with elastic := none }) s
        if laneMaint s l then s
        else sendHeld l sd bytes ok s)

/-- The frames that wait at an end port are sent into the lane while they may start, on a lane that is not in maintenance (03 R191), each 96
bit times after the one before. The fuel is their number. -/
def release (l : LaneId) (sd : Side) : Nat → State → State
  | 0, s => s
  | n + 1, s =>
    let o := other sd
    match (sideOf s l sd).entry with
    | [] => s
    | b :: rest =>
      let t := max s.tm.clk ((sideOf s l o).busyTill + (if (sideOf s l o).busyTill ≤ s.tm.clk then 0 else 12 * byteUnits s l))
      if mayStart s l t && (sideOf s l o).link == .up && !laneMaint s l then
        release l sd n (sendForeign l o b true t (modSide l sd (fun x => { x with entry := rest }) s))
      else s

/-- The side is an end port: link up, no Adezo peer (03 R180). -/
def endPort (s : State) (l : LaneId) (sd : Side) : Bool := rxOpen s l sd && (sideOf s l sd).link == .up && (sideOf s l sd).noPeer

/-- FOREIGN_FRAME_RECEIVE at an end port: the entry FIFO takes 4 frames and 6 KiB (03 R180); a longer frame is not forwarded (R182). -/
def execForeignFrameReceive (l : LaneId) (sd : Side) (bytes : List Byte) (s : State) : Out3 :=
  .next (
    if !endPort s l sd ∨ isAdezo s l bytes ∨ isMacControl bytes then s
    else
      let s := modSide l sd (fun x => { x with fport := true }) s
      let e := (sideOf s l sd).entry
      if !foreignFits bytes ∨ 4 ≤ e.length ∨ 6144 < (e.map List.length).foldl (· + ·) bytes.length then dropForeign l s
      else release l sd 4 (modSide l sd (fun x => { x with entry := e ++ [bytes] }) s))

/-- FOREIGN_WINDOW_START: held frames are released into the lane (03 R180, R181). Pattern I has no foreign window (04 R210). -/
def execForeignWindowStart (l : LaneId) (s : State) : Out3 :=
  .next (
    if s.pat.cur = 4 ∨ laneMaint s l then s
    else
      let s := modLane l (fun x => { x with fwin := true }) s
      each [Side.e1, Side.e2] (fun s sd => if endPort s l sd then release l sd 4 s else s) s)

/-- MAC_CONTROL_FRAME is neither acted on, repeated nor counted (03 R132). -/
def execMacControlFrame (l : LaneId) (sd : Side) (s : State) : Out3 :=
  let _ := (l, sd)
  .next s

end Sys2Proof.Machine
end

