-- ==== Sys2Proof/Machine/Picot.lean ====
section
/-! DEFINITION. Picot channels: arming, cancelling, edges and captures, and what a hoop boundary of a timebase does to them
(02 R101–R117; 10 R535, R536). -/

namespace Sys2Proof.Machine

/-! ### Arming and cancelling -/

/-- The parameters of a PICOT_ARM (10 R535). A CAPTURE channel has no A, B or C, and they read 0; so does C of PULSE and WINDOW (DESIGN
CHOICE, log 123). -/
def armPar (j : Job) : PicotPar :=
  let f := argB j 2
  let cap := argB j 1 == 4
  { mode := argB j 1, tb := bitOf f 0, pol := bitOf f 1, wunit := bitOf f 2, nowrap := bitOf f 3, onloss := bitOf f 4
    edges := if cap then argB j 3 % 4 else 0, capev := bitOf f 5, tphs := bitOf f 6
    a := if cap then 0 else word (argN j 4 4), b := if cap then 0 else word (argN j 8 4)
    c := if argB j 1 = 3 then word (argN j 12 4) else 0 }

/-- PICOT_ARM: the parameters wait for their hoop boundary (02 R109). A later arming of the channel takes the place of one still
waiting, whose command completes with ABORTED (DESIGN CHOICE, log 53). -/
def execPicotArm (b : Nat) (s : State) : Out3 :=
  match readyJob s b 0x32 with
  | none => .next s
  | some v =>
    let n := argB v.job 0
    let arm := (b, armPar v.job, word (argN v.job 16 4), v.accClk)
    let s := match (chOf s n).arm with
      | some a => if a.1 = b then s else jobFail a.1 stAborted s
      | none => s
    .next (waitAs b .commit (modCh n (fun c => { c with arm := some arm }) s))

/-- A cancel takes effect: the channel is off, and its output goes to its inactive level and stays there; a capture channel keeps its FIFO
(02 R111). A cancel of the channel that still waited is done with it (log 53). -/
def cancelNow (n b : Nat) (h : Word) (s : State) : State :=
  let s := match (chOf s n).cancel with
    | some k => if k = b then s else jobDone k h.toNat 0 none s
    | none => s
  jobDone b h.toNat 0 none (modCh n (fun c => { c with
    par := { c.par with mode := 0 }, active := false, oldPulse := false, oldPar := none, cancel := none, parked := false
    ended := outMode c.par || c.ended }) s)

/-- PICOT_CANCEL: with NOW at once, else at the next hoop boundary (02 R111). An arming of the channel that waits for a later boundary is not
cancelled by it (DESIGN CHOICE, log 124). -/
def execPicotCancel (b : Nat) (s : State) : Out3 :=
  match readyJob s b 0x33 with
  | none => .next s
  | some v =>
    let n := argB v.job 0
    if s.dbg.halted then .next s
    else if bitOf (argB v.job 1) 0 then .next (cancelNow n b (hoopOf s (chOf s n).par.tb) s)
    else
      let s := match (chOf s n).cancel with
        | some k => if k = b then s else jobDone k (hoopOf s (chOf s n).par.tb).toNat 0 none s
        | none => s
      .next (waitAs b .commit (modCh n (fun c => { c with cancel := some b }) s))

/-! ### The hoop boundary of a timebase (02 R109–R112, R117) -/

/-- An arming takes effect at the boundary that begins hoop `h`. -/
def armNow (n : Nat) (a : Nat × PicotPar × Word × Nat) (h : Word) (s : State) : State :=
  let c := chOf s n
  let old := if outMode c.par && !c.parked then activeLead s c.par (c.par.tb == a.2.1.tb) else none
  let lost := s.tm.tstate == .free || s.tm.tstate == .acquire
  let s := modCh n (fun c => { c with
    par := a.2.1, armHoop := h, arm := none, oldPulse := old.isSome, oldPar := old.map fun _ => c.par
    oldHoop := (old.map (·.1)).getD 0, oldLead := (old.map (·.2)).getD 0, parked := lost && !a.2.1.onloss, ended := false }) s
  jobDone a.1 h.toNat 0 none s

/-- Does a pending arming take effect at the boundary that begins hoop `h` of timebase `row`? -/
def armDue (s : State) (row : Bool) (h : Word) (a : Nat × PicotPar × Word × Nat) : Bool :=
  a.2.1.tb == row && (if a.2.2.1 = 0 then decide (16000 ≤ s.tm.clk - a.2.2.2) else begun h a.2.2.1)

/-- Channel `n` at the boundary that begins hoop `h` of timebase `row`. While the sequencer is halted armings and cancels wait
(02 R122). A parked output resumes at the first boundary after SYNC was reached, also where HOLDOVER has followed it (02 R117). Of a cancel
and an arming due at one boundary the cancel comes first (DESIGN CHOICE, log 124). -/
def picChannel (row : Bool) (h : Word) (n : Nat) (s : State) : State :=
  let c := chOf s n
  let s := if c.par.tb == row && c.parked && (s.tm.tstate == .sync || s.tm.tstate == .holdover) then modCh n (fun c => { c with parked := false }) s else s
  let s := match c.cancel with
    | some b => if c.par.tb == row && !s.dbg.halted then cancelNow n b h s else s
    | none => s
  let s := match (chOf s n).arm with
    | some a => if armDue s row h a && !s.dbg.halted then armNow n a h s else s
    | none => s
  let c := chOf s n
  if c.par.tb != row then s
  else
    let s := if c.armHoop ≠ h ∧ c.oldPulse ∧ (oldTail s c).isNone then modCh n (fun c => { c with oldPulse := false, oldPar := none }) s else s
    let s := if emptyWindow s c.par && picRuns s && !c.parked then
        raise 448 (detN n 0) (modCh n (fun c => { c with empty := true }) s) else s
    modCh n (fun c => { c with active := prescribed s c }) s

/-- Every channel of a timebase at its hoop boundary. -/
def picBoundary (row : Bool) (h : Word) (s : State) : State :=
  each (s.pic.map (·.1)) (fun s n => picChannel row h n s) s

/-- PICOT_OUTPUT_EDGE: the output takes the level of the present phase (02 R103, R104). -/
def execPicotOutputEdge (ch : Nat) (s : State) : Out3 :=
  .next (if ch < 24 ∧ outMode (chOf s ch).par then modCh ch (fun c => { c with active := prescribed s c }) s else s)

/-- TRUE_HOOP_BOUNDARY: the true phase passes 0 (02 R53): the counter, the channels of the true timebase, the tenant phase input's
hoops (R66). -/
def execTrueHoopBoundary (s : State) : Out3 :=
  .next (s |> instant fun s =>
    let h := s.tm.thoop + 1
    let s := anchorTrue 0 { s with tm := { s.tm with thoop := h } }
    masterSource (phaseWaiters (picBoundary false h (tenHoop s))))

/-! ### Captures (02 R106–R108, R114, R115) -/

/-- The channel's timebase follows the virtual hoop: the rows while they are not locked to the mains (02 R55), the true phase while VIRT is
set (R118). -/
def onVirtual (s : State) (row : Bool) : Bool := if row then !s.tm.locked else s.tm.virt

/-- The record of an edge now: the phase at the start of its quantum (02 R106). -/
def capRecord (s : State) (p : PicotPar) (rising ord : Bool) : CapRec :=
  let ph := if p.tb then rowPhase s else truePhase s
  let whole : Phase := BitVec.ofNat 32 (ph.toNat / 256 * 256)
  { phase := if 167772160 < tbPeriod s p.tb then whole else ph, hoop := hoopOf s p.tb, pol := rising, ord := ord
    virt := onVirtual s p.tb, tb := p.tb }

/-- DETAIL of a capture record (09 R470). -/
def capDetail (n : Nat) (r : CapRec) : List Byte :=
  leBytes 4 r.phase.toNat ++ leBytes 4 r.hoop.toNat ++ leBytes 1 (flagAt r.pol 0 + flagAt r.ord 1 + flagAt r.virt 2 + flagAt r.tb 3)
    ++ leBytes 1 n ++ leBytes 6 0

/-- Function in force of pin `k` (14 R678); GP pins are parked and CAN pins on their port at reset. -/
def pinFunc (s : State) (k : Nat) : Nat := (tgetD s.dev.pins k (if k < 24 then (0, false, 1, false) else (1, true, 1, false))).1

/-- Pin `k` is parked for a switch (14 R680). -/
def pinParked (s : State) (k : Nat) : Bool :=
  match tget s.dev.switching k with
  | some x => decide (x.left ≤ 2)
  | none => false

/-- An edge on a capture channel. Records that the FIFO holds when CAPEV becomes 1 stay there until they are popped (DESIGN CHOICE,
log 125). -/
def capture (n : Nat) (rising ord : Bool) (s : State) : State :=
  let c := chOf s n
  let s := if c.par.tphs && rfld s 0x2060 3 5 == n then { s with zx := { s.zx with strobe := some (s.tm.clk, s.tm.thoop) } } else s
  let r := capRecord s c.par rising ord
  if c.par.capev then raiseTo (rfld s (0x3000 + 4 * (n / 8)) (4 * (n % 8)) 3) 451 (capDetail n r) s
  else if 16 ≤ c.fifo.length then raise 449 (detN n 0) (modCh n (fun c => { c with ovf := true }) s)
  else raiseNoRec 451 (modCh n (fun c => { c with fifo := c.fifo ++ [r] }) s)

/-- PICOT_CAPTURE: a selected edge of a channel in CAPTURE whose pin has the picot function. -/
def execPicotCapture (ch : Nat) (rising ord : Bool) (s : State) : Out3 :=
  let p := (chOf s ch).par
  .next (if ch < 24 ∧ p.mode = 4 ∧ bitOf p.edges (if rising then 0 else 1) ∧ pinFunc s ch = 1 ∧ !pinParked s ch ∧ s.dev.st ≠ .off
    then capture ch rising ord s else s)

/-- Bit 0 of PIC_CAP_POP removes the head record (02 R108, R124). -/
def capPop (ch : Nat) (s : State) : State := modCh ch (fun c => { c with fifo := c.fifo.drop 1 }) s

/-- PIC_CAP_POP. -/
def execPicCapPop (ch : Nat) (v : Word) (s : State) : Out3 :=
  .next (if ch < 24 ∧ v.getLsbD 0 then gatedWrite (0x3100 + 0x20 * ch) (capPop ch) s else s)

end Sys2Proof.Machine
end

