-- ==== Sys2Proof/Machine/Stores.lean ====
section
/-! DEFINITION. Errors and draining of the copy cache, and the scrubbing of the copy cache, the home store and the sharer filter
(08 R396–R410, R426). -/

namespace Sys2Proof.Machine

/-! ### Way-quadrants (08 R398–R402) -/

/-- A way-quadrant changed. -/
def modWq (i : Nat) (f : WayQ → WayQ) (s : State) : State := { s with cc := { s.cc with wqs := tset s.cc.wqs i (f (wq s i)) } }

/-- Keys of the ways of way-quadrant `i` (way × 4 + quadrant): 256 sets. -/
def wqKeys (i : Nat) : List Nat := (List.range 256).map fun n => 16 * (256 * (i % 4) + n) + i / 4

/-- Index of the region whose pin this is, or that covers its line. -/
def pinRgn (s : State) (p : Pin) : Nat :=
  match p.rgn with
  | some i => i
  | none => match regionAt s p.la with
    | some e => e.1
    | none => 0

/-- Pins of set `set` in force or demoted. -/
def setPins (s : State) (set : Nat) (demoted : Bool) : List Pin := s.cc.pins.filter fun p => setOf p.la == set && p.demoted == demoted

/-- Order of pins: region index, then line address (08 R400). -/
def pinKey (s : State) (p : Pin) : Nat := pinRgn s p * 2 ^ 24 + p.la

/-- The pin of a list with the greatest or the least key. -/
def pickPin (s : State) (most : Bool) (l : List Pin) : Option Pin :=
  l.foldl (fun a p => match a with
    | none => some p
    | some q => if (if most then pinKey s q < pinKey s p else pinKey s p < pinKey s q) then some p else some q) none

/-- A pin's demotion mark set. -/
def markPin (p : Pin) (d : Bool) (s : State) : State :=
  { s with cc := { s.cc with pins := s.cc.pins.map fun q => if q = p then { q with demoted := d } else q } }

/-- Reservations of one set demoted until they fit its limit (08 R400). The fuel is the number of pins. -/
def demoteSet (set : Nat) : Nat → State → State
  | 0, s => s
  | f + 1, s =>
    if pinsIn s set ≤ pinLimit s set then s
    else match pickPin s true (setPins s set false) with
      | none => s
      | some p => demoteSet set f (raise 131 (detLA p.la) (count 0x8890 1 (markPin p true s)))

/-- Demoted reservations of one set promoted while they fit (08 R400). -/
def promoteSet (set : Nat) : Nat → State → State
  | 0, s => s
  | f + 1, s =>
    if pinLimit s set ≤ pinsIn s set then s
    else match pickPin s false (setPins s set true) with
      | none => s
      | some p => promoteSet set f (raise 132 (detLA p.la) (markPin p false s))

/-- Sets of quadrant `q` that hold pins. -/
def pinSets (s : State) (q : Nat) : List Nat := ((s.cc.pins.map fun p => setOf p.la).filter fun x => x / 256 == q).dedup

/-- Every set of the quadrant refitted after a way left or returned. -/
def refitPins (q : Nat) (down : Bool) (s : State) : State :=
  each (pinSets s q) (fun s set => if down then demoteSet set s.cc.pins.length s else promoteSet set s.cc.pins.length s) s

/-- A way-quadrant enters DRAIN: the pins are refitted, and its entries walked (08 R400, R401). -/
def enterDrain (i : Nat) (auto : Bool) (s : State) : State :=
  let s := modWq i (fun w => { w with st := .drain, auto := auto }) s
  each (wqKeys i) (fun s k => drainEntry k s) (refitPins (i % 4) true s)

/-- DRAIN written for way `way` of quadrant `q`: one that would leave fewer than 4 ways ON changes nothing, with a clamp-log record
(08 R399). A way already draining or OFF stays so. -/
def drainWay (cause : ClampBy) (q way : Nat) (s : State) : State :=
  let i := way * 4 + q
  if (wq s i).st != .on then s
  else if onWays s q ≤ 4 then logClamps cause (0x8810 + 4 * q) [{ lo := 2 * way, w := 2, written := 1, stored := 0 }] s
  else enterDrain i false s

/-- ON written: a drain is cancelled, an OFF way-quadrant restarts with every entry in I; pins are promoted (08 R399, R400). -/
def onWay (q way : Nat) (s : State) : State :=
  let i := way * 4 + q
  if (wq s i).st == .on then s else refitPins q false (modWq i (fun w => { w with st := .on, auto := false }) s)

/-- Code of a way-quadrant in COH_CC_WAYCTLq (08 R426). -/
def wayCode (w : WayQ) : Nat :=
  match w.st with
  | .on => 0
  | .drain => 1
  | .offSteward => 2
  | .offAuto => 3

/-- COH_CC_WAYCTLq. -/
def wayCtl (s : State) (q : Nat) : Nat := (List.range 16).foldl (fun v w => v + wayCode (wq s (w * 4 + q)) * 4 ^ w) 0

/-- A write of COH_CC_WAYCTLq: two bits per way, 2 and 3 clamped to 1 (08 R426). -/
def wayCtlWrite (cause : ClampBy) (q v : Nat) (s : State) : State :=
  each (List.range 16) (fun s w =>
    let x := bitsOf v (2 * w) 2
    let s := if 2 ≤ x then logClamps cause (0x8810 + 4 * q) [{ lo := 2 * w, w := 2, written := x, stored := 1 }] s else s
    if x = 0 then onWay q w s else drainWay cause q w s) s

/-- WAYCTL_DRAIN: one way's field written 1. -/
def execWayctlDrain (q way : Nat) (s : State) : Out3 :=
  .next (if q < 4 ∧ way < 16 ∧ reachable s then drainWay { kind := 0 } q way s else s)

/-- WAYCTL_ON: one way's field written 0. -/
def execWayctlOn (q way : Nat) (s : State) : Out3 := .next (if q < 4 ∧ way < 16 ∧ reachable s then onWay q way s else s)

/-- CC_WAY_OFF: the entries that could not be emptied before are tried again; with every entry in I the way-quadrant is OFF
(08 R402). -/
def wayOff (q way : Nat) : State → State := instant fun s =>
  let i := way * 4 + q
  if (wq s i).st != .drain then s
  else
    let s := each (wqKeys i) (fun s k => drainEntry k s) s
    if s.cc.ways.any fun e => e.1 % 16 == way && e.1 / 4096 == q then s
    else
      raise 133 (detN i 0) (count 0x8894 1 (modWq i (fun w => { w with st := if w.auto then .offAuto else .offSteward }) s))

def execCcWayOff (q way : Nat) (s : State) : Out3 := .next (if q < 4 ∧ way < 16 then wayOff q way s else s)

/-- CC_WINDOW_END: every count in the window clears (08 R398). -/
def execCcWindowEnd (s : State) : Out3 :=
  .next { s with cc := { s.cc with wqs := s.cc.wqs.map fun e => (e.1, { e.2 with win := 0 }) } }

/-- One error counted against a way-quadrant; the reaction as its count passes THRESH (08 R396, R398; DEDUCED: once per window,
log 76). -/
def wqError (i : Nat) (s : State) : State :=
  let w := wq s i
  let thr := rfld s 0x8800 8 8
  let s := modWq i (fun w => { w with win := min 0xFFFF (w.win + 1), total := min 0xFFFF (w.total + 1) }) s
  if w.win ≤ thr ∧ thr < w.win + 1 then
    let s := raise 130 (detN i 0) s
    if !rbit s 0x8800 0 && w.st == .on && decide (8 < onWays s (i % 4)) then enterDrain i true s else s
  else s

/-! ### Errors of the copy cache (08 R396, R397, R426) -/

/-- COH_CC_LASTERR. -/
def lastErr (k la kind : Nat) (s : State) : State :=
  { s with cc := { s.cc with lastErr := word (la % 2 ^ 24 + k % 16 * 2 ^ 24 + kind * 2 ^ 28) } }

/-- A P copy lost to an error is fetched again: it stands in IP until the value comes (08 R397). -/
def refetch (k : Nat) (c : Copy) (s : State) : State :=
  match freeIntern s with
  | none => dropWay k s
  | some b =>
    let s := (sendOwn 0 0x15 c.la .c1 { typ := .subReq, flg := 1 } s).1
    setCopy k { la := c.la, st := .ip, bob := some b } s

/-- A copy whose data is lost, by its state (08 R397). A transient copy stands: its transaction gives it its contents (DESIGN CHOICE,
log 77). -/
def copyLost (k : Nat) (c : Copy) (s : State) : State :=
  if c.held.isSome then dropWay k s
  else match c.st with
    | .s | .e => dropWay k s
    | .p => refetch k c s
    | .m =>
      let s := { s with cc := { s.cc with lostM := c.la :: s.cc.lostM } }
      let b := freeIntern s
      let r := sendOwn 0 0x11 c.la .c1 { typ := .evictClean } s
      raise 134 (detLA c.la) (match b, r.2 with
        | some b, true => setCopy k { c with st := .ci, back := .m, bob := some b, recalled := none, again := none } (perf 22 none r.1)
        | _, _ => dropWay k s)
    | _ => s

/-- What the scrub of a way found. -/
def ccFound (k : Nat) (r : ScrubFind) (s : State) : State :=
  let i := wqOf (k / 16) (k % 16)
  let c := tget s.cc.ways k
  let la := (c.map (·.la)).getD 0
  match r with
  | .clean => s
  | .correctable => wqError i (perf 145 none (count 0x8880 1 (lastErr k la 0 s)))
  | .tagError =>
    let s := wqError i (count 0x8888 1 (lastErr k la 2 s))
    match tget s.cc.ways k with
    | none => s
    | some c => if c.bob.isSome then s else copyLost k c s
  | _ =>
    let s := count 0x8884 1 (lastErr k la 1 s)
    match c with
    | none => s
    | some c => copyLost k c s

/-! ### Errors of the home store (08 R404, R405) -/

/-- Line `la` is homed here, and lies in the store. -/
def homeHas (s : State) (la : Nat) : Bool := homedHere s la && decide (laLx la < homeLines (laHk la))

/-- A home line whose data, or both metadata copies, are lost (08 R405). -/
def homeLost (la : Nat) (noMeta : Bool) (s : State) : State :=
  let s := raise 135 (detLA la) (count 0x889C 1 s)
  let mark := fun (s : State) => setLine la { homeLine s la with errData := true, metaLost := noMeta } s
  match fEntry s la with
  | some e =>
    if e.st = .ex ∧ e.vec ≠ 0 then (ownProbe la .restore true true false e.vec s).1
    else if noMeta ∧ e.vec ≠ 0 then (ownProbe la .purge false false (e.st == .pub) e.vec (mark s)).1
    else mark s
  | none => mark s

/-- What the scrub of a home line found. One bad metadata copy is rewritten from the other (08 R404). -/
def hsFound (x : Nat) (r : ScrubFind) (s : State) : State :=
  let la := laOf s.kee.hk x
  match r with
  | .clean | .tagError => s
  | .correctable => perf 145 none (count 0x8898 1 s)
  | .uncorrectable => if homeHas s la then homeLost la false s else count 0x889C 1 s
  | .metaBoth => if homeHas s la then homeLost la true s else count 0x889C 1 s

/-! ### Errors of the sharer filter (08 R407, R408) -/

/-- Every other node of the epoch. -/
def otherNodes (s : State) : Sharers := BitVec.ofNat 62 (2 ^ s.trn.nnodes - 1) &&& ~~~(nodeBit s.trn.node)

/-- A line that the filter has forgotten is recovered (08 R408); with no other node it is U, or anchored anew, at once. -/
def recoverLine (la : Nat) (s : State) : State :=
  let claim : Bool := match regionAt s la with
    | some e => e.2.claim
    | none => false
  if isBusy s la then s
  else
    let r := ownProbe la .filter false false (!claim) (otherNodes s) s
    if otherNodes s ≠ 0 then r.1
    else match r.1.home.trks.head? with
      | some t => if r.2 then probesIn { t with isRecall := true } r.1 else s
      | none => s

/-- What the scrub of a filter entry found: with an uncorrectable entry, every line of its set that no other entry covers is
recovered. -/
def filtFound (p : Nat) (r : ScrubFind) (s : State) : State :=
  let set := p / 12
  match r with
  | .clean => s
  | .correctable => perf 145 none (count 0x88A0 1 s)
  | _ =>
    let s := raise 137 (detN set 0) (count 0x88A4 1 s)
    let s := match (fSet s set)[p % 12]? with
      | some e => { s with home := { s.home with filter := tdel s.home.filter e.1 } }
      | none => s
    let las := ((List.range 16).map fun i => laOf s.kee.hk (set + 1024 * i)).filter fun la => homeHas s la && (fEntry s la).isNone
    each las (fun s la => recoverLine la s) s

/-! ### Scrub steps (08 R410) -/

/-- Scrubbing runs: from STANDBY until memory BIST begins. -/
def scrubs (s : State) : Bool :=
  powered s && (match s.int.shut with
    | .memory | .record | .off => false
    | _ => true)

/-- The filter entry at position `p` has its line BUSY, and the scrub yields. -/
def scrubBusy (s : State) (p : Nat) : Bool :=
  match (fSet s (p / 12))[p % 12]? with
  | some e => isBusy s (laOf s.kee.hk e.1)
  | none => false

/-- One step of a store: the item read, and the position moved on. A line that a transaction holds is left for the next step; an OFF
way-quadrant is passed over. -/
def scrubOne (st : ScrubStore) (r : ScrubFind) : State → State := instant fun s =>
  let s := perf 144 none s
  match st with
  | .copyCache =>
    let k := s.cc.scrubCc
    let w := (wq s (wqOf (k / 16) (k % 16))).st
    let s := if w == .offSteward || w == .offAuto then s else ccFound k r s
    { s with cc := { s.cc with scrubCc := (k + 1) % 16384 } }
  | .homeStore =>
    let x := s.cc.scrubHs
    if isBusy s (laOf s.kee.hk x) then s
    else
      let s := hsFound x r s
      { s with cc := { s.cc with scrubHs := (x + 1) % 16384, passes := if x = 16383 then min 0xFFFF (s.cc.passes + 1) else s.cc.passes } }
  | .filter =>
    let p := s.cc.scrubF
    if scrubBusy s p then s
    else
      let s := filtFound p r s
      { s with cc := { s.cc with scrubF := (p + 1) % 12288 } }

/-- SCRUB_STEP. -/
def execScrubStep (st : ScrubStore) (r : ScrubFind) (s : State) : Out3 := .next (if scrubs s then scrubOne st r s else s)

end Sys2Proof.Machine
end

