-- ==== Sys2Proof/Machine/Modes.lean ====
section
/-! DEFINITION. The device modes that end normal work: entry into SAFE and SHUTDOWN, OFF, and the return to START by RESET#, GLB_RESET or
power-up (01 R42–R44, R49, R50; 13 R642, R653, R657; 14 R684, R686, R688). -/

namespace Sys2Proof.Machine

/-! ### What SAFE and SHUTDOWN have in common -/

/-- Function, park level, drive and slew in force of pin `k`, with the reset values where nothing was written (14 PIN_MUXk). -/
def pinNow (s : State) (k : Nat) : Nat × Bool × Nat × Bool :=
  tgetD s.dev.pins k (if k < 24 then (0, false, 1, false) else (1, true, 1, false))

/-- Every multiplexed pin parks at once, and switches in progress are abandoned (14 R684). -/
def parkAll (s : State) : State :=
  { s with dev := { s.dev with
      pins := (List.range 30).map (fun (k : Nat) => (k, (0, ((pinNow s k).2.1 && (pinNow s k).1 != 5, (pinNow s k).2.2))))
      switching := [], minor := [] } }

/-- Picot outputs take their inactive level. -/
def picOff (s : State) : State := { s with pic := s.pic.map fun e => (e.1, { e.2 with active := false, oldPulse := false }) }

/-- A debug halt ends with SAFE or SHUTDOWN (12 R627). -/
def endHalt (s : State) : State :=
  if s.dbg.halted then raise 13 (detST 1 0) { s with dbg := { s.dbg with halted := false, long := false, step := false, hoops := 0 } }
  else { s with dbg := { s.dbg with step := false } }

/-- A bobbin in flight ends ABORTED; a completion that is already made and waits for room stays (01 R44). -/
def abortBob (s : State) (e : Nat × Bobbin) : State :=
  if e.2.wait = .cqFull then s else cutOff e.1 stAborted (letGo e.1 e.2 (detachPicot e.1 s))

/-- The node stops serving: completions of every command in flight, those attached to a fill before the command whose fill it is, no
proposal, no train, no reference, ports in CONF, pins parked, the debug halt ended (01 R44, R49; 11 R596; 12 R627; 14 R684). -/
def quiesce (s : State) : State :=
  let attached := fun (e : Nat × Bobbin) => match e.2.wait with | .attach _ => true | _ => false
  let s := each (s.ten.bobs.filter attached ++ s.ten.bobs.filter fun e => !attached e) abortBob s
  let s := { s with ten := { s.ten with bobs := s.ten.bobs.filter (fun (e : Nat × Bobbin) => e.2.kind != BobKind.intern), cmds := [] } }
  let s := setTrks [] { s with pat := { s.pat with props := [], switchAt := none } }
  let s := setMemb .unnumbered (leaveTrain s)
  let s := { s with tm := { s.tm with master := false, following := false } }
  endHalt (picOff (zxSource (parkAll (stopPort 1 (stopPort 0 s)))))

/-! ### SAFE -/

/-- Detector `d` takes the node into SAFE (01 R42, R44, R50; 13 R633, R657, R668): a shutdown and its BIST are abandoned, and no BIST
record follows. -/
def enterSafe (d : Nat) (s : State) : State :=
  match s.dev.st with
  | .off | .safe => s
  | _ =>
    let s := quiesce s
    let s := { s with
      dev := { s.dev with wasSafe := true, safeDet := d }
      int := { s.int with shut := .none, bistSent := false }
      kee := { s.kee with pend := s.kee.pend.filter fun w => keepRank w != 0 } }
    bypassAll false (setDev .safe s)

/-! ### SHUTDOWN -/

/-- A shutdown may begin: the device is in STANDBY, ACQUIRE, INAUG or RUN (01 R42, R50). -/
def mayShut (s : State) : Bool := serving s

/-- A pending steward page write ends with SHUTDOWN (08 R423). -/
def stewardPend (s : State) : Bool := s.kee.pend.any fun w => keepRank w == 5

/-- Pending page writes end; the one in progress completes (08 R423, 13 R653 step 4). -/
def dropKeep (s : State) : State :=
  { s with kee := { s.kee with
      pend := []
      busy := s.kee.busy && !stewardPend s
      done := s.kee.done || stewardPend s
      err := if stewardPend s then 5 else s.kee.err } }

/-- Injections end, but for those that the shutdown BIST takes (13 R642). -/
def endInjections (s : State) : State := { s with int := { s.int with inj := s.int.inj.filter fun e => 44 ≤ e.1 && e.1 ≤ 46 } }

/-- SHUTDOWN begins (01 R42, R44; 13 R653 steps 1 to 4). -/
def enterShutdown : State → State := instant fun s =>
  if !mayShut s then s
  else
    let s := { s with int := { s.int with shutHoop := s.tm.hoop, shutEpoch := s.trn.epoch } }
    let s := dropKeep (quiesce (endInjections s))
    let s := bypassAll false (setDev .shutdown s)
    { s with int := { s.int with shut := if s.kee.cur.isSome then .keep else .decide } }

/-! ### ACQUIRE -/

/-- The node enters ACQUIRE from STANDBY: bypass drivers energised, time acquisition begun (01 R42; 02 R73; 03 R183; 14 R692). -/
def enterAcquire (s : State) : State := if s.dev.st = .standby then timeForDev (bypassAll true (setDev .acquire s)) else s

/-- A write of GLB_CTRL (14 R692): RUN, or AUTOSTART as it is stored, takes a node in STANDBY into ACQUIRE, but for the bench hold of
STRAP3. -/
def glbCtrlWrite (cause : ClampBy) (v : Nat) : State → State := instant fun s =>
  let s := regPutChecked cause 0x00C v s
  if (bitOf v 0 ∧ !s.dev.straps.getLsbD 3) ∨ bitOf v 1 ∧ rbit s 0x00C 1 then enterAcquire s else s

/-! ### Reset -/

/-- The keep store as a reset or a power failure leaves it: a page being written is lost (08 R424). -/
def keepAfter (s : State) : KeepSt :=
  let base := State.reset.kee
  let kept : KeepSt := { base with
    mem := s.kee.mem, wear := s.kee.wear, used := s.kee.used, badPages := s.kee.badPages, faultClk := s.tm.clk }
  match s.kee.cur with
  | some (_, p, _) => { kept with mem := memPuts s.kee.mem (0x100 * p) (slice [] 0 256), badPages := p :: s.kee.badPages.filter (· != p) }
  | none => kept

/-- Registers whose reset value a strap gives: GLB_CTRL.AUTOSTART is STRAP0 (14 R691). -/
def strapRegs (straps : BitVec 4) : RegSt := if straps.getLsbD 0 then { cur := [(0x00C, 2)] } else {}

/-- The state that a reset leaves, with START begun (01 R42, 14 R686–R688): every field at its reset value, but for the keep store, the
fuses, the supplies, the levels that the outside drives, and what the model adds of its own (clock, outputs, queue, draws). -/
def resetState (cause : Nat) (straps : BitVec 4) (s : State) : State :=
  let r := State.reset
  { r with
    dev := { r.dev with
      rails := s.dev.rails, window := s.dev.window, straps := straps, cause := cause, wasSafe := s.dev.wasSafe, safeDet := s.dev.safeDet
      started := s.dev.started, startFast := s.dev.startFast }
    reg := strapRegs straps
    tm := { r.tm with clk := s.tm.clk, rowClk := s.tm.clk, trueClk := s.tm.clk, tscClk := s.tm.clk, draws := s.tm.draws }
    zx := { r.zx with ctc := s.zx.ctc, loopClk := s.tm.clk }
    trn := { r.trn with cple := s.trn.cple }
    kee := keepAfter s
    ten := { r.ten with perst := s.ten.perst, dmaId := s.ten.dmaId }
    dbg := { r.dbg with dbgDis := s.dbg.dbgDis }
    int := { r.int with gver := s.int.gver }
    out := s.out
    pending := s.pending }

/-- A write of GLB_RESET with its key acts as a RESET# assertion of 10 µs (14 R711, R712). The straps are not latched anew (DESIGN
CHOICE, log 84). -/
def glbReset (v : Nat) (s : State) : State :=
  if bitOf v 0 ∧ bitsOf v 16 16 = 0x5AA5 then resetState 2 s.dev.straps s else s

/-- The node is OFF (01 R42, 14 R686): nothing runs until the rails are back. -/
def turnOff (s : State) : State :=
  let r := resetState s.dev.cause s.dev.straps s
  { r with dev := { r.dev with st := .off } }

end Sys2Proof.Machine
end

