-- ==== Sys2Proof/Machine/Detect.lean ====
section
/-! DEFINITION. The detectors: what a firing records, and each detector's fixed reaction (13 R632–R643, R657, R668), the sequencer
watchdog, and the clamp log's CLEAR. -/

namespace Sys2Proof.Machine

/-! ### Which detectors react how (13 R635) -/

/-- Detectors whose reaction is SAFE. -/
def detSafe (d : Nat) : Bool :=
  [0, 1, 2, 3, 5, 6, 9, 10, 11, 12, 18, 19, 20, 21, 26, 28, 30, 34, 35, 39, 40, 44, 46].contains d

/-- Detectors whose reaction is CONTAIN. -/
def detContain (d : Nat) : Bool := [4, 7, 22, 23, 24, 25, 29, 31, 32, 33, 36, 37, 38, 41, 45].contains d

/-- Shutdown BIST is running (13 R637). -/
def bistRuns (s : State) : Bool :=
  match s.int.shut with
  | .logic | .memory => true
  | _ => false

/-- Detector `d` is active now (13 R636–R638): D44 to D46 react at START alone, inside START_COMPLETE; during BIST only D05, D06 and D09
are active; the watchdog does not run in START, SHUTDOWN or SAFE, nor in a debug halt under WDOG_FREEZE (12 R629). -/
def detActive (s : State) (d : Nat) : Bool :=
  s.dev.st != .off && !s.dev.resetLow && decide (d < 48) && !(decide (44 ≤ d) && decide (d ≤ 46))
    && (!bistRuns s || d == 5 || d == 6 || d == 9)
    && (d != 10 || (serving s && !(s.dbg.halted && rbit s 0xE000 1)))

/-! ### What a firing records (13 R632, R641, R642) -/

/-- Injection state of a detector. -/
def injOf (s : State) (d : Nat) : Inj := tgetD s.int.inj d .none

/-- A firing recorded: INT_DETSTAT, INT_DETCNTd, the event. -/
def detRecord (d index value : Nat) (s : State) : State :=
  let s := { s with int := { s.int with detStat := s.int.detStat ||| BitVec.ofNat 48 (2 ^ d) } }
  raise (384 + d) (detN index value) (count (0xC100 + 4 * d) 1 s)

/-- The event of an injected firing; a one-shot injection returns to none. -/
def injFired (d : Nat) (s : State) : State :=
  let s := { s with int := { s.int with inj := if injOf s d = .oneShot then tdel s.int.inj d else s.int.inj } }
  raise 434 (detN d 0) s

/-! ### CONTAIN -/

/-- The held frames that came on lane `l` are lost: their streams go on after the last frame held (13 D22, 03 R164; DEDUCED, log 80). -/
def loseStream (l : LaneId) (s : State) (e : Nat × RxStream) : State :=
  match e.2.e with
  | none => s
  | some first =>
    if e.2.held.any fun h => h.2.1 == l then
      let n := 1 + (e.2.held.map fun h => (h.1 + 65536 - first) % 65536).foldl max 0
      declareLost e.1 n l (setStream e.1 { e := some ((first + n) % 65536), held := [] } s)
    else s

/-- The frame in a side's elastic buffer is stomped (13 D23, D24; 03 R147). -/
def stompHeld (l : LaneId) (sd : Side) (s : State) : State :=
  modSide l sd (fun x => { x with elastic := x.elastic.map fun f => (f.1, false) }) s

/-- An own frame of lane `l` that waits is not sent (13 D25). -/
def dropOwn (l : LaneId) (s : State) : State :=
  let off := fun (x : SideSt) => { x with delayed := none }
  laneCount l 10 1 (modSide l .e2 off (modSide l .e1 off s))

/-- A picot channel is disarmed, its output inactive (13 D31). -/
def disarm (ch : Nat) (s : State) : State :=
  if ch < 24 then modCh ch (fun c => { c with par := { c.par with mode := 0 }, active := false, oldPulse := false, oldPar := none }) s else s

/-- The job of tenant `t` that the failed transfer concerns: the one that reads its argument, else the one last accepted (DEDUCED,
log 81). -/
def jobConcerned (s : State) (t : Nat) : Option (Nat × Bobbin) :=
  let js := (jobsOf s t).filter fun e => e.2.wait != .cqFull
  let later := fun (a : Option (Nat × Bobbin)) (e : Nat × Bobbin) => match a with
    | none => some e
    | some b => if b.2.seq < e.2.seq then some e else some b
  match (js.filter fun e => e.2.wait == .dma).foldl later none with
  | some e => some e
  | none => js.foldl later none

/-- That job completes with DATA_ERROR (13 D32, D33). -/
def jobDataError (t : Nat) (s : State) : State :=
  match jobConcerned s t with
  | some e => cutOff e.1 stDataError (letGo e.1 e.2 s)
  | none => s

/-- An uncorrectable error in the ring RAM of SPI port `p` (13 D33): where the node's newest output is a read frame of that port, that
frame carried the word and its CRC, where the port has one, is inverted; otherwise a job read it (DEDUCED, log 81). -/
def ramError (p : Nat) (s : State) : State :=
  match s.out with
  | .spi q bs :: os =>
    if q ≠ p then jobDataError (4 + p) s
    else if rbit s (tenBase (4 + p) + 0x1C08) 0 then
      let k := bs.length - 2
      { s with out := .spi q (bs.take k ++ (bs.drop k).map (~~~·)) :: os }
    else s
  | _ => jobDataError (4 + p) s

/-- A port enters CONF at once or after the frame in progress; `stby` drives the transceiver to standby (13 D36–D38). -/
def detConf (p : Nat) (stby now : Bool) (s : State) : State :=
  if 2 ≤ p then s
  else if stby then stopPort p s
  else
    let s := regSet (cbpBase p) (putBits (regCur s (cbpBase p)) 0 1 1) s
    if (portOf s p).sending.isSome && !now then modPort p (fun c => { c with confReq := true }) s else enterConf p s

/-- An event's route becomes 0 until it is rewritten (13 D41). -/
def dropRoute (ev : Nat) (s : State) : State :=
  if ev < 512 then
    let off := 0xA000 + 4 * ev
    setStaged off [] (regSet off 0 s)
  else s

/-- The action of a CONTAIN detector. Where two values share the index, the lane is byte 8 and the side byte 9 of the DETAIL (DEDUCED,
log 80). -/
def contain (d index : Nat) (s : State) : State :=
  let l := laneOfIx (index % 256)
  let sd : Side := if index / 256 % 2 = 1 then .e2 else .e1
  match d with
  | 4 => pcieLink false (resetFns s)
  | 7 =>
    let s := { s with dev := { s.dev with rgDown := true } }
    lanesDown .c (!laneMaint s .c) (lanesDown .b (!laneMaint s .b) (lanesDown .a (!laneMaint s .a) s))
  | 22 => each s.lan.streams (loseStream l) s
  | 23 => stompHeld l sd s
  | 24 => laneCount l 9 1 (stompHeld l sd s)
  | 25 => dropOwn l s
  | 29 => setTvalid false s
  | 31 => disarm index s
  | 32 => jobDataError index s
  | 33 => ramError index s
  | 36 => detConf index false false s
  | 37 => detConf index true false s
  | 38 => detConf 1 false true (detConf 0 false true s)
  | 41 => dropRoute index s
  | _ => s

/-! ### The firing -/

/-- A rail that a detector found outside its window (14 GLB_RAILS); an injected firing moves no rail. -/
def railOut (d : Nat) (injected : Bool) (s : State) : State :=
  let out := fun (i : Nat) => { s with dev := { s.dev with window := s.dev.window &&& ~~~(BitVec.ofNat 4 (2 ^ i)) } }
  if injected then s
  else match d with
    | 5 => out 0
    | 6 => out 1
    | 7 => out 3
    | _ => s

/-- Detector `d` fires (13 R632, R633, R641): the record, the fault history of a CONTAIN or SAFE reaction, and the reaction. -/
def fire (d index value : Nat) (injected : Bool) : State → State := instant fun s =>
  let s := detRecord d index value (railOut d injected s)
  let s := if injected then injFired d s else s
  if detSafe d then enterSafe d (recordFault (384 + d) (detN index value) s)
  else if detContain d then contain d index (recordFault (384 + d) (detN index value) s)
  else s

/-- DETECTOR_FIRE. An injected firing is taken where the injection is armed (13 R640). -/
def execDetectorFire (d index : Nat) (value : Word) (injected : Bool) (s : State) : Out3 :=
  .next (if detActive s d && (!injected || injOf s d != .none) then fire d (index % 65536) value.toNat injected s else s)

/-- WATCHDOG_EXPIRY: D10, where a suppressed restart is its injection (13 R638, R640). -/
def execWatchdogExpiry (s : State) : Out3 :=
  .next (if detActive s 10 then fire 10 0 0 (injOf s 10 != .none) s else s)

/-- RGMII_RAIL_BACK: the RGMII rail has been back within its window for 10 ms (13 D07). -/
def execRgmiiRailBack (s : State) : Out3 :=
  .next { s with dev := { s.dev with rgDown := false, window := s.dev.window ||| 8 } }

/-- The clamp log empties, and DROPPED with it (13 R648). -/
def clampClear (s : State) : State :=
  { s with int := { s.int with
      clamps := [], dropped := 0, logDirty := s.int.logDirty || !s.int.clamps.isEmpty || s.int.dropped != 0 } }

/-- INT_CLAMP_CLEAR: a write of INT_CLAMP_CTRL (13 R669). -/
def execIntClampClear (v : Word) (s : State) : Out3 := .next (if reachable s ∧ v.getLsbD 0 then clampClear s else s)

end Sys2Proof.Machine
end

