-- ==== Sys2Proof/Machine/Pins.lean ====
section
/-! DEFINITION. The pin multiplexer, the status LEDs and the clock gates (14 R677–R684, R695, R696). -/

namespace Sys2Proof.Machine

/-! ### PIN_MUXk (14 R680, R681) -/

/-- PIN_MUXk's value in force or held. -/
def muxReg (s : State) (k : Nat) : Nat := regCur s (0x1000 + 4 * k)

/-- The park level of pin `k` for a switch between functions `old` and `new` (14 R679); PCKOK parks low (02 R100). -/
def parkLevel (s : State) (k old new : Nat) : Bool :=
  let p := (chOf s k).par
  if 24 ≤ k then true
  else if (old = 1 ∨ new = 1) ∧ outMode p then p.pol
  else if old = 5 ∨ new = 5 then false
  else bitOf (muxReg s k) 3

/-- A write of PIN_MUXk: a change of FUNC starts a switch, or replaces the target of the one in progress; a change of PARK, DRV or SLOW
alone waits for the next pin tick (14 R680, R681). -/
def muxWrite (cause : ClampBy) (k v : Nat) (s : State) : State :=
  let old := muxReg s k
  let s := regPutChecked cause (0x1000 + 4 * k) v s
  let new := muxReg s k
  let f := bitsOf new 0 3
  match tget s.dev.switching k with
  | some x =>
    let y : PinSw := { left := if x.left ≤ 2 then 3 else x.left, func := f, park := parkLevel s k (pinNow s k).1 f }
    { s with dev := { s.dev with switching := tset s.dev.switching k y } }
  | none =>
    if f = bitsOf old 0 3 then
      if new = old then s else { s with dev := { s.dev with minor := if s.dev.minor.contains k then s.dev.minor else k :: s.dev.minor } }
    else
      let y : PinSw := { left := 3, func := f, park := parkLevel s k (bitsOf old 0 3) f }
      { s with dev := { s.dev with switching := tset s.dev.switching k y } }

/-- PIN_MUX_WRITE. -/
def execPinMuxWrite (w : Who) (k : Nat) (v : Word) (s : State) : Out3 :=
  .next (if mayWrite w s ∧ k < 30 then muxWrite (byWho w) k v.toNat s else s)

/-! ### The pin tick -/

/-- Pin `k` with function `f` and park level `p`; drive and slew as PIN_MUXk holds them. -/
def setPin (k f : Nat) (p : Bool) (s : State) : State :=
  let r := muxReg s k
  { s with dev := { s.dev with pins := tset s.dev.pins k (f, p, bitsOf r 4 2, bitOf r 6) } }

/-- Where pin `k` had function CTC in state `was`, the choice of source is made anew (02 R63). -/
def ctcMoved (k : Nat) (was s : State) : State := if (pinNow was k).1 == 4 then zxSource s else s

/-- One tick of a switch: the pin parks at the first, and its new function is connected at the second after that (14 R680). Where it leaves or
takes up function CTC the local source is judged anew (02 R63). -/
def switchTick (s : State) (e : Nat × PinSw) : State :=
  let k := e.1
  let x := e.2
  if 3 ≤ x.left then
    let t := setPin k 0 x.park s
    ctcMoved k s { t with dev := { t.dev with switching := tset s.dev.switching k { x with left := 2 } } }
  else if x.left = 2 then { s with dev := { s.dev with switching := tset s.dev.switching k { x with left := 1 } } }
  else
    let s := setPin k x.func (bitOf (muxReg s k) 3) s
    let s := raise 452 (detN k 0) { s with dev := { s.dev with switching := tdel s.dev.switching k } }
    ctcMoved k s s

/-- A change of PARK, DRV or SLOW takes effect. -/
def minorTick (s : State) (k : Nat) : State := setPin k (pinNow s k).1 (bitOf (muxReg s k) 3) s

/-- PIN_TICK (14 R680). -/
def pinTick (s : State) : State :=
  let m := s.dev.minor.filter fun k => (tget s.dev.switching k).isNone
  let s := each m minorTick { s with dev := { s.dev with minor := [] } }
  each s.dev.switching switchTick s

def execPinTick (s : State) : Out3 := .next (if s.dev.st = .off ∨ s.dev.resetLow then s else pinTick s)

/-! ### LEDs (14 R677) -/

/-- LED_RUN blinks in the present state. -/
def runBlinks (s : State) : Bool :=
  match s.dev.st with
  | .standby | .acquire | .inaug => true
  | .run => s.trn.memb != .member
  | _ => false

/-- LED_FLT blinks: a detector's bit is set outside SAFE, START and SHUTDOWN. -/
def fltBlinks (s : State) : Bool := serving s && s.int.detStat != 0

/-- LED_RUN is on. -/
def ledRunOn (s : State) : Bool := if runBlinks s then s.dev.ledRun else s.dev.st == .run

/-- LED_FLT is on. -/
def ledFltOn (s : State) : Bool := if fltBlinks s then s.dev.ledFlt else s.dev.st == .safe

/-- LED_BLINK: a blink timer of a LED that blinks turns over. -/
def execLedBlink (fault : Bool) (s : State) : Out3 :=
  .next (if fault then (if fltBlinks s then { s with dev := { s.dev with ledFlt := !s.dev.ledFlt } } else s)
    else if runBlinks s then { s with dev := { s.dev with ledRun := !s.dev.ledRun } } else s)

/-! ### Clock gates (14 R695, R696) -/

/-- GLB_CLKGATE_WRITE: bits whose domain may not be gated now are clamped to 0. -/
def execGlbClkgateWrite (w : Who) (j : Nat) (v : Word) (s : State) : Out3 :=
  .next (if mayWrite w s ∧ j < 7 then regPutChecked (byWho w) (0x60 + 4 * j) v.toNat s else s)

end Sys2Proof.Machine
end

