-- ==== Sys2Proof/Machine/Rows.lean ====
section
/-! DEFINITION. Row starts and row-hoop boundaries: the pattern frame, the entry into an inauguration, commits, switches, the Cut
(00 R4; 01 R26, R29; 02 R64, R76–R80, R86, R92–R94, R109, R118; 04 R217, R221–R224; 05 R232–R235, R255–R260, R278, R283; 10 R526, R537;
12 R628). -/

namespace Sys2Proof.Machine

/-! ### The pattern frame (02 R76, R83, R84; 03 R145, R154, R171) -/

/-- ORIGIN of a lane (03 R171). -/
def ownOrigin (s : State) (l : LaneId) : OriginMsg :=
  let x := laneAt s l
  { yvE1 := x.e1.yv, yvE2 := x.e2.yv, yE1 := x.e1.y, yE2 := x.e2.y }

/-- A STATUS of the inauguration with the OUTD agreed (05 R236). -/
def statusMsg (s : State) (num : Nat) (d : Word) (cut : Word) : Msg :=
  let c := cut.toNat
  .inaug { step := 4, num := num, hk := s.kee.hk, f1 := d, f2 := c % 256, f3 := c / 256 % 256, f4 := c / 65536 % 256, f5 := c / 16777216 }

/-- Control messages after the first three: CALL, the STATUS messages, and the verdicts of hoop n + 3 (04 R217; 05 R232, R255, R259,
R278). -/
def patternControls (s : State) : List Msg :=
  let call := if s.trn.masterCall then [callMsg s s.trn.cause] else []
  let status := match s.dev.st, s.trn.agreed with
    | .inaug, some d =>
      if s.trn.step = 6 then (if s.trn.sendResume then [statusMsg s 3 d 0] else [])
      else statusMsg s 1 d 0 :: (s.trn.cutHoop.toList.map fun h => statusMsg s 2 d h)
    | _, _ => []
  (call ++ status ++ verdictMsgs s).take 5

/-- The own pattern frame on one side: a busy output is not waited for (03 R154). -/
def patternOn (l : LaneId) (sd : Side) (n : Nat) (h : FrameHdr) (ms : List Msg) (s : State) : State :=
  if !sideOpen s l sd 0 then s
  else if s.tm.clk < (sideOf s l sd).busyTill then late l sd n s
  else emit l sd (frameBytes s l sd h ms) s

/-- The own pattern frame on the lanes of its stitch. -/
def sendPattern (s : State) : State :=
  match (rowStitches s).find? fun e => e.2.stype == 0 with
  | none => s
  | some (n, t) =>
    let r := ownReference s
    let h := ownHdr s 0 3 n t.lmode
    let sent := s.out.length
    let s := each (lanesIn t.lanes) (fun s i =>
      let l := laneOfIx i
      let ms := [.reference r.1, .trueP r.2, .origin (ownOrigin s l)] ++ patternControls s
      patternOn l .e2 n h ms (patternOn l .e1 n h ms s)) s
    { s with
      lan := { s.lan with launched := if s.out.length = sent then s.lan.launched else n :: s.lan.launched }
      tm := { s.tm with rseq := (s.tm.rseq + 1) % 16 }
      trn := { s.trn with masterCall := s.trn.masterCall && !s.trn.frozen } }

/-! ### A row starts -/

/-- What each row begins with: the row count, and the records of the row that ends. -/
def rowBegins (s : State) : State :=
  let s := takeRows s
  let n := nRow s
  let row := (s.tm.row + 1) % n
  let s := anchorRow (BitVec.ofNat 32 (row * 2 ^ 32 / n)) s
  let s := { s with
    tm := { s.tm with row := row, rows := s.tm.rows + 1, usedInRow := false }
    lan := { s.lan with launched := [], reqSent := 0, lanes := s.lan.lanes.map (fun (l : LaneSt) => { l with fwin := false }) } }
  let s := oldCopies { s with tm := { s.tm with closeHoop := s.tm.closeHoop && phasesClose s } }
  let s := perf 1 none s
  if s.tm.tstate = .holdover then perf 98 none s else s

/-- The node may find itself stale: a MEMBER in RUN, and one in INAUG past the agreement, whose train may have made the Cut without it
(05 R266, R283). -/
def mayBeStale (s : State) : Bool :=
  (s.dev.st == .run && s.trn.memb == .member) || (s.dev.st == .inaug && decide (4 ≤ s.trn.step))

/-- A node that for four rows received valid pattern frames only of another epoch leaves its train and acquires again (05 R283). -/
def staleRow (s : State) : State :=
  let n := if mayBeStale s ∧ s.tm.sawOther ∧ !s.tm.sawOwn then s.tm.staleRows + 1 else 0
  let s := { s with tm := { s.tm with staleRows := n, sawOwn := false, sawOther := false } }
  if n < 4 then s
  else
    let s := raise 217 (detHK s.kee.hk s.trn.node s.trn.epoch.toNat) s
    let s := setDev .acquire (setMemb .unnumbered (leaveTrain s))
    { s with tm := { s.tm with staleRows := 0 }, trn := { s.trn with call := some 4, cause := 4 } }

/-- The entry into INAUG at a row start: in RUN on a CALL, which is called no more (05 R232, R233); in ACQUIRE on reaching
SYNC, where a node that hears pattern I joins and any other calls (05 R235). -/
def rowEntry (s : State) : State :=
  let heard := s.tm.sawPatI
  let s := { s with tm := { s.tm with sawPatI := false } }
  match s.dev.st with
  | .run => if s.trn.enterNext then enterInaug { s with trn := { s.trn with call := none } } else s
  | .acquire =>
    if s.tm.tstate ≠ .sync then s
    else
      let c := s.trn.call.getD 2
      enterInaug { s with trn := { s.trn with call := if heard then none else some c, cause := c, masterCall := false } }
  | _ => s

/-- The master's part in an agreement at a row start: AGREED is taken as it is first sent; with Drain ended, the row N_row − 1 sets the
Cut; after the Cut, with no ACK outstanding, RESUME goes out (05 R255, R259, R278). -/
def masterRow (s : State) : State :=
  if s.dev.st ≠ .inaug ∨ !s.tm.master then s
  else
    let s := match s.trn.sendAgreed, ownOutd s with
      | true, some d => takeAgreed d s
      | _, _ => s
    if s.trn.step = 6 ∧ s.trn.needAck = [] ∧ s.trn.agreed.isSome then { s with trn := { s.trn with sendResume := true } }
    else if s.trn.drainEnd ∧ s.trn.agreed.isSome ∧ s.trn.step = 5 ∧ s.trn.cutHoop = none ∧ s.tm.row + 1 = nRow s then
      { s with trn := { s.trn with cutHoop := some (s.tm.hoop + 1) } }
    else s

/-- Sending the pattern frame: by the master, or by a node that claims now (02 R64, R76, R78–R80, R86). One that becomes master in a
hoop n + 3 gives the verdict that it has not heard (04 R221). An ISOLATED node claims no mastership and sends no pattern frame (01 R46); its
ranging frames still leave, by which its neighbours do not notice it (01 R47, 03 R172, 05 R282; DEDUCED, log 129). -/
def masterSends (s : State) : State :=
  let s := stopMaster s
  if !claims s then s
  else
    let new := !s.tm.master
    let s := masterPeriod (becomeMaster s)
    let s := masterRow (if new then verdicts s else s)
    let resume := s.dev.st == .inaug && s.trn.step == 6 && s.trn.sendResume
    let s := sendPattern s
    if resume then doResume s else s

/-- What the coherence engine takes up again at a row start: entries to anchor, mirror sends and own messages that waited for a tracker or a
bobbin, repeat pushes (06 R29, R315, R318, R336; logs 33, 132, 135). -/
def engineRow (s : State) : State :=
  let s := anchorRest s
  if onTrain s then queuePushes (payOwed (mirrorRetry s)) else s

/-- ROW_START. -/
def rowStart : State → State := instant fun s =>
  let s := rowBegins (closeRanging s)
  let s := agreementRow (restartNow (unmuteRow s))
  let s := rowEntry (staleRow s)
  engineRow (masterSends s)

def execRowStart (s : State) : Out3 := .next (if s.dev.st = .off then s else rowStart s)

/-! ### Commits (04 R222, R223; 10 R526, R537; 01 R26) -/

/-- A value staged at clock `t` takes effect now: written 10 µs before, or while HOLD stood (04 R222, R223). -/
def commits (s : State) (t : Nat) : Bool :=
  if s.pat.hold then
    match s.pat.holdClr with
    | some c => decide (80000 ≤ s.tm.clk - c) && (decide (t ≤ c) || decide (80000 ≤ s.tm.clk - t))
    | none => false
  else decide (80000 ≤ s.tm.clk - t)

/-- The local source after a commit of PHT_CTRL or PHT_ZXCFG: its validity and tier are judged anew (02 R63, R65), and another LSRC starts
R70's count anew. -/
def sourceCommitted (off was : Nat) (s : State) : State :=
  if off = 0x2000 then zxSource { s with zx := { s.zx with tvCount := if rfld s 0x2000 2 2 = was / 4 % 4 then s.zx.tvCount else 0 } }
  else if off = 0x2034 then zxSource s
  else s

/-- One staged register put in force: the newest of its staged values that the commit includes; a later one stays staged (04 R222). -/
def commitReg (off : Nat) (s : State) : State :=
  let l := stagedAt s off
  match l.find? fun e => commits s e.2 with
  | none => s
  | some e =>
    let was := regCur s off
    sourceCommitted off was (setStaged off (l.takeWhile fun e => !commits s e.2) (regSet off e.1.toNat s))

/-- SET_ATTR at the commit: accepted 10 µs before (10 R526). It is no staged field, and HOLD does not keep it (DEDUCED, log 73). -/
def attrDue (s : State) (b : Nat) : Bool :=
  match bobOf s b with
  | some v => decide (80000 ≤ s.tm.clk - v.accClk)
  | none => true

/-- The commit of a row-hoop boundary. -/
def commit (s : State) : State :=
  let s1 := each s.reg.staged (fun s (e : Nat × Word) => commitReg e.1 s) s
  let clear := s.pat.hold && s.pat.holdClr.any (fun c => decide (80000 ≤ s.tm.clk - c))
  let s1 := if clear then { s1 with pat := { s1.pat with hold := false, holdClr := none } } else s1
  let s1 := quotaCommit s1
  let attrs := s1.home.attrWait.filter (attrDue s1)
  let s1 := each attrs (fun s b => setAttrCommit b s)
    { s1 with home := { s1.home with attrWait := s1.home.attrWait.filter (fun b => !attrDue s1 b) } }
  each (s1.ten.bobs.filter fun e => e.2.wait == .commit && e.2.job.op == 0x34) (fun s e =>
    if (tget s.reg.staged 0x2000).isSome ∨ (tget s.reg.staged 0x2060).isSome then s else jobDone e.1 (regCur s 0x2000) 0 none s) s1

/-! ### The boundary -/

/-- While halted with LEASE_FREEZE, leases homed here last a hoop longer, and those held elsewhere are renewed (12 R628). -/
def freezeLeases (s : State) : State :=
  if !s.dbg.halted ∨ !rbit s 0xE000 0 then s
  else
    let s := { s with
      home := { s.home with leases := s.home.leases.map fun l => { l with expiry := l.expiry + 1 } }
      heldLeases := s.heldLeases.map fun h => if homedHere s h.la then { h with expiry := h.expiry + 1 } else h }
    each (s.heldLeases.filter fun h => !homedHere s h.la && !h.broken) (fun s h =>
      (sendOwn h.ten 0x0B h.la .c1 { typ := .lockReq, param := word h.hoops } s).1) s

/-- The true phase jams to the row phase after 1 s without TVALID, and follows it from then on (02 R118). TFREE stays set until TVALID returns
(DESIGN CHOICE, log 126). -/
def virtJam (s : State) : State :=
  if !s.tm.virtNext then s
  else stepped false { s with tm := { s.tm with tperiod := s.tm.period, virt := true, virtNext := false } }

/-- The row hoop passes phase 0: the counter (00 R4); the row before row 0 has ended. -/
def hoopBegins (s : State) : State :=
  let s := anchorRow 0 s
  let s := { s with tm := { s.tm with hoop := s.tm.hoop + 1 } }
  let s := if s.dbg.halted then { s with dbg := { s.dbg with hoops := min 0xFFFF (s.dbg.hoops + 1) } } else s
  perf 2 none s

/-- The row counter at a boundary: the next row start begins row 0 of the pattern then in force. -/
def lastRow (s : State) : State := { s with tm := { s.tm with row := nRow s - 1 } }

/-- HOOP_BOUNDARY. -/
def hoopBoundary : State → State := instant fun s =>
  let s := commit (hoopBegins s)
  let s := tierHoop (bigHoop (lockBand s))
  let s := cutNow (switchBoundary (verdicts s))
  let s := lastRow (virtJam (freezeLeases s))
  phaseWaiters (picBoundary true s.tm.hoop s)

def execHoopBoundary (s : State) : Out3 := .next (if s.dev.st = .off then s else hoopBoundary s)

end Sys2Proof.Machine
end

