-- ==== Sys2Proof/Machine/Read.lean ====
section
/-! DEFINITION. What each register and window reads: the Registers section of each chapter, by block (15 R713–R718; 00 R10, R12). A
register that these functions do not name reads its stored fields, or 0 where it has none. -/

namespace Sys2Proof.Machine

/-- A counter's value, else the stored fields, staged where a value is staged (00 R12). -/
def storedRead (s : State) (off : Nat) : Nat := if isCounter off then ctrGet s off else regHeld s off

/-! ### GLB and PIN (14 R712) -/

/-- Clock domain `d` is stopped (14 R697): sources that the outside drives, or whose loss a detector watches, are free (log 18). -/
def domainStopped (s : State) (d : Nat) : Bool :=
  if d = 0 ∨ d = 3 ∨ (8 ≤ d ∧ d ≤ 18) then Config.clockStopped d s.tm.clk
  else if d = 19 ∨ (208 ≤ d ∧ d ≤ 211) then !bistRuns s
  else if 20 ≤ d ∧ d < 84 then (match (wq s (d - 20)).st with
    | .offSteward | .offAuto => true
    | _ => false)
  else decide (156 ≤ d ∧ d ≤ 203) && gated s d

/-- GLB_CLKSTATj. -/
def clkStat (s : State) (j : Nat) : Nat := (List.range 32).foldl (fun v b => v + flagAt (domainStopped s (32 * j + b)) b) 0

/-- Level of multiplexed pin `k` (14 R678): what the node drives, else what the outside sets (log 17). -/
def pinLevel (s : State) (k : Nat) : Bool :=
  let out := (Config.pinInput s.tm.clk).getLsbD k
  match (pinNow s k).1 with
  | 1 =>
    if k < 24 then (let c := chOf s k; if outMode c.par ∨ (oldTail s c).isSome then outLevel s c else if c.ended then c.par.pol else out)
    else if k = 26 then s.dev.canStby.getD 0 true
    else if k = 29 then s.dev.canStby.getD 1 true
    else if (k = 24 ∨ k = 27) ∧ (portOf s ((k - 24) / 3)).st = .conf then true
    else out
  | 3 => rbit s 0x1080 k
  | 4 => s.zx.ctc
  | 5 => pckOk s
  | _ => out

/-- One bit per pin below `n`. -/
def pinBits (n : Nat) (f : Nat → Bool) : Nat := (List.range n).foldl (fun v k => v + flagAt (f k) k) 0

/-- GLB. -/
def readGlb (s : State) (r : Nat) : Nat :=
  match r with
  | 0x000 => 0x00310062
  | 0x004 => 0xEA62
  | 0x008 => devCode s.dev.st + 8 * membCode s.trn.memb + flagAt s.dbg.halted 6
  | 0x014 => s.dev.straps.toNat
  | 0x018 => s.dev.cause + flagAt s.dev.wasSafe 2 + 8 * s.dev.safeDet
  | 0x01C => if s.dev.started then Config.startDuration (b2n s.dev.startFast) % 65536 else 0
  | 0x020 => s.dev.window.toNat + flagAt (s.dev.straps.getLsbD 1) 4
  | _ => if 0x040 ≤ r ∧ r < 0x05C then clkStat s ((r - 0x040) / 4) else storedRead s r

/-- PIN. -/
def readPin (s : State) (r : Nat) : Nat :=
  match r with
  | 0x084 => pinBits 30 (pinLevel s)
  | 0x088 => pinBits 30 fun k => (tget s.dev.switching k).isSome
  | _ => storedRead s (0x1000 + r)

/-! ### PHT and PIC (02 R123, R124) -/

/-- PHT_ZXSTAT. -/
def zxStat (s : State) : Nat :=
  (List.range 3).foldl (fun v i => v + flagAt (s.zx.ins.getD i {}).valid i + flagAt (s.zx.ins.getD i {}).faulted (3 + i)) 0
    + flagAt s.zx.rot 6 + flagAt s.zx.rotErr 7 + flagAt s.zx.plausOff 8 + flagAt s.zx.srcValid 9

/-- PHT_PCKSTAT. -/
def pckStat (s : State) : Nat :=
  b2n s.zx.pckValid + flagAt s.zx.alarm 1 + flagAt s.zx.pckRotErr 2 + flagAt (pckOk s) 3 + 256 * s.zx.diff.toNat

/-- PHT_HOLDTIME. -/
def holdTime (s : State) : Nat := if s.tm.tstate = .holdover then (s.tm.clk - s.tm.holdClk) / 8000000 else 0

/-- PHT. -/
def readPht (s : State) (r : Nat) : Nat :=
  match r with
  | 0x004 => lockStat s
  | 0x008 => s.tm.hoop.toNat
  | 0x00C => s.tm.thoop.toNat
  | 0x014 => s.tm.snapHoop.toNat
  | 0x018 => s.tm.snapPh.toNat
  | 0x01C => s.tm.snapThoop.toNat
  | 0x020 => s.tm.snapTph.toNat
  | 0x024 => s.tm.period
  | 0x028 => s.tm.tperiod
  | 0x02C => s.tm.err.toNat
  | 0x030 => s.tm.mHk + 256 * s.tm.mRank + 2048 * s.tm.mTier + 8192 * s.tm.refLane
  | 0x048 => zxStat s
  | 0x04C => s.zx.period
  | 0x054 => pckStat s
  | 0x058 => holdTime s
  | _ => storedRead s (0x2000 + r)

/-- PIC_CHn_CFG. -/
def chCfg (p : PicotPar) : Nat :=
  p.mode + flagAt p.tb 3 + flagAt p.pol 4 + flagAt p.wunit 5 + flagAt p.nowrap 6 + flagAt p.onloss 7 + 256 * p.edges + flagAt p.capev 10
    + flagAt p.tphs 11

/-- A picot channel's registers, by byte offset in its block. -/
def readChannel (s : State) (n r : Nat) : Nat :=
  let c := chOf s n
  match r with
  | 0x00 => chCfg c.par
  | 0x04 => c.par.a.toNat
  | 0x08 => c.par.b.toNat
  | 0x0C => c.par.c.toNat
  | 0x10 => c.armHoop.toNat
  | 0x14 => b2n c.empty + flagAt c.skip 1 + flagAt c.ovf 2
  | _ => 0

/-- A capture FIFO's head, by byte offset. -/
def readCapture (s : State) (n r : Nat) : Nat :=
  let c := chOf s n
  let h : CapRec := c.fifo.headD { phase := 0, hoop := 0, pol := false, ord := false, virt := false, tb := false }
  match r with
  | 0x00 => h.phase.toNat
  | 0x04 => h.hoop.toNat
  | 0x08 => c.fifo.length + flagAt h.pol 5 + flagAt h.ord 6 + flagAt h.virt 7 + flagAt h.tb 8
  | _ => 0

/-- PIC. A channel is armed while its mode is not off (DEDUCED, log 82). -/
def readPic (s : State) (r : Nat) : Nat :=
  if r = 0x010 then pinBits 24 fun n => (chOf s n).par.mode != 0
  else if r = 0x014 then pinBits 24 (pinLevel s)
  else if 0x100 ≤ r ∧ r < 0x400 then readChannel s ((r - 0x100) / 0x20) (r % 0x20)
  else if 0x400 ≤ r ∧ r < 0x580 then readCapture s ((r - 0x400) / 0x10) (r % 0x10)
  else storedRead s (0x3000 + r)

/-! ### LAN (03 R193–R195) -/

/-- Code of a link state in LAN_STAT. -/
def linkCode : Link → Nat
  | .down => 0
  | .up => 1
  | .gated => 2
  | .spderr => 3

/-- A side's byte of LAN_STAT. -/
def sideStat (x : SideSt) : Nat := linkCode x.link + flagAt x.noPeer 2 + flagAt x.yv 3 + flagAt x.ranged 4 + flagAt x.fport 5

/-- One lane's block. -/
def readLane (s : State) (l : LaneId) (r : Nat) : Nat :=
  let x := laneAt s l
  match r with
  | 0x004 => sideStat x.e1 + 256 * sideStat x.e2 + flagAt (laneMaint s l) 16 + flagAt x.byp 17
  | 0x030 => (BitVec.ofInt 32 x.e1.mean).toNat
  | 0x034 => (BitVec.ofInt 32 x.e2.mean).toNat
  | 0x038 => x.e1.y
  | 0x03C => x.e2.y
  | 0x040 => repNom s l
  | _ => storedRead s (lanBase (laneIx l) + r)

/-- LAN, common. -/
def readLan (s : State) (r : Nat) : Nat :=
  match r with
  | 0x004 => b2n s.lan.fore + flagAt s.lan.foreValid 1
  | 0x010 => b2n s.lan.mdioBusy + flagAt s.lan.mdioDone 1 + 65536 * s.lan.mdioData.toNat
  | _ => storedRead s (0x5800 + r)

/-! ### PAT and TRN (04 R228, 05 R284) -/

/-- PAT. -/
def readPat (s : State) (r : Nat) : Nat :=
  match r with
  | 0x000 => patStat s
  | 0x004 => (swHoopNow s).toNat
  | 0x008 => swLast s
  | 0x00C => b2n (s.pat.hold && s.pat.holdClr.isNone) + flagAt (!s.reg.staged.isEmpty) 1
  | 0x010 => bandStart (nrowCode s) (bandFast s)
  | 0x014 => ((ownBudget s).map (·.hom)).getD 0 % 65536 + 65536 * accountPub s
  | 0x018 => ((ownBudget s).map (·.req)).getD 0 % 65536
  | 0x01C => ((ownBudget s).map (·.rsp)).getD 0 % 65536
  | 0x020 => demotedCount s
  | _ => if 0x040 ≤ r ∧ r < 0x080 then (slotRegs s ((r - 0x040) / 0x10)).getD (r % 0x10 / 4) 0 else storedRead s (0x6000 + r)

/-- TRN. -/
def readTrn (s : State) (r : Nat) : Nat :=
  match r with
  | 0x00C => trnStat s
  | 0x010 => s.trn.epoch.toNat
  | 0x014 => s.trn.oldEpoch.toNat
  | 0x018 => rolesWord s 0
  | 0x01C => rolesWord s 4
  | 0x020 => roleFlags s
  | 0x024 => s.trn.lastCause + 8 * s.trn.lastRestarts + 65536 * s.trn.lastDur
  | 0x028 => pinBits 2 (fun i => s.trn.cple.getD i false) + 4 * pinBits 2 (fun i => s.trn.cpleConf.getD i false)
  | _ =>
    if 0x100 ≤ r ∧ r < 0x140 then leNat ((List.range 4).map fun i => BitVec.ofNat 8 (s.trn.roster.getD (r - 0x100 + i) 0))
    else storedRead s (0x7000 + r)

/-! ### COH (06 R345, 08 R426) -/

/-- Busy home trackers of a kind. -/
def trksBusy (s : State) (k : TrkKind) : Nat := (trksOf s k).length

/-- COH. -/
def readCoh (s : State) (r : Nat) : Nat :=
  match r with
  | 0x004 => trksBusy s .general + 2 ^ 10 * trksBusy s .elder + 2 ^ 17 * trksBusy s .reserved
  | 0x008 => s.home.q0
  | 0x00C => reserveClaim s
  | 0x010 => s.home.filter.length + 2 ^ 14 * (s.home.filter.filter fun e => e.2.anchor).length
  | 0x014 => s.home.leases.length
  | 0x804 => (s.cc.ways.filter fun e => e.2.st != CState.i).length + 2 ^ 15 * s.cc.pins.length
  | 0x808 => (s.cc.pins.filter fun p => p.demoted).length
  | 0x824 => let w := wq s (regCur s 0x8820); min 65535 w.win + 65536 * min 65535 w.total
  | 0x828 => s.cc.lastErr.toNat
  | 0x834 => s.cc.passes
  | _ =>
    if 0x01C ≤ r ∧ r < 0x02C then (regionImage s (regCur s 0x8018)).getD ((r - 0x01C) / 4) 0
    else if 0x810 ≤ r ∧ r < 0x820 then wayCtl s ((r - 0x810) / 4)
    else storedRead s (0x8000 + r)

/-! ### CBP (11 R598) -/

/-- Code of PSTATE. -/
def canCode : CanState → Nat
  | .conf => 0
  | .integrating => 1
  | .active => 2
  | .passive => 3
  | .busOff => 4
  | .recovering => 5
  | .rom => 6

/-- CBPn_STAT. RXBUSY is 0 between the commands of this model, which take a frame whole (DEDUCED, log 83). -/
def canStat (s : State) (p : Nat) : Nat :=
  let c := portOf s p
  canCode c.st + flagAt (decide (96 ≤ max c.tecCnt c.recCnt)) 3 + flagAt c.sending.isSome 4 + flagAt c.shadow.isSome 6
    + 2 ^ 7 * c.bfifo.length + 2 ^ 12 * portHeld s p

/-- CBPn_NEWDATi, from the objects' own words. -/
def newDat (s : State) (p i : Nat) : Nat := (List.range 32).foldl (fun v b => v + flagAt (bitOf (objStat s p (32 * i + b)) 0) b) 0

/-- Port `p`'s registers. -/
def readPort (s : State) (p r : Nat) : Nat :=
  let c := portOf s p
  match r with
  | 0x004 => canStat s p
  | 0x014 => storedRead s (cbpBase p + 0x014) + 65536 * c.tdcv
  | 0x018 => c.tecCnt + 2 ^ 9 * (c.recCnt % 128) + flagAt (decide (128 ≤ c.recCnt)) 16 + 2 ^ 17 * c.lec
  | 0x054 => c.qtx.getD 0 0 + 4 * c.qtx.getD 1 0 + 16 * c.qtx.getD 2 0 + flagAt (queueMode s p && rbit s (cbpBase p + 8) 17) 8
  | _ =>
    if 0x030 ≤ r ∧ r < 0x040 then (if queueMode s p then 0 else newDat s p ((r - 0x030) / 4))
    else if 0x040 ≤ r ∧ r < 0x050 then bitsOf c.txpend.toNat (8 * (r - 0x040)) 32
    else if 0x058 ≤ r ∧ r < 0x060 then
      let q := c.rxq.getD ((r - 0x058) / 4) (0, 0, false)
      q.1 + 32 * q.2.1 + flagAt q.2.2 11
    else if 0x200 ≤ r then regCur s (cbpBase p + r) &&& filterMask s p (cbpBase p + r)
    else storedRead s (cbpBase p + r)

/-- The selected binding (11 R598). -/
def readBind (s : State) (j : Nat) : Nat :=
  match tget s.can.binds (regCur s 0x980C) with
  | none => 0
  | some e =>
    match j with
    | 0 => e.la + 2 ^ 24 + 2 ^ 25 * e.port + flagAt e.tx 26 + flagAt e.ide 27 + flagAt e.fd 28 + flagAt e.brs 29
        + flagAt (e.pend || e.wait.isSome) 30
    | 1 => e.id
    | 2 => e.off + 2 ^ 8 * e.len + 2 ^ 16 * e.ten + 2 ^ 20 * e.obj + flagAt e.sub 27
    | _ => e.ver.toNat

/-- CBP. -/
def readCbp (s : State) (r : Nat) : Nat :=
  if r < 0x400 then readPort s 0 r
  else if r < 0x800 then readPort s 1 (r - 0x400)
  else match r with
    | 0x800 => (tscNow s).toNat
    | 0x804 => s.can.tscSnap.toNat
    | 0x808 => s.can.binds.length + 65536 * (portHeld s 0 + portHeld s 1)
    | _ => if 0x810 ≤ r ∧ r < 0x820 then readBind s ((r - 0x810) / 4) else storedRead s (0x9000 + r)

/-! ### EVT, PMC, INT, KEE, DBG (12 R631, 13 R669, 08 R427) -/

/-- EVT. -/
def readEvt (s : State) (r : Nat) : Nat :=
  if 0x800 ≤ r ∧ r < 0x840 then bitsOf s.evt.pend.toNat (8 * (r - 0x800)) 32
  else if r = 0x884 then s.evt.last.toNat
  else storedRead s (0xA000 + r)

/-- The performance counter whose registers lie at `r`, by number (12 R631). -/
def pmcIx (r : Nat) : Option Nat :=
  if 0x100 ≤ r ∧ r < 0x200 then some ((r - 0x100) / 0x10)
  else if 0x200 ≤ r ∧ r < 0x600 then some (16 + (r - 0x200) / 0x10)
  else none

/-- PMC. -/
def readPmc (s : State) (r : Nat) : Nat :=
  match pmcIx r, r % 0x10 with
  | some i, 0x4 => (tgetD s.pmc.ctr i {}).val % 2 ^ 32
  | some i, 0x8 => (tgetD s.pmc.ctr i {}).hi
  | some i, 0xC => b2n (tgetD s.pmc.ctr i {}).ovf
  | _, _ => if r = 0x044 then s.pmc.buf.length + 65536 * s.pmc.sseq else storedRead s (0xB000 + r)

/-- Code of an injection state (13 R643). -/
def injCode : Inj → Nat
  | .none => 0
  | .oneShot => 1
  | .sticky => 2

/-- INT_BIST_STAT. -/
def bistStat (s : State) : Nat :=
  b2n s.int.next + flagAt s.int.fast 1 + flagAt s.int.ran 2 + 8 * s.int.lastRes + flagAt s.int.usedOk 5

/-- INT. -/
def readInt (s : State) (r : Nat) : Nat :=
  match r with
  | 0x000 => s.int.detStat.toNat % 2 ^ 32
  | 0x004 => s.int.detStat.toNat / 2 ^ 32
  | 0x024 => (Config.tj s.tm.clk).toNat
  | 0x02C => bistStat s
  | 0x030 => s.int.clamps.length + 65536 * s.int.dropped
  | 0x038 => s.int.gver
  | _ =>
    if 0x008 ≤ r ∧ r < 0x014 then (List.range 16).foldl (fun v i => v + injCode (injOf s (4 * (r - 0x008) + i)) * 4 ^ i) 0
    else if 0x200 ≤ r ∧ r < 0x600 then
      match s.int.clamps[(r - 0x200) / 0x10]? with
      | some c => leAt (clampBytes c) (r % 0x10) 4
      | none => 0
    else storedRead s (0xC000 + r)

/-- KEE. -/
def readKee (s : State) (r : Nat) : Nat :=
  match r with
  | 0x004 => b2n s.kee.busy + flagAt s.kee.done 1 + 16 * s.kee.err + 256 * s.kee.page
  | 0x008 => s.kee.wearReg % 2 ^ 24
  | 0x010 => s.kee.dieId.toNat % 2 ^ 32
  | 0x014 => s.kee.dieId.toNat / 2 ^ 32
  | 0x018 => s.kee.hk
  | 0x01C => b2n s.kee.patch + 65536 * s.kee.pv
  | 0x020 => s.int.bistPos + 256 * (leAt s.int.bistRec 0 4 % 2 ^ 24)
  | _ => storedRead s (0xD000 + r)

/-- DBG. -/
def readDbg (s : State) (r : Nat) : Nat :=
  if r = 0x004 then b2n s.dbg.halted + flagAt s.dbg.long 1 + flagAt s.dbg.dbgDis 2 + flagAt s.dbg.accessed 3 + 65536 * s.dbg.hoops
  else storedRead s (0xE000 + r)

/-! ### Tenant windows (09 R431, R489, R490) -/

/-- TEN_STAT. -/
def tenStat (s : State) (n : Nat) : Nat :=
  let t := tenOf s n
  t.sqHead + flagAt (ringEn s n) 12 + flagAt t.rst 13 + flagAt t.stall 14 + 2 ^ 15 * t.ovf.length + flagAt t.dmaErr 20
    + flagAt t.chainWait 21 + flagAt (isSpi s n) 22

/-- A word of the MSI-X table: bit 0 of each vector's fourth word is its mask. -/
def msixWord (s : State) (n i : Nat) : Nat :=
  let t := tenOf s n
  let v := (tgetD t.msixTab i 0).toNat
  if i % 4 = 3 then putBits v 0 1 (b2n (t.vecMask.getLsbD (i / 4))) else v

/-- The registers of tenant `n`'s window from 0200h on; what lies below reads 0. -/
def tenReg (s : State) (n r : Nat) : Nat :=
  if r < 0x200 then 0
  else if r = 0x280 then tenStat s n
  else if r = 0x284 then (tenOf s n).fence
  else if 0x1000 ≤ r ∧ r < 0x1080 then (if isSpi s n then 0 else msixWord s n ((r - 0x1000) / 4))
  else if r = 0x1800 then (if isSpi s n then 0 else (tenOf s n).pba.toNat)
  else if r = 0x1C04 then regHeld s (tenBase n + r) + 65536 * (tenOf s n).quota
  else if r = 0x424 ∧ !isSpi s n then 0
  else storedRead s (tenBase n + r)

/-- The tenant's own view: while it is not enabled only TEN_STAT (09 R431). -/
def ownRead (s : State) (n r : Nat) : Nat := if enabled s n ∨ r = 0x280 then tenReg s n r else 0

/-! ### The windows as a whole -/

/-- A word of the sample window: the oldest record at 20000h (12 R620). -/
def sampleWord (s : State) (a : Nat) : Nat :=
  match s.pmc.buf[a / 32]? with
  | some x => leAt x.2 (a % 32) 4
  | none => 0

/-- The steward window (15 R713), without side effects. -/
def readWord (s : State) (off : Nat) : Nat :=
  let r := off % 0x1000
  if 0x40000 ≤ off then (if off < 0x44000 then objMemRead s ((off - 0x40000) / 0x2000) (off % 0x2000) else 0)
  else if 0x20000 ≤ off then (if off < 0x22000 then sampleWord s (off - 0x20000) else 0)
  else if 0x10000 ≤ off then tenReg s ((off - 0x10000) / 0x2000) (off % 0x2000)
  else match off / 0x1000 with
    | 0x0 => readGlb s r
    | 0x1 => readPin s r
    | 0x2 => readPht s r
    | 0x3 => readPic s r
    | 0x4 => if r < 0x800 then readLane s .a r else readLane s .b (r - 0x800)
    | 0x5 => if r < 0x800 then readLane s .c r else readLan s (r - 0x800)
    | 0x6 => readPat s r
    | 0x7 => readTrn s r
    | 0x8 => readCoh s r
    | 0x9 => readCbp s r
    | 0xA => readEvt s r
    | 0xB => readPmc s r
    | 0xC => readInt s r
    | 0xD => readKee s r
    | 0xE => readDbg s r
    | _ => 0

end Sys2Proof.Machine
end

