-- ==== Sys2Proof/Machine/Device.lean ====
section
/-! DEFINITION. Register accesses with their side effects: writes to every register, reads that clear, latch or remove, and the rows of
the register interface (00 R9–R13; 09 R431, R490; 12 R601, R611–R615, R631; 14 R716; 15 R713–R718). -/

namespace Sys2Proof.Machine

/-! ### Actions of single registers -/

/-- EVT_PENDj: each 1 clears its bit (12 R601). -/
def evtClear (j v : Nat) (s : State) : State :=
  { s with evt := { s.evt with pend := s.evt.pend &&& ~~~(BitVec.ofNat 512 (v % 2 ^ 32 * 2 ^ (32 * j))) } }

/-- INT_DETSTATj: each 1 clears its bit. -/
def detClear (j v : Nat) (s : State) : State :=
  { s with int := { s.int with detStat := s.int.detStat &&& ~~~(BitVec.ofNat 48 (v % 2 ^ 32 * 2 ^ (32 * j))) } }

/-- PIC_CHn_STAT: each 1 clears its bit. -/
def picStatClear (n v : Nat) (s : State) : State :=
  modCh n (fun c => { c with empty := c.empty && !bitOf v 0, skip := c.skip && !bitOf v 1, ovf := c.ovf && !bitOf v 2 }) s

/-- A write to the selector of performance counter `i` clears the counter and its sticky bit (12 R611). -/
def pmcSelWrite (cause : ClampBy) (i v : Nat) (s : State) : State :=
  let s := regPutChecked cause (pmcSelOff i) v s
  { s with pmc := { s.pmc with ctr := tset s.pmc.ctr i { (tgetD s.pmc.ctr i {}) with val := 0, ovf := false } } }

/-- PMC_xx_STAT: 1 clears the sticky bit. -/
def pmcStatClear (i v : Nat) (s : State) : State :=
  if bitOf v 0 then { s with pmc := { s.pmc with ctr := tset s.pmc.ctr i { (tgetD s.pmc.ctr i {}) with ovf := false } } } else s

/-- A write of PMC_CTRL: EN, and with CLR every counter and sticky bit (12 R631). -/
def pmcCtrlWrite (cause : ClampBy) (v : Nat) (s : State) : State :=
  let s := regPutChecked cause 0xB000 v s
  if bitOf v 1 then { s with pmc := { s.pmc with ctr := s.pmc.ctr.map fun e => (e.1, { e.2 with val := 0, ovf := false }) } } else s

/-- A read of a counter's LO register latches its upper bits (12 R614). -/
def pmcLatch (i : Nat) (s : State) : State :=
  let c := tgetD s.pmc.ctr i {}
  { s with pmc := { s.pmc with ctr := tset s.pmc.ctr i { c with hi := c.val / 2 ^ 32 } } }

/-- KEE_CMD (08 R427). -/
def keeCmd (v : Nat) (s : State) : State :=
  match bitsOf v 8 2 with
  | 1 => keeRead (v % 256) s
  | 2 => keeWrite (v % 256) s
  | 3 => keeVerify s
  | _ => s

/-- A word of the MSI-X table: the mask is bit 0 of a vector's fourth word; an unmasked vector that is pending sends (12 R607). -/
def msixWrite (n i v : Nat) (s : State) : State :=
  let s := modTen n (fun t => { t with msixTab := tset t.msixTab i (word v) }) s
  if i % 4 = 3 then
    let b : BitVec 8 := BitVec.ofNat 8 (2 ^ (i / 4))
    msixFlush n (modTen n (fun t => { t with vecMask := if bitOf v 0 then t.vecMask ||| b else t.vecMask &&& ~~~b }) s)
  else s

/-! ### Writes by block -/

/-- A write to port `p`'s block. -/
def writePort (cause : ClampBy) (p r v : Nat) (s : State) : State :=
  match r with
  | 0x000 => ctrlWrite cause p v s
  | 0x008 => cfgWrite cause p v s
  | 0x00C | 0x010 | 0x014 => timingWrite p (cbpBase p + r) v s
  | 0x020 => objCmd p v s
  | 0x050 => qtxCmd p v s
  | 0x060 => rxqAck cause p 0 (v % 64) s
  | 0x064 => rxqAck cause p 1 (v % 64) s
  | _ => if 0x200 ≤ r then regPutChecked cause (cbpBase p + r) (v &&& filterMask s p (cbpBase p + r)) s else s

/-- A write to PMC. -/
def writePmc (cause : ClampBy) (r v : Nat) (s : State) : State :=
  match pmcIx r with
  | some i =>
    if r % 0x10 = 0 then pmcSelWrite cause i v s
    else if r % 0x10 = 0xC then pmcStatClear i v s
    else s
  | none => if r = 0 then pmcCtrlWrite cause v s else regPutChecked cause (0xB000 + r) v s

/-- A write by the tenant to its own window from 0040h on (09 R489). -/
def writeOwn (cause : ClampBy) (n r v : Nat) (s : State) : State :=
  if r = 0 then doorbell n (word v) s
  else if r = 4 then cqDoorbell n (word v) s
  else if 0x40 ≤ r ∧ r < 0xC0 then { s with ten := { s.ten with push := memPuts s.ten.push (0x80 * n + (r - 0x40)) (leBytes 4 v) } }
  else if r = 0x100 then tenPhase n (word v) s
  else if r = 0x200 then rctlWrite cause n (word v) s
  else if 0x1000 ≤ r ∧ r < 0x1080 then (if isSpi s n then s else msixWrite n ((r - 0x1000) / 4) v s)
  else if 0x200 ≤ r ∧ r < 0x400 then regPutChecked cause (tenBase n + r) v s
  else s

/-- A write in the steward's view to the steward registers of tenant `n`. -/
def writeSteward (cause : ClampBy) (n r v : Nat) (s : State) : State :=
  if r = 0x1C00 then sctrlWrite cause n (word v) s
  else if r = 0x1C04 ∨ r = 0x1C08 then regPutChecked cause (tenBase n + r) v s
  else s

/-- A write to the steward window at `off`, an aligned word, reachable and not gated (15 R713). Registers without an action of their own
are checked and stored (00 R13). -/
def writeAt (cause : ClampBy) (off v : Nat) (s : State) : State :=
  let r := off % 0x1000
  if 0x40000 ≤ off then (if off < 0x44000 then objMemWrite ((off - 0x40000) / 0x2000) (off % 0x2000) v s else s)
  else if 0x20000 ≤ off then s
  else if 0x10000 ≤ off then
    let n := (off - 0x10000) / 0x2000
    let r := off % 0x2000
    if 0x1C00 ≤ r then writeSteward cause n r v s
    else if n = 0 ∧ enabled s 0 then writeOwn cause 0 r v s
    else s
  else match off / 0x1000 with
    | 0x0 => if r = 0x00C then glbCtrlWrite cause v s else if r = 0x010 then glbReset v s else regPutChecked cause off v s
    | 0x1 => if r < 0x078 then muxWrite cause (r / 4) v s else regPutChecked cause off v s
    | 0x2 => if r = 0x010 then (if bitOf v 0 then phaseSnap s else s) else regPutChecked cause off v s
    | 0x3 =>
      if 0x100 ≤ r ∧ r < 0x400 then (if r % 0x20 = 0x14 then picStatClear ((r - 0x100) / 0x20) v s else s)
      else if 0x400 ≤ r ∧ r < 0x580 then (if r % 0x10 = 0x0C ∧ bitOf v 0 then capPop ((r - 0x400) / 0x10) s else s)
      else regPutChecked cause off v s
    | 0x4 =>
      if r = 0x000 then lanCtrlWrite cause .a (word v) s else if r = 0x800 then lanCtrlWrite cause .b (word v) s
      else regPutChecked cause off v s
    | 0x5 =>
      if r = 0x000 then lanCtrlWrite cause .c (word v) s else if r = 0x80C then mdioCmd (word v) s else regPutChecked cause off v s
    | 0x6 => if r = 0x00C then stageHold (word v) s else regPutChecked cause off v s
    | 0x8 => if 0x810 ≤ r ∧ r < 0x820 then wayCtlWrite cause ((r - 0x810) / 4) v s else regPutChecked cause off v s
    | 0x9 =>
      if r < 0x400 then writePort cause 0 r v s else if r < 0x800 then writePort cause 1 (r - 0x400) v s else regPutChecked cause off v s
    | 0xA => if 0x800 ≤ r ∧ r < 0x840 then evtClear ((r - 0x800) / 4) v s else regPutChecked cause off v s
    | 0xB => writePmc cause r v s
    | 0xC =>
      if r = 0x000 ∨ r = 0x004 then detClear (r / 4) v s
      else if r = 0x034 then (if bitOf v 0 then clampClear s else s)
      else regPutChecked cause off v s
    | 0xD => if r = 0x000 then keeCmd v s else regPutChecked cause off v s
    | _ => regPutChecked cause off v s

/-! ### An access as its agent makes it (15 R714–R716) -/

/-- ACCESS_ALIGN's event (00 R9). -/
def badAccess (off : Nat) (s : State) : State := raise 0 (detN 0 off) s

/-- The steward-window offset of a register that `w` names. -/
def absOff (w : Who) (off : Nat) : Nat :=
  match w with
  | .tenant n => tenBase n + off % 0x2000
  | _ => off

/-- A write by `w`: its offset in its own window, for a tenant the 8 KiB of 15 R715. -/
def writeBy (w : Who) (off v : Nat) (s : State) : State :=
  if !reachable s then s
  else if off % 4 ≠ 0 then badAccess (absOff w off) s
  else match w with
    | .tenant n =>
      if 8 ≤ n ∨ 0x1C00 ≤ off ∨ !enabled s n then s
      else gatedWrite (tenBase n + off) (writeOwn (byWho w) n off v) s
    | _ => gatedWrite off (writeAt (byWho w) off v) s

/-- The value of an aligned word at `off` as `w` sees it. -/
def readBy (s : State) (w : Who) (off : Nat) : Nat :=
  match w with
  | .tenant n => if off < 0x2000 ∧ n < 8 then ownRead s n off else 0
  | _ => readWord s off

/-- A software read of a counter clears it (00 R12): not in the steward's view of T1 to T7 (09 R490), not in a gated block, which holds
its values (14 R696; DEDUCED, log 85), and not in the window of a tenant that is not enabled. -/
def clears (s : State) (w : Who) (off : Nat) : Bool :=
  let a := absOff w off
  isCounter a && !gateShut s a && (match w with
    | .tenant n => enabled s n && decide (off < 0x2000)
    | _ => !(decide (0x12000 ≤ a) && decide (a < 0x20000)))

/-- The side effects of a software read: a counter clears, a counter's LO register latches. -/
def readEffect (w : Who) (off : Nat) (s : State) : State :=
  let a := absOff w off
  if clears s w off then ctrClear a s
  else match (if 0xB000 ≤ a ∧ a < 0xC000 then pmcIx (a % 0x1000) else none) with
    | some i => if a % 0x10 = 4 then pmcLatch i s else s
    | none => s

/-- A software read: its data leaves, then its side effects. -/
def readOut (w : Who) (off : Nat) (s : State) : State :=
  if !reachable s then s
  else if off % 4 ≠ 0 then badAccess (absOff w off) { s with out := .regData off 0 :: s.out }
  else readEffect w off { s with out := .regData off (word (readBy s w off)) :: s.out }

/-! ### The rows -/

/-- REGISTER_WRITE. -/
def execRegisterWrite (w : Who) (off : Nat) (v : Word) (s : State) : Out3 := .next (writeBy w off v.toNat s)

/-- ACCESS_ALIGN: a write is ignored, a read returns 0 (00 R9). -/
def execAccessAlign (w : Who) (off : Nat) (wr : Bool) (s : State) : Out3 :=
  .next (if !reachable s then s else badAccess (absOff w off) (if wr then s else { s with out := .regData off 0 :: s.out }))

/-- RC_READ: of a register that is no RC register, the read has no such effect (log 44). -/
def execRcRead (w : Who) (off : Nat) (s : State) : Out3 := .next (if isCounter (absOff w off) then readOut w off s else s)

/-- PMC_LO_READ. -/
def execPmcLoRead (w : Who) (off : Nat) (s : State) : Out3 :=
  .next (if stewardly w ∧ 0xB100 ≤ off ∧ off < 0xB600 ∧ off % 0x10 = 4 then readOut w off s else s)

/-- PMC_SEL_WRITE. -/
def execPmcSelWrite (w : Who) (off : Nat) (v : Word) (s : State) : Out3 :=
  .next (if mayWrite w s ∧ 0xB100 ≤ off ∧ off < 0xB600 ∧ off % 0x10 = 0 then
    (match pmcIx (off % 0x1000) with
      | some i => pmcSelWrite (byWho w) i v.toNat s
      | none => s)
  else s)

/-- PMC_CTRL_CLR. -/
def execPmcCtrlClr (w : Who) (v : Word) (s : State) : Out3 := .next (if mayWrite w s then pmcCtrlWrite (byWho w) v.toNat s else s)

/-- The performance events that count in every CORE cycle (12 R616). -/
def cycleEvent (e : Nat) : Bool := [0, 6, 7, 40, 54, 70, 86].contains e

/-- PMC_CYCLE_WRAP: the counter passed its end in cycles that went by with nothing else to take (12 R613; DESIGN CHOICE, log 86). -/
def execPmcCycleWrap (i : Nat) (s : State) : Out3 :=
  .next (if i < 80 ∧ pmcOn s i ∧ cycleEvent (rfld s (pmcSelOff i) 0 8) then
    raise 456 (detN i 0) { s with pmc := { s.pmc with ctr := tset s.pmc.ctr i { (tgetD s.pmc.ctr i {}) with val := 0, ovf := true } } }
  else s)

/-- EVT_PEND_CLEAR. -/
def execEvtPendClear (w : Who) (j : Nat) (v : Word) (s : State) : Out3 :=
  .next (if mayWrite w s ∧ j < 16 then evtClear j v.toNat s else s)

/-- GLB_RUN: a write of GLB_CTRL with RUN = 1 (14 R692). -/
def execGlbRun (v : Word) (s : State) : Out3 := .next (if reachable s ∧ v.getLsbD 0 then glbCtrlWrite { kind := 0 } v.toNat s else s)

/-- GLB_AUTOSTART_WRITE. -/
def execGlbAutostartWrite (w : Who) (v : Word) (s : State) : Out3 := .next (if mayWrite w s then glbCtrlWrite (byWho w) v.toNat s else s)

/-- GLB_RESET. -/
def execGlbReset (w : Who) (v : Word) (s : State) : Out3 := .next (if mayWrite w s then glbReset v.toNat s else s)

end Sys2Proof.Machine
end

