-- ==== Sys2Proof/Machine/Health.lean ====
section
/-! DEFINITION. The health commands 50h–57h (10 R550–R554; 12 R620; 13 R639, R643, R648). -/

namespace Sys2Proof.Machine

/-- A health command is performed: its job, where the sequencer serves it. -/
def healthJob (b op : Nat) (go : Bobbin → State → State) (s : State) : State :=
  match readyJob s b op with
  | none => s
  | some v => if serving s then go v s else s

/-! ### COUNTER_READ (10 R550, R551) -/

/-- The counters a COUNTER_READ names: global, the tenant's own, or those of tenant TEN. -/
def counterList (j : Job) : List Nat :=
  let first := argB j 1
  let base := match argB j 0 with
    | 0 => 0
    | 1 => 16 + 8 * j.ten
    | _ => 16 + 8 * argB j 3
  (List.range (argB j 2)).map (base + first + ·)

/-- The eight bytes of a counter. -/
def counterBytes (s : State) (i : Nat) : List Byte :=
  let c := tgetD s.pmc.ctr i {}
  leBytes 6 c.val ++ leBytes 1 (b2n c.ovf) ++ leBytes 1 (rfld s (pmcSelOff i) 0 8)

/-- A counter's sticky bit cleared. -/
def clearSticky (s : State) (i : Nat) : State :=
  { s with pmc := { s.pmc with ctr := tset s.pmc.ctr i { (tgetD s.pmc.ctr i {}) with ovf := false } } }

/-- The counters are read, and CLRSTICKY then clears their sticky bits. -/
def counterRead (b : Nat) (v : Bobbin) (s : State) : State :=
  let l := counterList v.job
  let out := (l.map (counterBytes s)).flatten
  jobDone b l.length 0 (some out) (if bitOf (argB v.job 4) 0 then each l clearSticky s else s)

def execCounterRead (b : Nat) (s : State) : Out3 := .next (healthJob b 0x50 (counterRead b) s)

/-! ### SAMPLE_DRAIN (10 R551, 12 R620) -/

/-- The records that tenant `t` sees: T0 all, another tenant those of its own commands. -/
def sampleSeen (t : Nat) (x : Nat × List Byte) : Bool := t == 0 || (x.1 == t && !bitOf (leAt x.2 7 1) 7)

/-- The first `n` records that `t` sees are taken: those taken, and the buffer that is left. -/
def sampleTake (t : Nat) : Nat → List (Nat × List Byte) → List (Nat × List Byte) × List (Nat × List Byte)
  | _, [] => ([], [])
  | n, x :: xs =>
    if n ≠ 0 ∧ sampleSeen t x then
      let r := sampleTake t (n - 1) xs
      (x :: r.1, r.2)
    else
      let r := sampleTake t n xs
      (r.1, x :: r.2)

/-- A buffer with records removed samples again. -/
def setSamples (l : List (Nat × List Byte)) (s : State) : State :=
  { s with pmc := { s.pmc with buf := l, full := s.pmc.full && decide (256 ≤ l.length) } }

/-- The oldest records, each removed. -/
def sampleDrain (b : Nat) (v : Bobbin) (s : State) : State :=
  let t := v.job.ten
  let r := sampleTake t (argN v.job 0 2) s.pmc.buf
  jobDone b r.1.length (r.2.filter (sampleSeen t)).length (some ((r.1.map (·.2)).flatten)) (setSamples r.2 s)

def execSampleDrain (b : Nat) (s : State) : Out3 := .next (healthJob b 0x51 (sampleDrain b) s)

/-! ### CLAMP_LOG_READ (10 R552) -/

/-- A record as tenant `t` sees it: 0 in place of another's register write or command. A place without a record reads 0 (DESIGN CHOICE,
log 87). -/
def clampSeen (s : State) (t k : Nat) : List Byte :=
  match s.int.clamps[k]? with
  | none => leBytes 16 0
  | some c => if t = 0 ∨ 2 ≤ c.kind ∨ (c.ten = t ∧ !c.debug) then clampBytes c else leBytes 16 0

/-- The records read, and the log emptied after the read by CLEAR. -/
def clampLogRead (b : Nat) (v : Bobbin) (s : State) : State :=
  let j := v.job
  let out := ((List.range (argB j 1)).map fun i => clampSeen s j.ten (argB j 0 + i)).flatten
  jobDone b s.int.clamps.length 0 (some out) (if bitOf (argB j 2) 0 then clampClear s else s)

def execClampLogRead (b : Nat) (s : State) : Out3 := .next (healthJob b 0x52 (clampLogRead b) s)

/-! ### INJECT (13 R639, R643) -/

/-- A detector's injection state set. -/
def setInj (d : Nat) (i : Inj) (s : State) : State :=
  { s with int := { s.int with inj := if i = .none then tdel s.int.inj d else tset s.int.inj d i } }

/-- Arming a SAFE detector in ACQUIRE, INAUG or RUN needs RUN_SAFE_EN. -/
def injectDenied (s : State) (d mode : Nat) : Bool :=
  mode != 0 && detSafe d && !rbit s 0xC014 0 && s.dev.st != .standby

/-- INJECT: the state after the command is its result. -/
def injectJob (b : Nat) (v : Bobbin) (s : State) : State :=
  let d := argB v.job 0
  let mode := argB v.job 1
  if injectDenied s d mode then jobFail b stDenied s
  else jobDone b mode 0 none (setInj d (match mode with
    | 0 => .none
    | 1 => .oneShot
    | _ => .sticky) s)

def execInject (b : Nat) (s : State) : Out3 := .next (healthJob b 0x53 (injectJob b) s)

/-! ### BIST_SCHEDULE, BIST_RESULT, SHUTDOWN, ECHO (10 R550, R553, R554; 01 R45) -/

/-- The flag for BIST at the next shutdown. -/
def setNext (n : Bool) (s : State) : State := { s with int := { s.int with next := n } }

/-- BIST_SCHEDULE: CLEAR prevails; SET in RUN completes with BUSY_RUN and sets the flag. -/
def bistSchedule (b : Nat) (v : Bobbin) (s : State) : State :=
  let f := argB v.job 0
  if bitOf f 1 then jobDone b 0 0 none (setNext false s)
  else if bitOf f 0 then
    let t := setNext true s
    if s.dev.st = .run then complete b { status := stBusyRun, res0 := 1 } t else jobDone b 1 0 none t
  else jobDone b (b2n s.int.next) 0 none s

def execBistSchedule (b : Nat) (s : State) : Out3 := .next (healthJob b 0x54 (bistSchedule b) s)

/-- BIST_RESULT. -/
def bistResult (b : Nat) (s : State) : State :=
  let pass := !s.int.bistRec.isEmpty && s.int.lastRes == 0
  jobDone b (b2n pass + flagAt s.int.bistFresh 1 + flagAt s.int.ran 2) (leAt s.int.bistRec 0 4) (some (slice s.int.bistRec 0 256)) s

def execBistResult (b : Nat) (s : State) : Out3 := .next (healthJob b 0x55 (fun _ => bistResult b) s)

/-- SHUTDOWN: its completion is written first, and it is not itself in flight. -/
def shutdownJob (b : Nat) (v : Bobbin) (s : State) : State :=
  let s := jobDone b 0 0 none s
  enterShutdown { s with int := { s.int with noBist := bitOf (argB v.job 0) 0 } }

def execShutdown (b : Nat) (s : State) : Out3 := .next (healthJob b 0x56 (shutdownJob b) s)

/-- ECHO. -/
def echoJob (b : Nat) (v : Bobbin) (s : State) : State :=
  jobDone b (argN v.job 0 4) (argN v.job 4 8) (some (slice v.job.arg 0 (min 32 v.job.alen))) s

def execEcho (b : Nat) (s : State) : Out3 := .next (healthJob b 0x57 (echoJob b) s)

end Sys2Proof.Machine
end

