-- ==== Sys2Proof/Machine/Debug.lean ====
section
/-! DEFINITION. The debug port: register accesses, and halting the command sequencer (12 R621–R630). -/

namespace Sys2Proof.Machine

/-! ### DAPACC (12 R621–R624, R630) -/

/-- What the next Capture-DR returns: STATUS, and DATA for a read. -/
def dapEnd (status : Nat) (data : Word) (s : State) : State := { s with dbg := { s.dbg with status := status, data := data } }

/-- The first access since reset is noted, and raises DBG_ATTACH (12 DBG_STAT, event 15). -/
def dapNote (s : State) : State :=
  if s.dbg.accessed then s else raise 15 detNone { s with dbg := { s.dbg with accessed := true } }

/-- A read with TAKE acts as a software read; in the sample window it removes the record it reads (12 R620, R622; DEDUCED, log 75). -/
def dapTake (a : Nat) (s : State) : State :=
  if 0x20000 ≤ a ∧ a < 0x22000 then setSamples (s.pmc.buf.eraseIdx ((a - 0x20000) / 32)) s else readEffect .debug a s

/-- A read: a peek has no side effect but the latch of a counter's LO register (12 R614, R622). -/
def dapRead (a : Nat) (take : Bool) (s : State) : State :=
  if take ∧ !rbit s 0xE000 3 then dapEnd 3 s.dbg.data s
  else
    let v := word (readWord s a)
    let s := dapEnd 0 v { s with out := .regData a v :: s.out }
    if take then dapTake a s
    else if 0xB000 ≤ a ∧ a < 0xC000 ∧ a % 0x10 = 4 then readEffect .debug a s
    else s

/-- A write, as a steward write (12 R623). -/
def dapWrite (a : Nat) (data : Word) (s : State) : State :=
  if rbit s 0xE000 2 then writeBy .debug a data.toNat (dapEnd 0 s.dbg.data s) else dapEnd 3 s.dbg.data s

/-- DAPACC: ADDR is 20 bits, its lowest two ignored. -/
def execDapacc (addr : Nat) (wr take : Bool) (data : Word) (s : State) : Out3 :=
  .next (
    let a := addr % 2 ^ 20 / 4 * 4
    if s.dbg.dbgDis then dapEnd 3 s.dbg.data s
    else if !reachable s then dapEnd 2 s.dbg.data s
    else
      let s := dapNote s
      if wr then dapWrite a data s else dapRead a take s)

/-! ### Halts (12 R625–R627) -/

/-- DBG_HALT: the halt takes effect at a job boundary. Each command of this model runs whole, so one lies between any two. -/
def execDbgHalt (s : State) : Out3 :=
  .next (if s.dbg.dbgDis ∨ s.dbg.halted ∨ !serving s then s
  else raise 13 (detST 0 1) (count 0xE008 1 { s with dbg := { s.dbg with halted := true, long := false, step := false, hoops := 0 } }))

/-- DBG_RESUME. -/
def execDbgResume (s : State) : Out3 :=
  .next (if s.dbg.dbgDis ∨ !s.dbg.halted then s
  else raise 13 (detST 1 0) { s with dbg := { s.dbg with halted := false, long := false, step := false, hoops := 0 } })

/-- DBG_STEP: one job may be fetched while the sequencer stays halted. -/
def execDbgStep (s : State) : Out3 :=
  .next (if s.dbg.dbgDis ∨ !s.dbg.halted then s else { s with dbg := { s.dbg with step := true } })

/-- DBG_HALT_LONG: the halt has lasted a row hoop. -/
def execDbgHaltLong (s : State) : Out3 :=
  .next (if s.dbg.halted ∧ !s.dbg.long ∧ 1 ≤ s.dbg.hoops then
    raise 14 (detN 0 s.dbg.hoops) { s with dbg := { s.dbg with long := true } }
  else s)

end Sys2Proof.Machine
end

