-- ==== Sys2Proof/Machine/Spi.lean ====
section
/-! DEFINITION. The quad-SPI ports: frames on the ring RAM and the tenant window, the port status and the port reset (09 R438–R446). -/

namespace Sys2Proof.Machine

/-! ### Frames (09 R439–R443) -/

/-- Port `p` takes frames: it is attached, and registers are within reach (09 R429; 14 R716). -/
def portHears (s : State) (p : Nat) : Bool := decide (p < 4) && isSpi s (4 + p) && reachable s

/-- TEN_S_SPICFG.CRC of port `p`. -/
def spiCrcOn (s : State) (p : Nat) : Bool := rbit s (tenBase (4 + p) + 0x1C08) 0

/-- The bytes that a frame's CRC covers before its data: CMD and the header (09 R441). -/
def spiHead (op : Nat) (f : SpiFrame) : List Byte :=
  leBytes 1 (64 * (f.width % 4) + op) ++ beBytes 2 f.a ++ leBytes 1 f.len

/-- Two CRC bytes, most significant first (09 R441). -/
def spiCrc (op : Nat) (f : SpiFrame) (data : List Byte) : List Byte := beBytes 2 (crc16 (spiHead op f ++ data))

/-- The checks of a write frame's length and CRC (09 R442). -/
def spiWriteOk (s : State) (op : Nat) (f : SpiFrame) : Bool :=
  f.data.length == f.len % 256 + 1
    && (if spiCrcOn s f.port then f.crc == some (BitVec.ofNat 16 (crc16 (spiHead op f ++ f.data))) else f.crc == none)

/-- FRAME_ERR set. -/
def spiErr (p : Nat) (s : State) : State := modTen (4 + p) (fun t => { t with frameErr := true }) s

/-- A write frame that fails a check is discarded, counted in SPI_FRAME_BAD, and sets FRAME_ERR (09 R442). -/
def spiBad (p : Nat) (s : State) : State := spiErr p (count (tenBase (4 + p) + 0x424) 1 s)

/-- Bytes a read frame returned, with the CRC where it is enabled (09 R441, R443). -/
def spiOut (op : Nat) (f : SpiFrame) (data : List Byte) (s : State) : State :=
  let crc := if spiCrcOn s f.port then spiCrc op f data else []
  { s with out := .spi f.port (data ++ crc) :: s.out }

/-- A frame on a port that takes frames: one with an invalid width is ignored and sets FRAME_ERR; any other counts as perf event 130 and
acts (09 R440, R443; 12 R616). -/
def spiFrame (f : SpiFrame) (go : State → State) (s : State) : State :=
  if !portHears s f.port then s
  else if 3 ≤ f.width then spiErr f.port s
  else go (perf 130 (some (4 + f.port)) s)

/-! ### Ring RAM (09 R446) -/

/-- RAM_WRITE. -/
def execRamWrite (f : SpiFrame) (s : State) : Out3 :=
  .next (spiFrame f (fun s => if spiWriteOk s 1 f then tenStore (4 + f.port) f.a f.data s else spiBad f.port s) s)

/-- RAM_READ. -/
def execRamRead (f : SpiFrame) (s : State) : Out3 :=
  .next (spiFrame f (fun s => spiOut 2 f (ramBytes s (4 + f.port) f.a (f.len % 256 + 1)) s) s)

/-! ### The tenant window (09 R431, R440, R443) -/

/-- Words of `data` written to ascending registers from `off`. -/
def spiWords (t off : Nat) (data : List Byte) : Nat → State → State
  | 0, s => s
  | n + 1, s => spiWords t (off + 4) (data.drop 4) n (writeBy (.tenant t) off (leAt data 0 4) s)

/-- REG_WRITE. -/
def execRegWrite (f : SpiFrame) (s : State) : Out3 :=
  .next (spiFrame f (fun s =>
    if spiWriteOk s 3 f ∧ f.a % 4 = 0 ∧ (f.len + 1) % 4 = 0 then spiWords (4 + f.port) f.a f.data ((f.len % 256 + 1) / 4) s
    else spiBad f.port s) s)

/-- Registers from `off` read once each, ascending, with the side effects of 00 R12: the bytes and the state after. -/
def spiRegs (t off : Nat) : Nat → State → List Byte × State
  | 0, s => ([], s)
  | n + 1, s =>
    let r := spiRegs t (off + 4) n (readEffect (.tenant t) off s)
    (leBytes 4 (readBy s (.tenant t) off) ++ r.1, r.2)

/-- REG_READ. An access that is not aligned, and the rest of a read that ends within a register, read zeros (00 R9). -/
def execRegRead (f : SpiFrame) (s : State) : Out3 :=
  .next (spiFrame f (fun s =>
    let n := f.len % 256 + 1
    if f.a % 4 ≠ 0 then spiOut 4 f (leBytes n 0) (badAccess (absOff (.tenant (4 + f.port)) f.a) s)
    else
      let r := spiRegs (4 + f.port) f.a (n / 4) s
      let rest := absOff (.tenant (4 + f.port)) (f.a + n / 4 * 4)
      spiOut 4 f (r.1 ++ leBytes (n % 4) 0) (if n % 4 = 0 then r.2 else badAccess rest r.2)) s)

/-! ### STATUS and PORT_RESET (09 R440, R445, R478) -/

/-- The port status word. -/
def portStatus (s : State) (p : Nat) : Nat :=
  let t := tenOf s (4 + p)
  b2n (enabled s (4 + p) && !t.rst) + flagAt t.rst 1 + flagAt t.frameErr 2 + flagAt (t.cqTail != t.cqHead) 3 + 256 * (t.fence % 256)

/-- STATUS: A and LEN are ignored; FRAME_ERR is cleared by the read. -/
def execStatus (f : SpiFrame) (s : State) : Out3 :=
  .next (spiFrame f (fun s =>
    modTen (4 + f.port) (fun t => { t with frameErr := false }) (spiOut 5 f (leBytes 4 (portStatus s f.port)) s)) s)

/-- PORT_RESET: with any other A or LEN, or with data, it is not accepted; the frame is invalid then (DEDUCED, log 88). -/
def execPortReset (f : SpiFrame) (s : State) : Out3 :=
  .next (spiFrame f (fun s =>
    if f.a = 0xA5A5 ∧ f.len = 0x5A ∧ f.data.isEmpty then beginReset (4 + f.port) s else spiErr f.port s) s)

/-- SPI_FRAME_INVALID. -/
def execSpiFrameInvalid (port : Nat) (s : State) : Out3 := .next (if portHears s port then spiErr port s else s)

end Sys2Proof.Machine
end

