-- ==== Sys2Proof/Machine/Start.lean ====
section
/-! DEFINITION. Supplies, RESET#, START, the shutdown sequence and the BIST (01 R42–R50; 08 R410–R428; 13 R642, R649–R664; 14 R684–R692). -/

namespace Sys2Proof.Machine

/-! ### Supplies and RESET# (14 R685–R691) -/

/-- Bit of a rail in GLB_RAILS. -/
def railIx : Rail → Nat
  | .core => 0
  | .a18 => 1
  | .io33 => 2
  | .rg => 3

/-- POWER_UP_START: the rails are valid and RESET# is released. START begins from OFF, and after a RESET# that was held; the straps are
latched. Where neither was so the state stays (log 44). -/
def execPowerUpStart (straps : BitVec 4) (s : State) : Out3 :=
  .next (match s.dev.st with
    | .off =>
      resetState 0 straps { s with dev := { s.dev with
        rails := 0xF, window := 0xF, wasSafe := false, safeDet := 0, started := false, startFast := false } }
    | .start => if s.dev.resetLow then resetState s.dev.cause straps s else s
    | _ => s)

/-- RAIL_FALL: the node is OFF while any rail is not valid (14 R686). -/
def execRailFall (r : Rail) (s : State) : Out3 :=
  let b : BitVec 4 := BitVec.ofNat 4 (2 ^ railIx r)
  .next (turnOff { s with dev := { s.dev with rails := s.dev.rails &&& ~~~b, window := s.dev.window &&& ~~~b } })

/-- RESET_ASSERT: the present state is abandoned; with the rails valid the device is in START until RESET# is released, and no function
runs (14 R688). -/
def execResetAssert (s : State) : Out3 :=
  .next (
    if s.dev.st = .off then s
    else
      let r := resetState 1 s.dev.straps s
      { r with dev := { r.dev with resetLow := true } })

/-! ### What START finds in the keep store (08 R413–R418; 13 R649, R660) -/

/-- The valid item with the newest SEQ, of items with their SEQ (08 R413). -/
def newestOf (l : List (Nat × Word)) : Option (Nat × Word) :=
  l.foldl (fun (a : Option (Nat × Word)) (x : Nat × Word) => match a with
    | none => some x
    | some y => if newer x.2 y.2 then some x else some y) none

/-- SEQ in bytes 0–3. -/
def seqOf (bs : List Byte) : Word := word (leAt bs 0 4)

/-- The newest valid BIST record: its page and SEQ. -/
def newestBist (s : State) : Option (Nat × Word) :=
  newestOf (((List.range 32).map (224 + ·)).filterMap fun p =>
    if sealed (pageOf s p) && !s.kee.badPages.contains p then some (p, seqOf (pageOf s p)) else none)

/-- The newest valid record of the fault history. -/
def newestFault (s : State) : Option (Nat × Word) :=
  newestOf ((List.range 48).filterMap fun i =>
    let r := slice (pageOf s (2 + i / 8)) (32 * (i % 8)) 32
    if sealed r && !s.kee.badPages.contains (2 + i / 8) then some (i, seqOf r) else none)

/-- A BIST record's RESULT. -/
def bistResultOf (bs : List Byte) : Nat := bitsOf (leAt bs 4 1) 2 2

/-- A BIST record is fresh (13 R660): its USED mark is clear, ORIGIN is SHUTDOWN, RESULT is PASS, and its GVER is the fuses'. -/
def bistIsFresh (s : State) (p : Nat) : Bool :=
  let bs := pageOf s p
  bitsOf (leAt bs 4 1) 0 2 == 0 && bistResultOf bs == 0 && leAt bs 5 1 == s.int.gver && !s.kee.used.contains p

/-- Steps 2 and 3 of START: the identity, the sequence numbers, the BIST record and its USED mark (08 R413, R414; 13 R660–R662). -/
def startRead (idp : Nat) (s : State) : State :=
  let id := pageOf s idp
  let s := regSet 0x7008 (leAt id 10 2) s
  let s := { s with kee := { s.kee with
    dieId := BitVec.ofNat 64 (leAt id 0 8), hk := leAt id 8 1
    faultSeq := match newestFault s with
      | some x => x.2 + 1
      | none => 1
    bistSeq := match newestBist s with
      | some x => x.2 + 1
      | none => 1 } }
  match newestBist s with
  | none => { s with int := { s.int with bistRec := [], bistFresh := false, fast := false, ran := true, lastRes := 0, usedOk := false } }
  | some x =>
    let f := bistIsFresh s x.1
    { s with
      int := { s.int with
        bistRec := pageOf s x.1, bistPos := x.1 - 224, bistFresh := f, fast := f, ran := !f, lastRes := bistResultOf (pageOf s x.1)
        usedOk := true }
      kee := { s.kee with used := x.1 :: s.kee.used.filter (· != x.1) } }

/-! ### BIST records (08 R417, 13 R659) -/

/-- The bytes of a BIST record. Its times, its temperature and its signatures are free values (log 13, 15). -/
def bistBytes (s : State) (origin result why : Nat) (lb : BitVec 12) (mb : BitVec 20) (wqs : BitVec 64) (hoop epoch : Word) : List Byte :=
  let q := s.kee.bistSeq
  let tj := ((Config.tj s.tm.clk).toInt / 16 + 64) % 256
  let misr := ((List.range 12).map fun i => leBytes 8 (Config.misr i q).toNat).flatten
  withCrc (leBytes 4 q.toNat ++ leBytes 1 (origin + 4 * result + 16 * why) ++ leBytes 1 s.int.gver ++ leBytes 2 lb.toNat ++ leBytes 4 mb.toNat
    ++ leBytes 4 hoop.toNat ++ leBytes 4 epoch.toNat ++ leBytes 2 (Config.bistTime 0 q).toNat ++ leBytes 2 (Config.bistTime 1 q).toNat
    ++ leBytes 1 tj.toNat ++ leBytes 7 0 ++ misr ++ leBytes 8 wqs.toNat ++ leBytes 116 0)

/-- The junction is above 85 °C (08 R420). -/
def isHot (s : State) : Bool := decide (85 * 16 < (Config.tj s.tm.clk).toInt)

/-- The record of START's BIST, written and counted (13 R662 step 5). -/
def startRecord (lb : BitVec 12) (mb : BitVec 20) (wqs : BitVec 64) (s : State) : State :=
  let fail := lb != 0 || mb != 0
  let bs := bistBytes s 1 (b2n fail) (if fail then 4 else 0) lb mb wqs 0 0
  let p := 224 + s.kee.bistSeq.toNat % 32
  let s := count 0xD080 1 (addWear p (isHot s) (putPage p bs s))
  { s with kee := { s.kee with bistSeq := s.kee.bistSeq + 1 } }

/-! ### The outcome of BIST at START (13 R636, R663) -/

/-- The lowest set bit of a number below 64 bits. -/
def lowBit (v : Nat) : Nat := ((List.range 64).find? fun i => bitOf v i).getD 0

/-- Way-quadrants named in `wqs` of quadrant `q`. -/
def wqLost (wqs : BitVec 64) (q : Nat) : Nat := ((List.range 16).filter fun w => wqs.getLsbD (w * 4 + q)).length

/-- The failing way-quadrants are OFF by AUTO. -/
def wqsOff (wqs : BitVec 64) (s : State) : State :=
  each ((List.range 64).filter fun i => wqs.getLsbD i) (fun s i => modWq i (fun w => { w with st := .offAuto, auto := true }) s) s

/-- D44, D45, D46, or none; the index is the lowest failing partition, way-quadrant or group (DESIGN CHOICE, log 89). -/
def bistOutcome (lb : BitVec 12) (mb : BitVec 20) (wqs : BitVec 64) (s : State) : State :=
  if lb != 0 then fire 44 (lowBit lb.toNat) 0 false s
  else if mb = 0 then s
  else if mb.toNat / 4 = 0 then
    if (List.range 4).any (fun q => decide (12 < wqLost wqs q)) then fire 46 (lowBit mb.toNat) 0 false s
    else fire 45 (lowBit wqs.toNat) 0 false (wqsOff wqs s)
  else fire 46 (lowBit (mb.toNat / 4) + 2) 0 false s

/-- Firing detectors of START: the record of the firing, then the reaction, SAFE included. -/
def startBist (lb : BitVec 12) (mb : BitVec 20) (wqs : BitVec 64) (s : State) : State :=
  if s.int.fast then s else bistOutcome lb mb wqs (startRecord lb mb wqs s)

/-! ### Steps 6 to 8 of START -/

/-- The clamp log restored (13 R649). -/
def logRestore (s : State) : State :=
  let b := logNewB s
  if !logValid s b then s
  else
    let bs := logCopy s b
    let rs := (List.range (leAt bs 4 1)).map fun i => clampRead (slice bs (8 + 16 * i) 16)
    { s with int := { s.int with clamps := rs, dropped := leAt bs 6 2, logSeq := seqOf bs } }

/-- PATCH_MIN raised to PV in the identity page, in the older copy, with the next SEQ (08 R413, R416). -/
def raisePatchMin (idp pv : Nat) (s : State) : State :=
  let bs := splice (splice (pageOf s idp) 44 (leBytes 2 pv)) 248 (leBytes 4 (leAt (pageOf s idp) 248 4 + 1))
  keepAsk (.node (1 - idp) (withCrc (bs.take 252))) s

/-- The patch verified, and run or rejected (08 R416). A patch area without its MAGIC holds no patch (DEDUCED, log 90). -/
def startPatch (idp : Nat) (s : State) : State :=
  let pv := leAt (patchImage s) 2 2
  if leAt (patchImage s) 0 2 ≠ 0x5A73 then s
  else if !patchOk s then raise 6 (detN pv 0) s
  else
    let s := { s with kee := { s.kee with patch := true, pv := pv } }
    if patchMin s < pv then raisePatchMin idp pv s else s

/-- A slot checked; one that fails raises PAT_INVALID (04 R208). A page that cannot be read fails the digest. -/
def startSlot (s : State) (i : Nat) : State :=
  let s := checkSlot i s
  let x := s.pat.slots.getD i {}
  let bad := s.kee.badPages.any fun p => decide (32 + 32 * i ≤ p ∧ p < 64 + 32 * i)
  let c := if x.valid && bad then 3 else x.lastFail
  let s := { s with pat := { s.pat with slots := s.pat.slots.set i { valid := x.valid && !bad, lastFail := c } } }
  if x.valid && !bad then s else raise 224 (detN i c) s

/-! ### The commissioning image (08 R415) -/

/-- Copy `b` of the image: page 8 or 16. -/
def imageCopy (s : State) (b : Bool) : List Byte := memGets s.kee.mem (if b then 0x1000 else 0x800) 2048

/-- A copy is valid: MAGIC, FORMAT, its length, and the CRC in the last four of its L bytes (DEDUCED, log 91). -/
def imageValid (s : State) (b : Bool) : Bool :=
  let bs := imageCopy s b
  let l := leAt bs 8 2
  let p := if b then 16 else 8
  leAt bs 0 2 == 0x5A72 && leAt bs 2 1 == 1 && decide (20 ≤ l ∧ l ≤ 2048) && sealed (bs.take l)
    && (s.kee.badPages.all fun q => q < p || p + ceilDiv l 256 ≤ q)

/-- The image in use: its L bytes. -/
def imageOf (s : State) : Option (List Byte) :=
  let cut := fun (b : Bool) => (imageCopy s b).take (leAt (imageCopy s b) 8 2)
  let sq := fun (b : Bool) => word (leAt (imageCopy s b) 4 4)
  match imageValid s false, imageValid s true with
  | true, true => if newer (sq true) (sq false) then some (cut true) else some (cut false)
  | true, false => some (cut false)
  | false, true => some (cut true)
  | _, _ => none

/-- An entry of the image. -/
inductive ImgEntry where
  | reg (off v : Nat)
  | cmd (bytes : List Byte)
  deriving DecidableEq, Repr

/-- At most `n` entries of the bytes; one of no known kind ends the list (DESIGN CHOICE, log 91). -/
def imgEntries : Nat → List Byte → List ImgEntry
  | 0, _ => []
  | n + 1, bs =>
    match leAt bs 0 1 with
    | 1 => if bs.length < 8 then [] else .reg (leAt bs 1 3) (leAt bs 4 4) :: imgEntries n (bs.drop 8)
    | 2 => if bs.length < 68 then [] else .cmd (slice bs 4 64) :: imgEntries n (bs.drop 68)
    | _ => []

/-- The entries of an image, with their indexes. -/
def imageEntries (bs : List Byte) : List (Nat × ImgEntry) :=
  let l := imgEntries (leAt bs 10 2) ((bs.take (bs.length - 4)).drop 16)
  (List.range l.length).zip l

/-- A REG entry applied as a steward write (08 R415; 13 R647 KIND 3). -/
def applyReg (off v : Nat) (s : State) : State := if off % 4 ≠ 0 then badAccess off s else writeAt { kind := 3 } off v s

/-- The REG entries in image order. One that resets the device ends START there (14 R711). -/
def applyRegs : List (Nat × ImgEntry) → State → State
  | [], s => s
  | (_, .reg off v) :: rest, s =>
    if off = 0x010 ∧ bitOf v 0 ∧ bitsOf v 16 16 = 0x5AA5 then glbReset v s else applyRegs rest (applyReg off v s)
  | (_, .cmd _) :: rest, s => applyRegs rest s

/-- An image that resets the device never lets START end. -/
def imageResets (l : List (Nat × ImgEntry)) : Bool :=
  l.any fun e => match e.2 with
    | .reg off v => off == 0x010 && bitOf v 0 && bitsOf v 16 16 == 0x5AA5
    | .cmd _ => false

/-- The CMD entries of an image. -/
def imageCmds (l : List (Nat × ImgEntry)) : List (Nat × List Byte) :=
  l.filterMap fun e => match e.2 with
    | .cmd bs => some (e.1, bs)
    | .reg _ _ => none

/-! ### START_COMPLETE (13 R662, R664; 14 R692) -/

/-- STANDBY is entered: the image's CMD entries begin, and with AUTOSTART the node goes on into ACQUIRE. -/
def enterStandby (cmds : List (Nat × List Byte)) (s : State) : State :=
  let s := { s with dev := { s.dev with started := true, startFast := s.int.fast } }
  let s := goOnCmds (let t := setDev .standby s; { t with ten := { t.ten with cmds := cmds } })
  if rbit s 0x00C 1 ∧ !s.dev.straps.getLsbD 3 then enterAcquire s else s

/-- Steps 6 to 10. -/
def startRest (idp : Nat) (s : State) : State :=
  let s := startPatch idp (logRestore s)
  let s := each (List.range 4) startSlot s
  let l := match imageOf s with
    | some bs => imageEntries bs
    | none => []
  let s := applyRegs l s
  if imageResets l then s else enterStandby (imageCmds l) s

/-- START ends: in SAFE without BIST where no identity copy is valid, in SAFE where BIST fails it, else in STANDBY. -/
def startDone (lb : BitVec 12) (mb : BitVec 20) (wqs : BitVec 64) (s : State) : State :=
  match idPage s with
  | none => bypassAll false (setDev .safe { s with dev := { s.dev with wasSafe := true } })
  | some idp =>
    let s := startBist lb mb wqs (startRead idp s)
    if s.dev.st = .start then startRest idp s else s

/-- START_COMPLETE: START runs to its end; the operands are what its BIST finds, where it runs. -/
def execStartComplete (lbFail : BitVec 12) (mbFail : BitVec 20) (wqFail : BitVec 64) (s : State) : Out3 :=
  .next (if s.dev.st = .start ∧ !s.dev.resetLow then startDone lbFail mbFail wqFail s else s)

/-! ### Causes of SHUTDOWN (01 R42, R50; 14 R689) -/

/-- SHDN_REQ: ignored in RESET# and START (14 R673); the event is raised where the cause is discarded too (01 R50). -/
def execShdnReq (s : State) : Out3 := .next (if powered s then enterShutdown (raise 3 detNone s) else s)

/-- SENT_LOW. -/
def execSentLow (s : State) : Out3 :=
  .next (
    if s.dev.st = .off ∨ s.dev.resetLow then s
    else
      let s := raise 4 detNone s
      enterShutdown { s with int := { s.int with sentLow := true } })

/-! ### The shutdown sequence (13 R653–R659) -/

/-- Step 4 ends with the page write in progress, step 8 with the BIST record's. -/
def shutStep (s : State) : State :=
  if s.kee.cur.isSome then s
  else match s.int.shut with
    | .keep => { s with int := { s.int with shut := .decide } }
    | .record => { s with int := { s.int with shut := .off } }
    | _ => s

/-- KEEP_PAGE_WRITE_DONE. -/
def execKeepPageWriteDone (same hot : Bool) (s : State) : Out3 := .next (shutStep (pageWritten same hot s))

/-- INT_BIST_CFG.HOLDUP, in 0.1 ms. -/
def holdup (s : State) : Nat := 10 * rfld s 0xC028 8 8

/-- The BIST record asked for, and the next SEQ. -/
def shutRecord (result why : Nat) (s : State) : State :=
  let bs := bistBytes s 0 result why s.int.lbFail s.int.mbFail s.int.wqFail s.int.shutHoop s.int.shutEpoch
  let s := keepAsk (.bist bs) s
  { s with kee := { s.kee with bistSeq := s.kee.bistSeq + 1 }, int := { s.int with shut := .record } }

/-- Step 9 at once. -/
def shutOff (s : State) : State := { s with int := { s.int with shut := .off } }

/-- WHY a BIST does not run: the first condition of 13 R654 that fails; 0 where it runs. -/
def bistWhy (sinceSent : Nat) (s : State) : Nat :=
  if s.int.noBist then 1
  else if !rbit s 0xC028 0 && !s.int.next then 3
  else if s.int.sentLow && decide (holdup s < sinceSent + 470) then 2
  else 0

/-- BIST_DECISION (13 R654): `sinceSent` is the time since SENT fell, in 0.1 ms. The link is down while LB2 is tested (14 R716). -/
def execBistDecision (sinceSent : Nat) (s : State) : Out3 :=
  .next (
    if s.int.shut ≠ .decide then s
    else
      let s := { s with int := { s.int with lbFail := 0, mbFail := 0, wqFail := 0 } }
      let why := bistWhy sinceSent s
      let s := pcieLink false s
      if why = 0 then { s with int := { s.int with shut := .logic, bistSent := s.int.sentLow } }
      else if !s.int.sentLow ∨ sinceSent + 85 ≤ holdup s then shutRecord 3 why s
      else shutOff s)

/-- The injection of a BIST detector is used up where it was one-shot (13 R642). -/
def injUsed (d : Nat) (s : State) : State :=
  if injOf s d = .oneShot then { s with int := { s.int with inj := tdel s.int.inj d } } else s

/-- LOGIC_BIST_DONE: `fail` has a bit per failing partition; an armed D44 makes LB0 fail (13 R640). -/
def execLogicBistDone (fail : BitVec 12) (s : State) : Out3 :=
  .next (
    if s.int.shut ≠ .logic then s
    else
      let f := if injOf s 44 = .none then fail else fail ||| 1
      injUsed 44 { s with int := { s.int with shut := .memory, lbFail := f } })

/-- MEMORY_BIST_DONE: an armed D45 makes way 15 of quadrant 0 fail, an armed D46 group 5 (13 R640). The record follows; a failure
raises no event (13 R636). -/
def execMemoryBistDone (fail : BitVec 20) (wqs : BitVec 64) (s : State) : Out3 :=
  .next (
    if s.int.shut ≠ .memory then s
    else
      let d45 := injOf s 45 != .none
      let mb := (if d45 then fail ||| 1 else fail) ||| (if injOf s 46 != .none then 0x20 else 0)
      let wf := if d45 then wqs ||| BitVec.ofNat 64 (2 ^ 60) else wqs
      let s := injUsed 46 (injUsed 45 { s with int := { s.int with mbFail := mb, wqFail := wf } })
      let bad := s.int.lbFail != 0 || mb != 0
      shutRecord (b2n bad) (if bad then 4 else 0) s)

/-- BIST_HOLDUP_ABORT (13 R656): SENT fell during a BIST that began for another cause; `elapsed` is the time since, `stillNeeded` what the
BIST still needs, in 0.1 ms. -/
def execBistHoldupAbort (elapsed stillNeeded : Nat) (s : State) : Out3 :=
  .next (
    if !bistRuns s ∨ s.int.bistSent ∨ !s.int.sentLow ∨ elapsed + stillNeeded ≤ holdup s then s
    else if elapsed + 85 ≤ holdup s then shutRecord 2 2 s
    else shutOff s)

end Sys2Proof.Machine
end

