-- ==== Sys2Proof/Machine/Dispatch.lean ====
section
/-! DEFINITION. The dispatcher: one arm per command, each one direct call of its meaning. -/

namespace Sys2Proof.Machine

def exec (i : Instr) (s : State) : Host.Outcome State Fault Refusal :=
  match i with
  | .read b => Sys2Proof.Machine.execRead b s
  | .readFresh b => Sys2Proof.Machine.execReadFresh b s
  | .readBlock b => Sys2Proof.Machine.execReadBlock b s
  | .write b => Sys2Proof.Machine.execWrite b s
  | .writeMasked b => Sys2Proof.Machine.execWriteMasked b s
  | .writeBlock b => Sys2Proof.Machine.execWriteBlock b s
  | .zeroLine b => Sys2Proof.Machine.execZeroLine b s
  | .claim b => Sys2Proof.Machine.execClaim b s
  | .release b => Sys2Proof.Machine.execRelease b s
  | .atomic b => Sys2Proof.Machine.execAtomic b s
  | .lock b => Sys2Proof.Machine.execLock b s
  | .unlock b => Sys2Proof.Machine.execUnlock b s
  | .subscribe b => Sys2Proof.Machine.execSubscribe b s
  | .unsubscribe b => Sys2Proof.Machine.execUnsubscribe b s
  | .flush b => Sys2Proof.Machine.execFlush b s
  | .invalidate b => Sys2Proof.Machine.execInvalidate b s
  | .clean b => Sys2Proof.Machine.execClean b s
  | .pin b => Sys2Proof.Machine.execPin b s
  | .unpin b => Sys2Proof.Machine.execUnpin b s
  | .prefetch b => Sys2Proof.Machine.execPrefetch b s
  | .mapRegion b => Sys2Proof.Machine.execMapRegion b s
  | .unmapRegion b => Sys2Proof.Machine.execUnmapRegion b s
  | .setAttr b => Sys2Proof.Machine.execSetAttr b s
  | .bindCan b => Sys2Proof.Machine.execBindCan b s
  | .unbindCan b => Sys2Proof.Machine.execUnbindCan b s
  | .queryRegion b => Sys2Proof.Machine.execQueryRegion b s
  | .readPhase b => Sys2Proof.Machine.execReadPhase b s
  | .waitPhase b => Sys2Proof.Machine.execWaitPhase b s
  | .picotArm b => Sys2Proof.Machine.execPicotArm b s
  | .picotCancel b => Sys2Proof.Machine.execPicotCancel b s
  | .setMainsSource b => Sys2Proof.Machine.execSetMainsSource b s
  | .readTopology b => Sys2Proof.Machine.execReadTopology b s
  | .inaugRequest b => Sys2Proof.Machine.execInaugRequest b s
  | .patternPropose b => Sys2Proof.Machine.execPatternPropose b s
  | .patternQuery b => Sys2Proof.Machine.execPatternQuery b s
  | .roleQuery b => Sys2Proof.Machine.execRoleQuery b s
  | .roleClaim b => Sys2Proof.Machine.execRoleClaim b s
  | .loadPricking b => Sys2Proof.Machine.execLoadPricking b s
  | .counterRead b => Sys2Proof.Machine.execCounterRead b s
  | .sampleDrain b => Sys2Proof.Machine.execSampleDrain b s
  | .clampLogRead b => Sys2Proof.Machine.execClampLogRead b s
  | .inject b => Sys2Proof.Machine.execInject b s
  | .bistSchedule b => Sys2Proof.Machine.execBistSchedule b s
  | .bistResult b => Sys2Proof.Machine.execBistResult b s
  | .shutdown b => Sys2Proof.Machine.execShutdown b s
  | .echo b => Sys2Proof.Machine.execEcho b s
  | .badOpcode t => Sys2Proof.Machine.execBadOpcode t s
  | .jobFetch => Sys2Proof.Machine.execJobFetch s
  | .commandTimeout b => Sys2Proof.Machine.execCommandTimeout b s
  | .waitPhaseReached b => Sys2Proof.Machine.execWaitPhaseReached b s
  | .rdShared r => Sys2Proof.Machine.execRdShared r s
  | .rdOwn r => Sys2Proof.Machine.execRdOwn r s
  | .ownNodata r => Sys2Proof.Machine.execOwnNodata r s
  | .wrPublish r => Sys2Proof.Machine.execWrPublish r s
  | .wrMasked r => Sys2Proof.Machine.execWrMasked r s
  | .atomicReq r => Sys2Proof.Machine.execAtomicReq r s
  | .lockReq r => Sys2Proof.Machine.execLockReq r s
  | .unlockReq r => Sys2Proof.Machine.execUnlockReq r s
  | .subReq r => Sys2Proof.Machine.execSubReq r s
  | .unsubReq r => Sys2Proof.Machine.execUnsubReq r s
  | .writeback r => Sys2Proof.Machine.execWriteback r s
  | .evictClean r => Sys2Proof.Machine.execEvictClean r s
  | .readHome r => Sys2Proof.Machine.execReadHome r s
  | .homeFifoNext la => Sys2Proof.Machine.execHomeFifoNext la s
  | .dataShared r => Sys2Proof.Machine.execDataShared r s
  | .dataOwn r => Sys2Proof.Machine.execDataOwn r s
  | .grantOwn r => Sys2Proof.Machine.execGrantOwn r s
  | .update r => Sys2Proof.Machine.execUpdate r s
  | .invalidateMsg r => Sys2Proof.Machine.execInvalidateMsg r s
  | .recall r => Sys2Proof.Machine.execRecall r s
  | .ack r => Sys2Proof.Machine.execAck r s
  | .nakRetry r => Sys2Proof.Machine.execNakRetry r s
  | .atomicResult r => Sys2Proof.Machine.execAtomicResult r s
  | .leaseGrant r => Sys2Proof.Machine.execLeaseGrant r s
  | .leaseBreak r => Sys2Proof.Machine.execLeaseBreak r s
  | .invAck r => Sys2Proof.Machine.execInvAck r s
  | .recallData r => Sys2Proof.Machine.execRecallData r s
  | .recallNodata r => Sys2Proof.Machine.execRecallNodata r s
  | .migLine r => Sys2Proof.Machine.execMigLine r s
  | .migDir r => Sys2Proof.Machine.execMigDir r s
  | .migDone r => Sys2Proof.Machine.execMigDone r s
  | .requestResend b => Sys2Proof.Machine.execRequestResend b s
  | .homeResend trk => Sys2Proof.Machine.execHomeResend trk s
  | .leaseExpiry la => Sys2Proof.Machine.execLeaseExpiry la s
  | .heldLineRelease la => Sys2Proof.Machine.execHeldLineRelease la s
  | .adezoFrameReceive f => Sys2Proof.Machine.execAdezoFrameReceive f s
  | .frameRepeat f => Sys2Proof.Machine.execFrameRepeat f s
  | .heldRepeatSend l sd => Sys2Proof.Machine.execHeldRepeatSend l sd s
  | .reorderTimeout src c => Sys2Proof.Machine.execReorderTimeout src c s
  | .foreignFrameReceive l sd bytes => Sys2Proof.Machine.execForeignFrameReceive l sd bytes s
  | .foreignWindowStart l => Sys2Proof.Machine.execForeignWindowStart l s
  | .macControlFrame l sd => Sys2Proof.Machine.execMacControlFrame l sd s
  | .rowStart => Sys2Proof.Machine.execRowStart s
  | .hoopBoundary => Sys2Proof.Machine.execHoopBoundary s
  | .ownStitchStart stitch => Sys2Proof.Machine.execOwnStitchStart stitch s
  | .delayedLaunch l sd => Sys2Proof.Machine.execDelayedLaunch l sd s
  | .migrationRetry role => Sys2Proof.Machine.execMigrationRetry role s
  | .rangingStitchStart l => Sys2Proof.Machine.execRangingStitchStart l s
  | .range l sd m => Sys2Proof.Machine.execRange l sd m s
  | .rangingFallback l sd => Sys2Proof.Machine.execRangingFallback l sd s
  | .rangingMiss l sd => Sys2Proof.Machine.execRangingMiss l sd s
  | .disc l sd ms => Sys2Proof.Machine.execDisc l sd ms s
  | .reference l sd hdrSide r t o rowAt trueAt => Sys2Proof.Machine.execReference l sd hdrSide r t o rowAt trueAt s
  | .referenceMissed => Sys2Proof.Machine.execReferenceMissed s
  | .holdoverLimit => Sys2Proof.Machine.execHoldoverLimit s
  | .tvalidLossTimeout => Sys2Proof.Machine.execTvalidLossTimeout s
  | .zxEdge input rising => Sys2Proof.Machine.execZxEdge input rising s
  | .zxInputMissing input => Sys2Proof.Machine.execZxInputMissing input s
  | .tenPhin t v => Sys2Proof.Machine.execTenPhin t v s
  | .picotCapture ch rising ord => Sys2Proof.Machine.execPicotCapture ch rising ord s
  | .picotOutputEdge ch => Sys2Proof.Machine.execPicotOutputEdge ch s
  | .picCapPop ch v => Sys2Proof.Machine.execPicCapPop ch v s
  | .phtSnap v => Sys2Proof.Machine.execPhtSnap v s
  | .call fromRanging m => Sys2Proof.Machine.execCall fromRanging m s
  | .inaugClaim src m => Sys2Proof.Machine.execInaugClaim src m s
  | .digest src m => Sys2Proof.Machine.execDigest src m s
  | .confirm src m => Sys2Proof.Machine.execConfirm src m s
  | .drained src m => Sys2Proof.Machine.execDrained src m s
  | .statusAgreed m => Sys2Proof.Machine.execStatusAgreed m s
  | .statusCut m => Sys2Proof.Machine.execStatusCut m s
  | .statusResume m => Sys2Proof.Machine.execStatusResume m s
  | .agreementTimeout => Sys2Proof.Machine.execAgreementTimeout s
  | .drainLimit => Sys2Proof.Machine.execDrainLimit s
  | .isolationRetry => Sys2Proof.Machine.execIsolationRetry s
  | .patSwitchPropose src m => Sys2Proof.Machine.execPatSwitchPropose src m s
  | .patSwitchAck src m => Sys2Proof.Machine.execPatSwitchAck src m s
  | .patSwitchNack src m => Sys2Proof.Machine.execPatSwitchNack src m s
  | .patSwitchGo m => Sys2Proof.Machine.execPatSwitchGo m s
  | .patSwitchCancel m => Sys2Proof.Machine.execPatSwitchCancel m s
  | .mdioPoll l sd data rxc mbps1000 => Sys2Proof.Machine.execMdioPoll l sd data rxc mbps1000 s
  | .rxcLoss l sd => Sys2Proof.Machine.execRxcLoss l sd s
  | .linkConfirmed l sd => Sys2Proof.Machine.execLinkConfirmed l sd s
  | .couplerEdge carEnd level => Sys2Proof.Machine.execCouplerEdge carEnd level s
  | .relaySettle l => Sys2Proof.Machine.execRelaySettle l s
  | .lanMdioCmd v => Sys2Proof.Machine.execLanMdioCmd v s
  | .lanEnableWrite w l v => Sys2Proof.Machine.execLanEnableWrite w l v s
  | .bypForceWrite w l v => Sys2Proof.Machine.execBypForceWrite w l v s
  | .laneSpeedWrite w l v => Sys2Proof.Machine.execLaneSpeedWrite w l v s
  | .patStageHold w v => Sys2Proof.Machine.execPatStageHold w v s
  | .registerWrite w off v => Sys2Proof.Machine.execRegisterWrite w off v s
  | .accessAlign w off wr => Sys2Proof.Machine.execAccessAlign w off wr s
  | .rcRead w off => Sys2Proof.Machine.execRcRead w off s
  | .pmcLoRead w off => Sys2Proof.Machine.execPmcLoRead w off s
  | .pmcSelWrite w off v => Sys2Proof.Machine.execPmcSelWrite w off v s
  | .pmcCtrlClr w v => Sys2Proof.Machine.execPmcCtrlClr w v s
  | .evtPendClear w j v => Sys2Proof.Machine.execEvtPendClear w j v s
  | .msixGapEnd fn vec => Sys2Proof.Machine.execMsixGapEnd fn vec s
  | .irqcoalTime t => Sys2Proof.Machine.execIrqcoalTime t s
  | .tenDb t v => Sys2Proof.Machine.execTenDb t v s
  | .tenCqdb t v => Sys2Proof.Machine.execTenCqdb t v s
  | .cqHeadPoll t => Sys2Proof.Machine.execCqHeadPoll t s
  | .tenRctlWrite t v => Sys2Proof.Machine.execTenRctlWrite t v s
  | .tenantEnableWrite t v => Sys2Proof.Machine.execTenantEnableWrite t v s
  | .freset t v => Sys2Proof.Machine.execFreset t v s
  | .tenantResetTimeout t => Sys2Proof.Machine.execTenantResetTimeout t s
  | .resetDone t => Sys2Proof.Machine.execResetDone t s
  | .pcieFunctionReset kind fn => Sys2Proof.Machine.execPcieFunctionReset kind fn s
  | .perstAssert => Sys2Proof.Machine.execPerstAssert s
  | .dmaReadComplete id r => Sys2Proof.Machine.execDmaReadComplete id r s
  | .ramWrite f => Sys2Proof.Machine.execRamWrite f s
  | .ramRead f => Sys2Proof.Machine.execRamRead f s
  | .regWrite f => Sys2Proof.Machine.execRegWrite f s
  | .regRead f => Sys2Proof.Machine.execRegRead f s
  | .status f => Sys2Proof.Machine.execStatus f s
  | .portReset f => Sys2Proof.Machine.execPortReset f s
  | .canFrameReceived port f tsc excRes => Sys2Proof.Machine.execCanFrameReceived port f tsc excRes s
  | .txDone port tsc => Sys2Proof.Machine.execTxDone port tsc s
  | .txAborted port => Sys2Proof.Machine.execTxAborted port s
  | .errFrame port code tec rec => Sys2Proof.Machine.execErrFrame port code tec rec s
  | .busOn port => Sys2Proof.Machine.execBusOn port s
  | .boreq port => Sys2Proof.Machine.execBoreq port s
  | .confRequest port v => Sys2Proof.Machine.execConfRequest port v s
  | .confDone port => Sys2Proof.Machine.execConfDone port s
  | .confRefused port off => Sys2Proof.Machine.execConfRefused port off s
  | .confLeave port v => Sys2Proof.Machine.execConfLeave port v s
  | .integrationDone port => Sys2Proof.Machine.execIntegrationDone port s
  | .objLock port obj => Sys2Proof.Machine.execObjLock port obj s
  | .objUnlock port obj => Sys2Proof.Machine.execObjUnlock port obj s
  | .txreq port obj => Sys2Proof.Machine.execTxreq port obj s
  | .txcancel port obj => Sys2Proof.Machine.execTxcancel port obj s
  | .objClear port obj => Sys2Proof.Machine.execObjClear port obj s
  | .qtxRequest port buf => Sys2Proof.Machine.execQtxRequest port buf s
  | .qtxCancel port buf => Sys2Proof.Machine.execQtxCancel port buf s
  | .rxqAck port q m => Sys2Proof.Machine.execRxqAck port q m s
  | .bindRxWrite ix => Sys2Proof.Machine.execBindRxWrite ix s
  | .bindTxLoad port => Sys2Proof.Machine.execBindTxLoad port s
  | .detectorFire d index value injected => Sys2Proof.Machine.execDetectorFire d index value injected s
  | .watchdogExpiry => Sys2Proof.Machine.execWatchdogExpiry s
  | .ccWindowEnd => Sys2Proof.Machine.execCcWindowEnd s
  | .wayctlDrain q way => Sys2Proof.Machine.execWayctlDrain q way s
  | .wayctlOn q way => Sys2Proof.Machine.execWayctlOn q way s
  | .ccWayOff q way => Sys2Proof.Machine.execCcWayOff q way s
  | .scrubStep st r => Sys2Proof.Machine.execScrubStep st r s
  | .keeRead page => Sys2Proof.Machine.execKeeRead page s
  | .keeWrite page => Sys2Proof.Machine.execKeeWrite page s
  | .keeVerify => Sys2Proof.Machine.execKeeVerify s
  | .keepPageWriteDone same hot => Sys2Proof.Machine.execKeepPageWriteDone same hot s
  | .keepDailyRead page r => Sys2Proof.Machine.execKeepDailyRead page r s
  | .clampLogPersist => Sys2Proof.Machine.execClampLogPersist s
  | .intClampClear v => Sys2Proof.Machine.execIntClampClear v s
  | .powerUpStart straps => Sys2Proof.Machine.execPowerUpStart straps s
  | .railFall r => Sys2Proof.Machine.execRailFall r s
  | .resetAssert => Sys2Proof.Machine.execResetAssert s
  | .glbReset w v => Sys2Proof.Machine.execGlbReset w v s
  | .startComplete lbFail mbFail wqFail => Sys2Proof.Machine.execStartComplete lbFail mbFail wqFail s
  | .glbRun v => Sys2Proof.Machine.execGlbRun v s
  | .glbAutostartWrite w v => Sys2Proof.Machine.execGlbAutostartWrite w v s
  | .shdnReq => Sys2Proof.Machine.execShdnReq s
  | .sentLow => Sys2Proof.Machine.execSentLow s
  | .bistDecision sinceSent => Sys2Proof.Machine.execBistDecision sinceSent s
  | .logicBistDone fail => Sys2Proof.Machine.execLogicBistDone fail s
  | .memoryBistDone fail wq => Sys2Proof.Machine.execMemoryBistDone fail wq s
  | .bistHoldupAbort elapsed stillNeeded => Sys2Proof.Machine.execBistHoldupAbort elapsed stillNeeded s
  | .pinMuxWrite w k v => Sys2Proof.Machine.execPinMuxWrite w k v s
  | .pinTick => Sys2Proof.Machine.execPinTick s
  | .glbClkgateWrite w j v => Sys2Proof.Machine.execGlbClkgateWrite w j v s
  | .dapacc addr wr take data => Sys2Proof.Machine.execDapacc addr wr take data s
  | .dbgHalt => Sys2Proof.Machine.execDbgHalt s
  | .dbgResume => Sys2Proof.Machine.execDbgResume s
  | .dbgStep => Sys2Proof.Machine.execDbgStep s
  | .dbgHaltLong => Sys2Proof.Machine.execDbgHaltLong s
  | .mdioFrameDone rdata => Sys2Proof.Machine.execMdioFrameDone rdata s
  | .spiFrameInvalid port => Sys2Proof.Machine.execSpiFrameInvalid port s
  | .pcieConfigWrite c => Sys2Proof.Machine.execPcieConfigWrite c s
  | .pcieLinkUp => Sys2Proof.Machine.execPcieLinkUp s
  | .postedWriteCredit => Sys2Proof.Machine.execPostedWriteCredit s
  | .rgmiiRailBack => Sys2Proof.Machine.execRgmiiRailBack s
  | .trueHoopBoundary => Sys2Proof.Machine.execTrueHoopBoundary s
  | .ctcInputChange level => Sys2Proof.Machine.execCtcInputChange level s
  | .laneCopyTimeout kind stitch => Sys2Proof.Machine.execLaneCopyTimeout kind stitch s
  | .keepReadDone r => Sys2Proof.Machine.execKeepReadDone r s
  | .ledBlink fault => Sys2Proof.Machine.execLedBlink fault s
  | .pmcCycleWrap ix => Sys2Proof.Machine.execPmcCycleWrap ix s

end Sys2Proof.Machine
end

