-- ==== Sys2Proof/Safety.lean ====
section
/-! DEFINITION. What claims about the node are stated in: a step that answers a next state, the canonical form of the node's byte
memories, and what reporting an event or a completion may change. -/

namespace Sys2Proof

/-- The step of a machine answers a next state: neither a fault nor a refusal. -/
def Completes (o : Host.Outcome Machine.State Machine.Fault Machine.Refusal) : Prop := ∃ t, o = .next t

/-- The byte memories of the node are in their canonical form: the keep store, the ring RAM, the push windows, the object
memories of the car-bus ports. -/
def MemoriesWf (s : Machine.State) : Prop :=
  Machine.Memory.wf s.kee.mem = true ∧ Machine.Memory.wf s.ten.ram = true ∧ Machine.Memory.wf s.ten.push = true
    ∧ ∀ p ∈ s.can.ports, Machine.Memory.wf p.mem = true

/-- What reporting may change in a tenant's record: the tail side of its completion ring, its overflow and stall, its coalescing,
and the pending side of its MSI-X vectors (09 R466–R475, 12 R605–R608). -/
def TenReports (a b : Machine.Ten) : Prop :=
  b = { a with
    cqTail := b.cqTail, phase := b.phase, ovf := b.ovf, stall := b.stall, lostEv := b.lostEv, sinceReady := b.sinceReady
    oldest := b.oldest, pba := b.pba, gap := b.gap, gapEvt := b.gapEvt }

/-- From `s` to `t` the node only reported: event records and messages left, event bits rose, counters counted, and the tenants'
rings took entries (12 R601–R616, 09 R466–R475). All other state is as it was. -/
structure Reports (s t : Machine.State) : Prop where
  dev : t.dev = s.dev
  cur : t.reg.cur = s.reg.cur
  staged : t.reg.staged = s.reg.staged
  stagedClk : t.reg.stagedClk = s.reg.stagedClk
  tm : t.tm = s.tm
  zx : t.zx = s.zx
  pic : t.pic = s.pic
  lan : t.lan = s.lan
  pat : t.pat = s.pat
  trn : t.trn = s.trn
  home : t.home = s.home
  heldLeases : t.heldLeases = s.heldLeases
  cc : t.cc = s.cc
  kee : t.kee = s.kee
  tens : List.Forall₂ TenReports s.ten.tens t.ten.tens
  ten : t.ten = { s.ten with tens := t.ten.tens, ram := t.ten.ram, posted := t.ten.posted }
  ram : Machine.Memory.wf s.ten.ram = true → Machine.Memory.wf t.ten.ram = true
  can : t.can = s.can
  pend : ∀ e, s.evt.pend.getLsbD e = true → t.evt.pend.getLsbD e = true
  hold : s.evt.hold = none → t.evt.hold = none
  buf : t.pmc.buf = s.pmc.buf
  out : s.out <:+ t.out
  dbg : t.dbg = s.dbg
  int : t.int = s.int
  pending : t.pending = s.pending

/-- Event `e` is pending (12 R601). -/
def Raised (e : Nat) (t : Machine.State) : Prop := t.evt.pend.getLsbD e = true

/-- A register whose write is only checked and stored (00 R12, R13): one with stored fields, in a block whose writes have no further
action. -/
def PlainRegister (off : Nat) : Prop :=
  off % 4 = 0 ∧ Machine.regFlds off ≠ [] ∧ off / 0x1000 ∈ [0x2, 0x3, 0x6, 0x7, 0x8, 0xA, 0xC, 0xD, 0xE]

/-- Bobbin `b` holds the line command `op`, to be performed on line `la`, and its row may perform it now: no earlier command of its
tenant on the line is open (06 R302, 10 R555). -/
structure LineJob (s : Machine.State) (b op la : Nat) (v : Machine.Bobbin) : Prop where
  bob : Machine.bobOf s b = some v
  op : v.job.op = op
  run : Machine.mayRun s v = true
  first : Machine.earlier s b v la = false
  line : Machine.curLa v = la

/-- The lanes are open to the command: the node's states allow it (10 R555), and a command on a line whose home has it as C0 has train time
(02 R96). -/
def LaneOpen (s : Machine.State) (v : Machine.Bobbin) (write : Bool) : Prop :=
  Machine.remoteGate s write (Machine.remoteCls s (Machine.curLa v) v.cls) = .run
    ∧ (Machine.remoteCls s (Machine.curLa v) v.cls = .c0 → Machine.timed s = true)

/-- Bobbin `b` holds a command with opcode `op` that is no line command, and its row may perform it now (10 R558). -/
structure TaskJob (s : Machine.State) (b op : Nat) (v : Machine.Bobbin) : Prop where
  ready : Machine.readyJob s b op = some v
  serving : Machine.serving s = true

/-- The state in which bobbin `b`'s command on a line homed here has become request `m` in its line's FIFO, on tracker `k`
(06 R304, R310). -/
def atOwnHome (b : Nat) (v : Machine.Bobbin) (m : LineMsg) (k : Nat × Machine.TrkKind) (s : Machine.State) : Machine.State :=
  Machine.joinFifo { ix := k.1, kind := k.2, cls := Machine.clsAt s m.la v.cls, la := m.la, srcHk := s.kee.hk, bob := some b, bobSeq := v.seq
                     claim := Machine.claimJob v
                     msg := { m with cls := v.cls, trk := b, ten := v.job.ten, replay := v.replay } } (Machine.waitAs b .home s)

/-- Request `r` reaches its home, which is this node, and is no repetition of one in work (06 R289, R342; 07 R360). -/
structure AtHome (s : Machine.State) (r : Rx) : Prop where
  train : Machine.onTrain s = true
  mine : Machine.homedHere s r.msg.la = true
  dst : r.msg.dst = 0 ∨ r.msg.dst = s.trn.node
  fresh : ∀ t ∈ s.home.trks, t.bob = none → t.la = r.msg.la → t.srcHk = r.srcHk → t.msg.ten = r.msg.ten → t.msg.trk = r.msg.trk →
    t.purpose ≠ .request

/-- The tracker record of request `r` on tracker `k`, in a region of mode `claim` (06 R304, R311). -/
def trackerOf (r : Rx) (k : Nat × Machine.TrkKind) (claim : Bool) : Machine.Tracker :=
  { ix := k.1, kind := k.2, la := r.msg.la, src := r.src, srcHk := r.srcHk, msg := r.msg, claim := claim }

/-- Request `r` is worked at once and plainly, in a region `rg` that permits it: the node runs as a member, a tracker is free, nothing
else of the line is in work, leased, broken, marked, mirrored or moving, and no replay is concerned (06 R304–R307, R328; 05 R265, R276). -/
structure WorkedNow (s : Machine.State) (r : Rx) (rg : Machine.Region) : Prop extends AtHome s r where
  run : s.dev.st = .run
  thawed : Machine.frozen s = false
  member : s.trn.memb = .member
  source : r.src ≠ 0
  region : (Machine.regionAt s r.msg.la).map (·.2) = some rg
  reads : rg.rrd = true
  writes : rg.rwr = true
  tracker : (Machine.takeTrk s rg.cls false).isSome = true
  young : r.msg.elder = false
  alone : Machine.hasFifo s r.msg.la = false
  plain : (Machine.homeLine s r.msg.la).orphan = false ∧ (Machine.homeLine s r.msg.la).errData = false
    ∧ (Machine.homeLine s r.msg.la).metaLost = false ∧ (Machine.homeLine s r.msg.la).lost = false
  newKey : (Machine.homeLine s r.msg.la).key ≠ some { hk := r.srcHk, ten := r.msg.ten, trk := r.msg.trk }
  replay : r.msg.replay = false
  lease : Machine.leaseOn s r.msg.la = none
  broken : (r.msg.la, r.src, r.msg.ten) ∉ s.home.brokenAt
  mirror : Machine.isMirrored s r.msg.la = false
  moving : s.trn.migOut = []

/-- A message for node `k` stands in the queue: with the type, line and version given. -/
def Queued (s : Machine.State) (k : Nat) (typ : MsgType) (la : Nat) (p : LineMsg → Prop) : Prop :=
  ∃ i ∈ s.lan.txq, ∃ m : LineMsg, i.msg = .line m ∧ m.typ = typ ∧ m.la = la ∧ m.dst = k ∧ p m

/-- From `s` to `t` the coherence engine worked: line storage, the directory, copies, leases, bobbins, queued messages, transfers in
progress, bindings and the rings may have changed. Nothing else of the node has: not its device state, its registers in force but for
the receive filters of the car bus, its phase time, pattern, keep store, detectors, lanes or membership, and not the queue (06, 07). -/
structure Works (s t : Machine.State) : Prop where
  dev : t.dev = s.dev
  cur : ∀ off, (∀ p, off < Machine.cbpBase p) → Machine.regCur t off = Machine.regCur s off
  staged : t.reg.staged = s.reg.staged
  stagedClk : t.reg.stagedClk = s.reg.stagedClk
  tm : t.tm = { s.tm with draws := t.tm.draws }
  zx : t.zx = s.zx
  pic : t.pic = s.pic
  lan : t.lan = { s.lan with txq := t.lan.txq, probeWait := t.lan.probeWait, credit := t.lan.credit }
  pat : t.pat = { s.pat with moving := t.pat.moving }
  trn : t.trn = { s.trn with
    roleSrc := t.trn.roleSrc, held := t.trn.held, mirrV := t.trn.mirrV, needAck := t.trn.needAck, sendResume := t.trn.sendResume
    migOut := t.trn.migOut, migIn := t.trn.migIn }
  kee : t.kee = s.kee
  push : t.ten.push = s.ten.push
  pend : ∀ e, s.evt.pend.getLsbD e = true → t.evt.pend.getLsbD e = true
  dbg : t.dbg = s.dbg
  int : t.int = s.int
  pending : t.pending = s.pending

/-- What holds of the node after every step: the byte memories are in their canonical form, there are as many tenants, lanes, car-bus
ports and pattern slots as the node has (03 R126; 05 R248; 09 R429; 11 R581), and no event of a past instant waits (12 R602). -/
structure NodeInv (s : Machine.State) : Prop where
  mem : MemoriesWf s
  tens : s.ten.tens.length = 8
  lanes : s.lan.lanes.length = 3
  ports : s.can.ports.length = 2
  slots : s.pat.slots.length = 4
  settled : s.evt.hold = none

/-- The fields of a line message of class `cls` lie within their widths, and it carries no data or mask where its type has none
(03 R141, R142). -/
structure LineOk (cls : Nat) (m : LineMsg) : Prop where
  cls : Machine.clsCode m.cls = cls
  dst : m.dst < 64
  trk : m.trk < 1024
  ten : m.ten < 8
  la : m.la < 2 ^ 24
  age : m.age < 256
  data : Machine.hasData m.typ = false → m.data = 0
  mask : m.typ ≠ .wrMasked → m.mask = 0

/-- An entry of a wave within its widths (05 R240). -/
def EntryOk (e : DiscEntry) : Prop := e.hk < 256 ∧ e.vmin < 4 ∧ e.vmax < 4

/-- A message that a frame of class `cls` may carry, every field within its width and every selector at a defined value
(03 R142, R720, R723; 02 R83, R84; 03 R171, R173; 04 R216; 05 R236, R240, R248). -/
def MsgOk (cls : Nat) : Msg → Prop
  | .line m => LineOk cls m
  | .reference m => m.tier ≤ 2 ∧ m.masterHk < 256 ∧ m.nrow ≤ 2 ∧ m.row < 16 ∧ m.rank ≤ 4 ∧ m.rseq < 16 ∧ m.period < 2 ^ 32 ∧ m.txofs < 65536
  | .trueP m => m.tsrc ≤ 2 ∧ m.tperiod < 2 ^ 32
  | .origin m => m.yE1 < 2 ^ 32 ∧ m.yE2 < 2 ^ 32
  | .range m => m.rseq < 32
  | .disc m => m.first < 256 ∧ m.count = m.entries.length ∧ m.count ≤ 6 ∧ ∀ e ∈ m.entries, EntryOk e
  | .inaug m => Machine.inaugOk m = true ∧ m.cause < 32 ∧ m.num < 256 ∧ m.hk < 256 ∧ m.f2 < 256 ∧ m.f3 < 256 ∧ m.f4 < 256 ∧ m.f5 < 256
      ∧ m.f6 < 256 ∧ m.f7 < 256 ∧ m.unit < 65536
  | .patSwitch m => Machine.patOk m = true ∧ m.reason < 32 ∧ m.target < 256 ∧ m.proposer < 256 ∧ m.subject < 256
  | .digest m => m.pref < 256 ∧ m.pen < 16

/-- The fields of a frame header lie within their widths (03 R138). -/
structure HdrOk (h : FrameHdr) : Prop where
  pver : h.pver < 16
  kind : h.kind < 4
  cls : h.cls < 4
  src : h.src < 64
  srcHk : h.srcHk < 256
  stitch : h.stitch < 256
  row : h.row < 16
  pat : h.pat < 8
  fseq : h.fseq < 65536

/-- The bytes of a frame's message area. -/
def areaOf (ms : List Msg) : List Byte := (ms.map Machine.msgEnc).flatten

end Sys2Proof
end

