-- ==== Sys2Proof/Certificates/Slice0/Obligations.lean ====
section
/-! DEFINITION. The statements about the node, one per obligation. -/

open Sys2Proof Sys2Proof.Machine

/-! ### The queue -/

/-- With a command at the front of the queue, a step is that command's effect on the state with the queue's rest (log 4). -/
def Obligations.StepRunsTheFrontCommand : Prop :=
  ∀ (c : Instr) (s : State), step { s with pending := c :: s.pending } = exec c s

/-- With no command waiting, a step is one CORE cycle of 2.5 ns (14 R693): the local clock moves on by it, performance counters may count,
and nothing else of the node changes but what a wrapping counter reports (12 R613). The model's choice of log 4. -/
def Obligations.IdleStepPassesOneCoreCycle : Prop :=
  ∀ s : State, s.pending = [] →
    ∃ t, step s = .next t ∧ Reports { s with tm := { s.tm with clk := s.tm.clk + 20 } } t

/-- No command stops the node: each answers a next state, in every state and with every operand. -/
def Obligations.NoCommandStops : Prop := ∀ (c : Instr) (s : State), Completes (exec c s)

/-! ### Registers (00 R9–R13, 12 R611–R614) -/

/-- R9: an access that is not aligned is ignored if it is a write, returns 0 if it is a read, and raises ACCESS_ALIGN, event 0; nothing
else of the node changes. Registers are within reach (14 R716). -/
def Obligations.MisalignedAccessIsIgnoredAndReported : Prop :=
  ∀ (w : Who) (off : Nat) (s : State), reachable s = true →
    (∀ wr : Bool, ∃ t, exec (.accessAlign w off wr) s = .next t ∧ Raised 0 t
      ∧ Reports (if wr then s else { s with out := .regData off 0 :: s.out }) t)
    ∧ ∀ v : Word, off % 4 ≠ 0 → ∃ t, exec (.registerWrite w off v) s = .next t ∧ Raised 0 t ∧ Reports s t

/-- A steward write of a register without a further action leaves the checked value: staged where the register is staged, in force at
once where it is not (R12, R13). A field out of its range is clamped and CLAMP, event 432, is raised; with no clamp nothing is logged.
Other registers keep their values, but for clock-gate bits whose domain may no longer be gated (14 R696). -/
def Obligations.RegisterWriteStoresTheCheckedValue : Prop :=
  ∀ (w : Who) (off : Nat) (v : Word) (s : State),
    stewardly w = true → reachable s = true → PlainRegister off →
    ∃ t, exec (.registerWrite w off v) s = .next t
      ∧ (isStaged off = true → regHeld t off = (word (regCheck s off v.toNat).1).toNat ∧ regCur t off = regCur s off)
      ∧ (isStaged off = false → regCur t off = (word (regCheck s off v.toNat).1).toNat)
      ∧ (∀ o, o ≠ off → ¬(0x60 ≤ o ∧ o < 0x7C) → regHeld t o = regHeld s o ∧ regCur t o = regCur s o)
      ∧ ((regCheck s off v.toNat).2 ≠ [] → Raised 432 t)
      ∧ ((regCheck s off v.toNat).2 = [] → t.int = s.int)
      ∧ Reports { s with reg := t.reg, int := t.int } t

/-- A checked value has every field with fixed bounds within them (R13): no write leaves such a field outside its range. -/
def Obligations.CheckedFieldsLieInTheirRange : Prop :=
  ∀ (s : State) (off v : Nat) (f : Fld) (lo hi : Nat), f ∈ regFlds off → f.clamp = .near lo hi →
    lo ≤ bitsOf (regCheck s off v).1 f.lo f.w ∧ bitsOf (regCheck s off v).1 f.lo f.w ≤ hi

/-- A software read of an RC counter returns its value, then clears it (R12), and changes nothing else. -/
def Obligations.CounterReadReturnsThenClears : Prop :=
  ∀ (w : Who) (off : Nat) (s : State), reachable s = true → off % 4 = 0 → clears s w off = true →
    exec (.rcRead w off) s = .next { s with
      reg := { s.reg with ctr := tdel s.reg.ctr (absOff w off) }
      out := .regData off (word (readBy s w off)) :: s.out }
    ∧ ∀ t, exec (.rcRead w off) s = .next t → ctrGet t (absOff w off) = 0 ∧ ∀ o, o ≠ absOff w off → ctrGet t o = ctrGet s o

/-- Performance counter `i`: a read of LO returns the low word and latches the upper 16 bits, and so does a debug peek (R614); a write of its selector stores the
checked selector and clears the counter and its sticky bit (R611); CLR clears every counter; a wrap in cycles sets OVF and raises
PMC_OVERFLOW, event 456 (R613). -/
def Obligations.PerformanceCounterCommands : Prop :=
  ∀ (w : Who) (i : Nat) (s : State), stewardly w = true → reachable s = true → i < 80 →
    exec (.pmcLoRead w (pmcSelOff i + 4)) s = .next { s with
      pmc := { s.pmc with ctr := tset s.pmc.ctr i { (tgetD s.pmc.ctr i {}) with hi := (tgetD s.pmc.ctr i {}).val / 2 ^ 32 } }
      out := .regData (pmcSelOff i + 4) (word ((tgetD s.pmc.ctr i {}).val % 2 ^ 32)) :: s.out }
    ∧ (∀ v : Word, s.dbg.dbgDis = false → s.dbg.accessed = true → exec (.dapacc (pmcSelOff i + 4) false false v) s = .next { s with
      pmc := { s.pmc with ctr := tset s.pmc.ctr i { (tgetD s.pmc.ctr i {}) with hi := (tgetD s.pmc.ctr i {}).val / 2 ^ 32 } }
      dbg := { s.dbg with status := 0, data := word ((tgetD s.pmc.ctr i {}).val % 2 ^ 32) }
      out := .regData (pmcSelOff i + 4) (word ((tgetD s.pmc.ctr i {}).val % 2 ^ 32)) :: s.out })
    ∧ (∀ v : Word, ∃ t, exec (.pmcSelWrite w (pmcSelOff i) v) s = .next t
        ∧ regCur t (pmcSelOff i) = (word (regCheck s (pmcSelOff i) v.toNat).1).toNat
        ∧ (tgetD t.pmc.ctr i {}).val = 0 ∧ (tgetD t.pmc.ctr i {}).ovf = false)
    ∧ (∀ v : Word, v.getLsbD 1 = true → ∃ t, exec (.pmcCtrlClr w v) s = .next t
        ∧ rbit t 0xB000 0 = v.getLsbD 0
        ∧ ∀ j, (tgetD t.pmc.ctr j {}).val = 0 ∧ (tgetD t.pmc.ctr j {}).ovf = false)
    ∧ (pmcOn s i = true → cycleEvent (rfld s (pmcSelOff i) 0 8) = true → ∃ t, exec (.pmcCycleWrap i) s = .next t
        ∧ Raised 456 t
        ∧ Reports { s with pmc := { s.pmc with ctr := tset s.pmc.ctr i { (tgetD s.pmc.ctr i {}) with val := 0, ovf := true } } } t)

/-- EVT_PEND and the clamp log are cleared by the ones written: each 1 clears its event's bit and each 0 leaves it (R12, R601), and
CLEAR empties the clamp log and DROPPED (R648). Nothing else changes. -/
def Obligations.WritesOfOneClear : Prop :=
  ∀ (w : Who) (j : Nat) (v : Word) (s : State), mayWrite w s = true → j < 16 →
    (∃ p : BitVec 512, exec (.evtPendClear w j v) s = .next { s with evt := { s.evt with pend := p } }
      ∧ ∀ e, e < 512 → p.getLsbD e = (s.evt.pend.getLsbD e && !(decide (e / 32 = j) && v.getLsbD (e % 32))))
    ∧ (v.getLsbD 0 = true → ∃ d : Bool, exec (.intClampClear v) s = .next { s with
        int := { s.int with clamps := [], dropped := 0, logDirty := d } })

/-! ### The debug port (12 R621–R627) -/

/-- DAPACC: refused while the port is fused off; a peek returns the register's value and has no side effect but the latch of a counter's
upper bits (R614, R622); a take is refused unless TAKE_EN is 1 (R622); a write is refused unless WRITE_EN is 1, and is performed as the
debug port's register write where it is (R623). The first access since reset raises DBG_ATTACH, event 15. -/
def Obligations.DebugPortAccess : Prop :=
  ∀ (addr : Nat) (take : Bool) (data : Word) (s : State),
    (∀ wr : Bool, s.dbg.dbgDis = true →
      exec (.dapacc addr wr take data) s = .next { s with dbg := { s.dbg with status := 3 } })
    ∧ (s.dbg.dbgDis = false → reachable s = true → s.dbg.accessed = false →
      ∃ t, exec (.dapacc addr false take data) s = .next t ∧ Raised 15 t ∧ t.dbg.accessed = true)
    ∧ (s.dbg.dbgDis = false → reachable s = true → s.dbg.accessed = true → addr % 4 = 0 → addr < 2 ^ 20 →
      (¬(0xB000 ≤ addr ∧ addr < 0xC000 ∧ addr % 0x10 = 4) →
        exec (.dapacc addr false false data) s = .next { s with
          dbg := { s.dbg with status := 0, data := word (readWord s addr) }
          out := .regData addr (word (readWord s addr)) :: s.out })
      ∧ (rbit s 0xE000 3 = false →
        exec (.dapacc addr false true data) s = .next { s with dbg := { s.dbg with status := 3 } })
      ∧ (rbit s 0xE000 2 = false →
        exec (.dapacc addr true take data) s = .next { s with dbg := { s.dbg with status := 3 } })
      ∧ (rbit s 0xE000 2 = true →
        exec (.dapacc addr true take data) s = exec (.registerWrite .debug addr data) { s with dbg := { s.dbg with status := 0 } }))

/-- A halt request takes effect and raises DBG_HALT, event 13; a resume ends the halt and raises it too; a step lets one job be fetched
while the halt stands (R625, R626); a halt that has lasted a row hoop raises DBG_HALT_LONG, event 14, once (R627). Everything else goes
on as it was. -/
def Obligations.DebugHaltStepAndResume : Prop :=
  ∀ s : State, s.dbg.dbgDis = false →
    (s.dbg.halted = false → serving s = true → ∃ t, exec .dbgHalt s = .next t ∧ Raised 13 t
      ∧ Reports { s with dbg := { s.dbg with halted := true, long := false, step := false, hoops := 0 } } t)
    ∧ (s.dbg.halted = true →
      (∃ t, exec .dbgResume s = .next t ∧ Raised 13 t
        ∧ Reports { s with dbg := { s.dbg with halted := false, long := false, step := false, hoops := 0 } } t)
      ∧ exec .dbgStep s = .next { s with dbg := { s.dbg with step := true } }
      ∧ (s.dbg.long = false → 1 ≤ s.dbg.hoops → ∃ t, exec .dbgHaltLong s = .next t ∧ Raised 14 t
        ∧ Reports { s with dbg := { s.dbg with long := true } } t)
      ∧ (s.dbg.long = true → exec .dbgHaltLong s = .next s))

/-! ### SPI ports (09 R439–R446) -/

/-- RAM_WRITE stores each data byte in the port's quarter of the ring RAM, at its address modulo 4000h (R446), and no other byte; a
RAM_READ of the same place then returns the bytes, followed by their CRC where it is enabled (R441). The performance counters are off,
so that no event record goes into the same RAM between the two frames. -/
def Obligations.RamReadReturnsWhatRamWriteStored : Prop :=
  ∀ (f : SpiFrame) (s : State), portHears s f.port = true → f.width < 3 → spiWriteOk s 1 f = true →
    Memory.wf s.ten.ram = true → rbit s 0xB000 0 = false →
    ∃ t, exec (.ramWrite f) s = .next t
      ∧ Reports { s with ten := { s.ten with ram := t.ten.ram } } t
      ∧ (∀ i, i < f.data.length → memGet t.ten.ram (f.port * 0x4000 + (f.a + i) % 0x4000) = f.data.getD i 0)
      ∧ (∀ a, (∀ i, i < f.data.length → a ≠ f.port * 0x4000 + (f.a + i) % 0x4000) → memGet t.ten.ram a = memGet s.ten.ram a)
      ∧ ∃ u crc, exec (.ramRead { f with data := [], crc := none }) t = .next { u with out := .spi f.port (f.data ++ crc) :: u.out }
        ∧ Reports t u ∧ crc.length = (if spiCrcOn s f.port then 2 else 0)

/-- The other frames of an SPI port, beyond the counting of the frame as a performance event: REG_WRITE of one word acts as the tenant's
register write; REG_READ of one word returns it and has the side effects of a software read (R440, R443); STATUS returns the status word
and clears FRAME_ERR (R445); PORT_RESET begins the tenant's reset (R478); a bad frame changes no register and sets FRAME_ERR (R442). -/
def Obligations.SpiFramesActOnTheirTenant : Prop :=
  ∀ (f : SpiFrame) (s : State), portHears s f.port = true → f.width < 3 → s.ten.tens.length = 8 →
    (spiWriteOk s 3 f = true → f.a % 4 = 0 → f.len = 3 →
      ∃ u, Reports s u ∧ exec (.regWrite f) s = exec (.registerWrite (.tenant (4 + f.port)) f.a (word (leAt f.data 0 4))) u)
    ∧ (f.a % 4 = 0 → f.len = 3 →
      ∃ u t, Reports s u ∧ exec (.regRead f) s = .next t
        ∧ ∃ crc, t = { readEffect (.tenant (4 + f.port)) f.a u with
            out := .spi f.port (leBytes 4 (readBy u (.tenant (4 + f.port)) f.a) ++ crc) :: (readEffect (.tenant (4 + f.port)) f.a u).out })
    ∧ (∃ u t, Reports s u ∧ exec (.status f) s = .next t ∧ (tenOf t (4 + f.port)).frameErr = false
        ∧ (∃ crc, t.out = .spi f.port (leBytes 4 (portStatus u f.port) ++ crc) :: u.out) ∧ t.ten.ram = u.ten.ram ∧ t.reg = u.reg)
    ∧ (f.a = 0xA5A5 → f.len = 0x5A → f.data = [] → ∃ t, exec (.portReset f) s = .next t ∧ (tenOf t (4 + f.port)).rst = true)
    ∧ ∃ t, exec (.spiFrameInvalid f.port) s = .next t ∧ (tenOf t (4 + f.port)).frameErr = true
        ∧ t = { s with ten := { s.ten with tens := t.ten.tens } } ∧ ∀ n, n ≠ 4 + f.port → tenOf t n = tenOf s n

/-! ### Pins and clock gates (14 R677–R696) -/

/-- PIN_MUX_WRITE with another function starts a switch that leaves the pin as it is for now; PIN_TICK parks the pin at the first tick,
leaves it parked at the second, and connects the new function at the third with PIN_SWITCHED, event 452 (R680). A clock domain is gated
after a write exactly where the bit is 1 and the domain may be gated now (R695); a blinking LED turns over at its blink time, while nothing
else changes (R677). -/
def Obligations.PinSwitchesClockGatesAndLeds : Prop :=
  (∀ (w : Who) (k : Nat) (v : Word) (s : State), mayWrite w s = true → k < 30 → tget s.dev.switching k = none →
    bitsOf (regCheck s (0x1000 + 4 * k) v.toNat).1 0 3 ≠ bitsOf (muxReg s k) 0 3 →
    ∃ t y, exec (.pinMuxWrite w k v) s = .next t ∧ tget t.dev.switching k = some y
      ∧ y.left = 3 ∧ y.func = bitsOf (regCheck s (0x1000 + 4 * k) v.toNat).1 0 3 ∧ t.dev.pins = s.dev.pins)
  ∧ (∀ (k : Nat) (x : PinSw) (s : State), s.dev.st ≠ .off → s.dev.resetLow = false → s.dev.switching = [(k, x)] →
    (x.left = 3 → ∃ t, exec .pinTick s = .next t ∧ (pinNow t k).1 = 0 ∧ (pinNow t k).2.1 = x.park
      ∧ tget t.dev.switching k = some { x with left := 2 })
    ∧ (x.left = 2 → ∃ t, exec .pinTick s = .next t ∧ pinNow t k = pinNow s k ∧ tget t.dev.switching k = some { x with left := 1 })
    ∧ (x.left = 1 → ∃ t, exec .pinTick s = .next t ∧ (pinNow t k).1 = x.func ∧ tget t.dev.switching k = none ∧ Raised 452 t))
  ∧ (∀ (w : Who) (j : Nat) (v : Word) (s : State), mayWrite w s = true → j < 7 →
    ∃ t, exec (.glbClkgateWrite w j v) s = .next t
      ∧ ∀ i, i < 32 → gated t (32 * j + i) = (v.getLsbD i && gateAllowed s (32 * j + i)))
  ∧ ∀ s : State,
    (runBlinks s = true → exec (.ledBlink false) s = .next { s with dev := { s.dev with ledRun := !s.dev.ledRun } })
    ∧ (fltBlinks s = true → exec (.ledBlink true) s = .next { s with dev := { s.dev with ledFlt := !s.dev.ledFlt } })

/-! ### Supplies, reset, START and SHUTDOWN (01 R42–R50, 13 R653–R662, 14 R685–R692) -/

/-- Power-up latches the straps and begins START with every register at its reset value, but AUTOSTART, which STRAP0 gives (R42, R691);
the keep store stays (08 R424). A falling rail takes the node OFF (R686). RESET# and GLB_RESET with its key abandon the present state for
START (R688, R712); GLB_RESET without its key does nothing. -/
def Obligations.ResetsBeginStart : Prop :=
  ∀ s : State,
    (∀ straps : BitVec 4, s.dev.st = .off → ∃ t, exec (.powerUpStart straps) s = .next t
      ∧ t.dev.st = .start ∧ t.dev.straps = straps ∧ t.dev.cause = 0 ∧ t.trn.memb = .unnumbered ∧ t.tm.tstate = .free
      ∧ rbit t 0x00C 1 = straps.getLsbD 0
      ∧ (∀ off, off ≠ 0x00C → regCur t off = (word (regReset off)).toNat)
      ∧ (s.kee.cur = none → t.kee.mem = s.kee.mem) ∧ t.pending = s.pending)
    ∧ (∀ r : Rail, ∃ t, exec (.railFall r) s = .next t ∧ t.dev.st = .off ∧ t.dev.rails.getLsbD (railIx r) = false
      ∧ t.pending = s.pending)
    ∧ (s.dev.st ≠ .off → ∃ t, exec .resetAssert s = .next t ∧ t.dev.st = .start ∧ t.dev.resetLow = true ∧ t.dev.cause = 1
      ∧ t.dev.straps = s.dev.straps ∧ t.trn.memb = .unnumbered ∧ t.ten.bobs = [])
    ∧ ∀ (w : Who) (v : Word), mayWrite w s = true →
      (v.getLsbD 0 = true → v.toNat / 65536 = 0x5AA5 → ∃ t, exec (.glbReset w v) s = .next t ∧ t.dev.st = .start ∧ t.dev.cause = 2
        ∧ t.dev.straps = s.dev.straps ∧ t.trn.memb = .unnumbered ∧ t.ten.bobs = [])
      ∧ ((v.getLsbD 0 = false ∨ v.toNat / 65536 ≠ 0x5AA5) → exec (.glbReset w v) s = .next s)

/-- START ends in SAFE where no identity copy is valid (08 R414), and in STANDBY where its BIST is not needed or passes, with no
commissioning image and without AUTOSTART (R42, 13 R662). From STANDBY a write of RUN, or of AUTOSTART, energises the bypass drivers and
takes the node into ACQUIRE, but under the bench hold of STRAP3 (R42, R692). -/
def Obligations.StartEndsAndRunIsEntered : Prop :=
  ∀ s : State,
    (s.dev.st = .start → s.dev.resetLow = false → idPage s = none → ∀ lb mb wqs, ∃ t, exec (.startComplete lb mb wqs) s = .next t
      ∧ t.dev.st = .safe ∧ t.dev.wasSafe = true)
    ∧ (s.dev.st = .start → s.dev.resetLow = false → idPage s ≠ none → imageOf s = none → rbit s 0x00C 1 = false →
      Memory.wf s.kee.mem = true → ∃ t, exec (.startComplete 0 0 0) s = .next t
      ∧ t.dev.st = .standby ∧ t.dev.started = true ∧ t.kee.hk = leAt (pageOf s ((idPage s).getD 0)) 8 1)
    ∧ (s.dev.st = .standby → s.dev.straps.getLsbD 3 = false →
      (∀ v : Word, v.getLsbD 0 = true → ∃ t, exec (.glbRun v) s = .next t ∧ t.dev.st = .acquire)
      ∧ ∀ (w : Who) (v : Word), stewardly w = true → v.getLsbD 1 = true → ∃ t, exec (.glbAutostartWrite w v) s = .next t
        ∧ t.dev.st = .acquire ∧ rbit t 0x00C 1 = true)
    ∧ (s.dev.st = .standby → s.dev.straps.getLsbD 3 = true → ∀ v : Word, v.getLsbD 0 = true → ∃ t, exec (.glbRun v) s = .next t
        ∧ t.dev.st = .standby)

/-- SHDN_REQ# and a falling SENT raise events 3 and 4 and take a serving node into SHUTDOWN (R42, R50): membership is UNNUMBERED, it is no
master, every pin is parked, every held injection but those of the BIST detectors has ended, and no page write is left waiting. -/
def Obligations.ShutdownIsEntered : Prop :=
  ∀ s : State, serving s = true → s.dev.resetLow = false →
    (∃ t, exec .shdnReq s = .next t ∧ Raised 3 t ∧ t.dev.st = .shutdown ∧ t.trn.memb = .unnumbered ∧ t.tm.master = false
      ∧ t.dev.switching = [] ∧ t.kee.pend = [] ∧ t.dbg.halted = false ∧ (t.int.shut = .keep ∨ t.int.shut = .decide)
      ∧ ∀ d, ¬(44 ≤ d ∧ d ≤ 46) → injOf t d = .none)
    ∧ ∃ t, exec .sentLow s = .next t ∧ Raised 4 t ∧ t.dev.st = .shutdown ∧ t.int.sentLow = true ∧ t.trn.memb = .unnumbered
      ∧ t.tm.master = false ∧ t.dev.switching = [] ∧ t.kee.pend = [] ∧ t.dbg.halted = false
      ∧ (t.int.shut = .keep ∨ t.int.shut = .decide) ∧ ∀ d, ¬(44 ≤ d ∧ d ≤ 46) → injOf t d = .none

/-- The shutdown BIST step by step (R653–R656, R659): the decision starts the logic BIST, or records why BIST does not run, or turns off
when the hold-up no longer covers the record; logic BIST is followed by memory BIST, that by the record; an injected D44 makes LB0 fail
(R640); the hold-up's end stops a BIST. -/
def Obligations.ShutdownBistSequence : Prop :=
  ∀ s : State,
    (∀ n : Nat, s.int.shut = .decide →
      ∃ t, exec (.bistDecision n) s = .next t
        ∧ (bistWhy n s = 0 → t.int.shut = .logic ∧ t.int.lbFail = 0 ∧ t.int.mbFail = 0 ∧ t.int.bistSent = s.int.sentLow
            ∧ t.kee = s.kee)
        ∧ (bistWhy n s ≠ 0 → s.int.sentLow = false ∨ n + 85 ≤ holdup s → t.int.shut = .record ∧ t.kee.bistSeq = s.kee.bistSeq + 1)
        ∧ (bistWhy n s ≠ 0 → s.int.sentLow = true → holdup s < n + 85 → t.int.shut = .off ∧ t.kee = s.kee))
    ∧ (∀ f : BitVec 12, s.int.shut = .logic → ∃ t, exec (.logicBistDone f) s = .next t ∧ t.int.shut = .memory
        ∧ t.int.lbFail = (if injOf s 44 = .none then f else f ||| 1) ∧ t.kee = s.kee ∧ t.dev = s.dev)
    ∧ (∀ (f : BitVec 20) (q : BitVec 64), s.int.shut = .memory → injOf s 45 = .none → injOf s 46 = .none →
        ∃ t, exec (.memoryBistDone f q) s = .next t ∧ t.int.shut = .record ∧ t.int.mbFail = f ∧ t.int.wqFail = q
          ∧ t.kee.bistSeq = s.kee.bistSeq + 1)
    ∧ (∀ e n : Nat, bistRuns s = true → s.int.bistSent = false → s.int.sentLow = true → holdup s < e + n →
        ∃ t, exec (.bistHoldupAbort e n) s = .next t
          ∧ (e + 85 ≤ holdup s → t.int.shut = .record ∧ t.kee.bistSeq = s.kee.bistSeq + 1)
          ∧ (holdup s < e + 85 → t.int.shut = .off ∧ t.kee = s.kee))

/-! ### Detectors (13 R632–R642) -/

/-- A firing of an active detector sets its INT_DETSTAT bit, raises its event 384 + d, and, where its reaction is SAFE, takes the node into
SAFE and names the detector as its cause; one whose reaction is EVENT does nothing more, but count in INT_DETCNT (R632, R633). An injected
firing is a real one, and raises INJECT_FIRED, event 434 (R641). The watchdog's expiry is D10. -/
def Obligations.DetectorFiringIsRecordedAndActs : Prop :=
  ∀ s : State,
    (∀ (d index : Nat) (v : Word), detActive s d = true → ∃ t, exec (.detectorFire d index v false) s = .next t
      ∧ Raised (384 + d) t ∧ t.int.detStat.getLsbD d = true
      ∧ (detSafe d = true → t.dev.st = .safe ∧ (s.dev.st ≠ .safe → t.dev.safeDet = d ∧ t.trn.memb = .unnumbered ∧ t.tm.master = false))
      ∧ (detSafe d = false → detContain d = false →
        Reports { s with int := { s.int with detStat := t.int.detStat } } t
        ∧ ctrGet t (0xC100 + 4 * d) = min 0xFFFF (ctrGet s (0xC100 + 4 * d) + 1)))
    ∧ (∀ (d index : Nat) (v : Word), detActive s d = true → injOf s d ≠ .none → ∃ t, exec (.detectorFire d index v true) s = .next t
      ∧ Raised (384 + d) t ∧ Raised 434 t ∧ t.int.detStat.getLsbD d = true)
    ∧ (detActive s 10 = true → ∃ t, exec .watchdogExpiry s = .next t ∧ Raised 394 t ∧ t.int.detStat.getLsbD 10 = true
      ∧ t.dev.st = .safe)
    ∧ exec .rgmiiRailBack s = .next { s with dev := { s.dev with rgDown := false, window := s.dev.window ||| 8 } }

/-! ### The keep store (08 R411–R428) -/

/-- KEE_CMD while none is in progress: READ and VERIFY begin, and set BUSY; WRITE to a page that the steward may not write ends with error
1, and in a state in which no page may be written with error 4; else the page write waits or begins (R427, R428). -/
def Obligations.KeepStoreCommandsBegin : Prop :=
  ∀ (p : Nat) (s : State), keeReady s = true →
    exec (.keeRead p) s = .next { s with kee := { s.kee with busy := true, done := false, reading := some (p % 256) } }
    ∧ exec .keeVerify s = .next { s with kee := { s.kee with busy := true, done := false, verifying := true } }
    ∧ (stewardPage (p % 256) = false →
      exec (.keeWrite p) s = .next { s with kee := { s.kee with busy := false, done := true, err := 1 } })
    ∧ (stewardPage (p % 256) = true → s.dev.st ≠ .standby → s.dev.st ≠ .run → s.dev.st ≠ .safe →
      exec (.keeWrite p) s = .next { s with kee := { s.kee with busy := false, done := true, err := 4 } })
    ∧ (stewardPage (p % 256) = true → 2 ≤ p % 256 → s.dev.st = .standby ∨ s.dev.st = .run ∨ s.dev.st = .safe →
      ∃ t, exec (.keeWrite p) s = .next t ∧ t.kee.busy = true ∧ t.kee.done = false ∧ t.kee.mem = s.kee.mem
        ∧ (KeepWr.steward (p % 256) (keeBuf s) ∈ t.kee.pend ∨ t.kee.cur = some (.steward (p % 256) (keeBuf s), p % 256, false)))

/-- The end of a page write: read back the same, the page holds the bytes written and no other byte of the store has changed; not the
same, the write is tried once more; not the same again, the page is erased, KEE_WRITE_FAIL, event 7, is raised, and the page reads as
bad (R411, R421). -/
def Obligations.PageWriteStoresItsPageAlone : Prop :=
  ∀ (w : KeepWr) (p : Nat) (hot : Bool) (s : State), Memory.wf s.kee.mem = true →
    (∀ again : Bool, s.kee.cur = some (w, p, again) → ∃ t, exec (.keepPageWriteDone true hot) s = .next t
      ∧ (∀ i, i < 256 → memGet t.kee.mem (0x100 * p + i) = (slice (keepPage s w).2 0 256).getD i 0)
      ∧ ∀ a, a < 0x100 * p ∨ 0x100 * p + 256 ≤ a → memGet t.kee.mem a = memGet s.kee.mem a)
    ∧ (s.kee.cur = some (w, p, false) → ∃ t, exec (.keepPageWriteDone false hot) s = .next t
      ∧ t.kee.cur = some (w, p, true) ∧ t.kee.mem = s.kee.mem ∧ t.kee.pend = s.kee.pend)
    ∧ (s.kee.cur = some (w, p, true) → ∃ t, exec (.keepPageWriteDone false hot) s = .next t ∧ Raised 7 t
      ∧ (∀ i, i < 256 → memGet t.kee.mem (0x100 * p + i) = 0) ∧ p ∈ t.kee.badPages)

/-- Reads of the keep store: a page read with no error, or a corrected one, fills KEE_BUF and ends with no error; one with an
uncorrectable error raises KEE_UE, event 9, and ends with error 3 (R422, R428). The daily read raises KEE_CE, event 8, for a corrected
error of a page without a copy, and KEE_UE for an uncorrectable one (R422). A changed clamp log is written out (R419). -/
def Obligations.KeepStoreReadsAndClampLog : Prop :=
  ∀ (p : Nat) (s : State),
    (s.kee.reading = some p → ∃ t, exec (.keepReadDone .clean) s = .next t
      ∧ t.kee.busy = false ∧ t.kee.done = true ∧ t.kee.err = 0 ∧ t.kee.page = p ∧ t.kee.reading = none ∧ t.kee.mem = s.kee.mem
      ∧ ∀ i, i < 64 → regCur t (0xD100 + 4 * i) = leAt (pageOf s p) (4 * i) 4)
    ∧ (s.kee.reading = some p → ∃ t, exec (.keepReadDone .uncorrectable) s = .next t ∧ Raised 9 t
      ∧ t.kee.busy = false ∧ t.kee.done = true ∧ t.kee.err = 3 ∧ p ∈ t.kee.badPages ∧ t.reg.cur = s.reg.cur)
    ∧ (powered s = true → copied (p % 256) = false → ∃ t, exec (.keepDailyRead p .correctable) s = .next t ∧ Raised 8 t ∧ Reports s t)
    ∧ (powered s = true → ∃ t, exec (.keepDailyRead p .uncorrectable) s = .next t ∧ Raised 9 t ∧ p % 256 ∈ t.kee.badPages
      ∧ t.kee.mem = s.kee.mem)
    ∧ (powered s = true → s.dev.st ≠ .shutdown → s.int.logDirty = true → s.kee.logClk = none →
      ∃ t, exec .clampLogPersist s = .next t ∧ t.int.logDirty = false ∧ t.int.logSeq = s.int.logSeq + 1
        ∧ t.kee.logClk = some s.tm.clk ∧ t.int.clamps = s.int.clamps ∧ t.kee.mem = s.kee.mem)

/-! ### Way-quadrants and scrubbing (08 R396–R410) -/

/-- A way-quadrant: DRAIN written while it is ON starts the drain where more than four ways of its quadrant are ON, and else is clamped
with CLAMP, event 432, and changes nothing (R399); ON written ends a drain or restarts it (R399); a drain with nothing left in its ways
ends OFF with CC_WAY_OFF, event 133 (R402); the end of a window clears every count of the window (R398). -/
def Obligations.WayQuadrantCommands : Prop :=
  ∀ (q way : Nat) (s : State), q < 4 → way < 16 →
    (reachable s = true → (wq s (way * 4 + q)).st = .on → 4 < onWays s q →
      ∃ t, exec (.wayctlDrain q way) s = .next t ∧ (wq t (way * 4 + q)).st = .drain ∧ (wq t (way * 4 + q)).auto = false)
    ∧ (reachable s = true → (wq s (way * 4 + q)).st = .on → onWays s q ≤ 4 →
      ∃ t, exec (.wayctlDrain q way) s = .next t ∧ t.cc = s.cc ∧ Raised 432 t)
    ∧ (reachable s = true → (wq s (way * 4 + q)).st ≠ .on →
      ∃ t, exec (.wayctlOn q way) s = .next t ∧ (wq t (way * 4 + q)).st = .on ∧ t.cc.ways = s.cc.ways)
    ∧ ((wq s (way * 4 + q)).st = .drain → (∀ e ∈ s.cc.ways, ¬(e.1 % 16 = way ∧ e.1 / 4096 = q)) →
      ∃ t, exec (.ccWayOff q way) s = .next t ∧ Raised 133 t
        ∧ (wq t (way * 4 + q)).st = (if (wq s (way * 4 + q)).auto then .offAuto else .offSteward))
    ∧ ∃ l, exec .ccWindowEnd s = .next { s with cc := { s.cc with wqs := l } } ∧ ∀ i, (wq { s with cc := { s.cc with wqs := l } } i).win = 0
        ∧ (wq { s with cc := { s.cc with wqs := l } } i).total = (wq s i).total ∧ (wq { s with cc := { s.cc with wqs := l } } i).st = (wq s i).st

/-- A scrub step moves its store's position on, round its end (R410); where the item is clean nothing else changes. A home line whose data
cannot be corrected, with no filter entry, is marked ERRDATA and HS_UE, event 135, is raised (R405). -/
def Obligations.ScrubMovesOn : Prop :=
  ∀ (r : ScrubFind) (s : State), scrubs s = true →
    (∃ t, exec (.scrubStep .copyCache r) s = .next t ∧ t.cc.scrubCc = (s.cc.scrubCc + 1) % 16384
      ∧ (r = .clean → Reports { s with cc := { s.cc with scrubCc := (s.cc.scrubCc + 1) % 16384 } } t))
    ∧ (isBusy s (laOf s.kee.hk s.cc.scrubHs) = false → ∃ t, exec (.scrubStep .homeStore r) s = .next t
      ∧ t.cc.scrubHs = (s.cc.scrubHs + 1) % 16384
      ∧ (r = .uncorrectable → homeHas s (laOf s.kee.hk s.cc.scrubHs) = true → fEntry s (laOf s.kee.hk s.cc.scrubHs) = none →
        Raised 135 t ∧ (homeLine t (laOf s.kee.hk s.cc.scrubHs)).errData = true
          ∧ (homeLine t (laOf s.kee.hk s.cc.scrubHs)).data = (homeLine s (laOf s.kee.hk s.cc.scrubHs)).data))
    ∧ (scrubBusy s s.cc.scrubF = false → ∃ t, exec (.scrubStep .filter r) s = .next t ∧ t.cc.scrubF = (s.cc.scrubF + 1) % 12288)

/-! ### Links, bypass and lane control (03 R130–R134, R183–R195; 05 R229–R231) -/

/-- A side's link. A poll that is due sends the MDIO frames that read the register LAN_SIDEn_POLL names; one that is not due does nothing. Two
polls in a row whose POLL_BIT is 1, with RXC present, declare the link up, and one poll does not; a poll whose POLL_BIT is 0, a poll without
RXC and RXC lost declare it down (R133). A link that comes up at the lane's speed is GATED in RUN outside maintenance and else UP, with LINK_UP;
one that runs at another speed is SPDERR, with its event (R130, R185); one that goes down is DOWN, with LINK_DOWN (R185). A relay that has
settled lets links be evaluated (R183). -/
def Obligations.LinkStateFollowsThePolls : Prop :=
  ∀ (l : LaneId) (sd : Side) (s : State), s.lan.lanes.length = 3 →
    (∀ (data : BitVec 16) (rxc fast : Bool),
      (pollDue s l sd = false → exec (.mdioPoll l sd data rxc fast) s = .next s)
      ∧ (pollDue s l sd = true → ∃ t, exec (.mdioPoll l sd data rxc fast) s = .next t ∧ (sideOf t l sd).pollClk = some s.tm.clk
        ∧ (∀ w ∈ pollFrames s l sd, .mdio w ∈ t.out) ∧ sideOf t l (other sd) = sideOf s l (other sd)
        ∧ (evaluates s l = true → s.dev.rgDown = false →
          (pollBit s l sd data = true → rxc = true → 1 ≤ (sideOf s l sd).ones → (sideOf s l sd).link = .down ∨ (sideOf s l sd).link = .spderr →
            (fast = laneFast s (laneIx l) → Raised (64 + 16 * laneIx l + 1) t
              ∧ (sideOf t l sd).link = (if s.dev.st = .run ∧ laneMaint s l = false then .gated else .up)
              ∧ (sideOf t l sd).confirm = (if laneMaint s l then none else some true))
            ∧ (fast ≠ laneFast s (laneIx l) → (sideOf t l sd).link = .spderr
              ∧ ((sideOf s l sd).link = .down → Raised (64 + 16 * laneIx l + 2) t)))
          ∧ (pollBit s l sd data = true → (sideOf s l sd).ones = 0 → (sideOf s l sd).link = .down →
            (sideOf t l sd).link = .down ∧ (sideOf t l sd).ones = 1)
          ∧ (pollBit s l sd data = false ∨ rxc = false → (sideOf s l sd).link ≠ .down → Raised (64 + 16 * laneIx l) t
            ∧ (sideOf t l sd).link = .down ∧ (sideOf t l sd).noPeer = true ∧ (sideOf t l sd).ranged = false))))
    ∧ (powered s = true → evaluates s l = true → (sideOf s l sd).link ≠ .down → ∃ t, exec (.rxcLoss l sd) s = .next t
      ∧ Raised (64 + 16 * laneIx l) t ∧ (sideOf t l sd).link = .down ∧ (sideOf t l sd).rxc = false
      ∧ sideOf t l (other sd) = sideOf s l (other sd))
    ∧ ∃ t, exec (.relaySettle l) s = .next t ∧ (laneAt t l).settling = false ∧ (laneAt t l).e1 = (laneAt s l).e1
      ∧ (laneAt t l).e2 = (laneAt s l).e2 ∧ t = { s with lan := { s.lan with lanes := t.lan.lanes } }

/-- A cause found makes a node in RUN call, once and from then on in step 1 (05 R229, R232); in INAUG it begins the inauguration again at the
next row, counted once, and the fourth counted isolates the node (05 R281, R282); a node that waits out its isolation, or is in neither state,
does nothing (log 60). A confirmed link change is such a cause, but for a link that comes up under CPL_MODE 2 while the coupler signal is low,
and a coupler edge under CPL_MODE 1 (05 R229–R231). A coupler edge under another mode only sets its level. -/
def Obligations.CouplingChangesAreCauses : Prop :=
  (∀ (c : Nat) (s : State),
    (s.dev.st = .run → s.trn.isoRestarts = false → (causeFound c s).trn.call = some (s.trn.call.getD c)
      ∧ (causeFound c s).trn.cause = s.trn.call.getD c ∧ (causeFound c s).trn.step = 1 ∧ (causeFound c s).pat.props = [])
    ∧ (s.dev.st = .inaug → ∀ counts, counts = (decide (c ≠ 2) && !s.trn.restartCounted) →
      (counts = false ∨ s.trn.restarts < 3 → (causeFound c s).trn.restartNext = true
        ∧ (causeFound c s).trn.restarts = s.trn.restarts + b2n counts)
      ∧ (counts = true → 3 ≤ s.trn.restarts → (causeFound c s).dev.st = .run ∧ (causeFound c s).trn.memb = .isolated))
    ∧ (s.dev.st = .run ∧ s.trn.isoRestarts = true ∨ s.dev.st ≠ .run ∧ s.dev.st ≠ .inaug → causeFound c s = s))
  ∧ (∀ (l : LaneId) (sd : Side) (s : State),
    ((sideOf s l sd).confirm = none → exec (.linkConfirmed l sd) s = .next s)
    ∧ ∀ up, (sideOf s l sd).confirm = some up →
      (up = true → rfld s 0x7000 0 2 = 2 → s.trn.cple.getD (sideIx sd) false = false → exec (.linkConfirmed l sd) s = .next s)
      ∧ (up = false ∨ rfld s 0x7000 0 2 ≠ 2 ∨ s.trn.cple.getD (sideIx sd) false = true →
        exec (.linkConfirmed l sd) s = .next (causeFound (if up then 0 else 1) (modSide l sd (fun x => { x with confirm := none }) s))))
  ∧ ∀ (e : Nat) (level : Bool) (s : State),
    let u := { s with trn := { s.trn with cple := s.trn.cple.set (e - 1) level, cpleConf := s.trn.cpleConf.set (e - 1) level } }
    (powered s = false ∨ (e ≠ 1 ∧ e ≠ 2) → exec (.couplerEdge e level) s = .next s)
    ∧ (powered s = true → e = 1 ∨ e = 2 →
      (rfld s 0x7000 0 2 = 1 → exec (.couplerEdge e level) s = .next (causeFound (if level then 0 else 1) u))
      ∧ (rfld s 0x7000 0 2 ≠ 1 → exec (.couplerEdge e level) s = .next u))

/-- A steward write of LAN_CTRL, by each of its three commands: EN and BYP_FORCE are as written; with EN = 1 and BYP_FORCE = 0 in ACQUIRE, RUN
and INAUG the lane's driver is energised, else it is not, and both sides are DOWN unless an enabled lane is only forced there (R183, R721).
SPEED is taken with MAINT = 1 after the write; without it the old speed stays, and LANE_CFG_REFUSED is raised where it was to change (R191). A
write of another, or into a gated block that stays gated, is ignored (14 R696). An MDIO command goes out and its end leaves the data read
(R134, R195); one while another is in progress is not taken (log 66). -/
def Obligations.LaneControlWrites : Prop :=
  ∀ (w : Who) (l : LaneId) (v : Word) (s : State),
    (∀ c ∈ [Instr.lanEnableWrite w l v, .bypForceWrite w l v, .laneSpeedWrite w l v],
      (mayWrite w s = false ∨ (gateShut s (lanBase (laneIx l)) = true ∧ gatesFreed (lanCtrlWrite (byWho w) l v s) = []) → exec c s = .next s)
      ∧ (mayWrite w s = true → gateShut s (lanBase (laneIx l)) = false ∨ gatesFreed (lanCtrlWrite (byWho w) l v s) ≠ [] →
        s.lan.lanes.length = 3 → ∃ t, exec c s = .next t
        ∧ laneEn t (laneIx l) = v.getLsbD 0 ∧ lanBit t (laneIx l) 3 = v.getLsbD 3 ∧ laneMaint t l = v.getLsbD 2
        ∧ (v.getLsbD 0 = true → v.getLsbD 3 = false → s.dev.st = .acquire ∨ s.dev.st = .run ∨ s.dev.st = .inaug → (laneAt t l).byp = true)
        ∧ (v.getLsbD 0 = false ∨ v.getLsbD 3 = true ∨ (s.dev.st ≠ .acquire ∧ s.dev.st ≠ .run ∧ s.dev.st ≠ .inaug) → (laneAt t l).byp = false)
        ∧ (v.getLsbD 0 = false ∨ (s.dev.st ≠ .acquire ∧ s.dev.st ≠ .run ∧ s.dev.st ≠ .inaug) → ∀ sd, (sideOf t l sd).link = .down)
        ∧ (v.getLsbD 2 = true ∨ v.getLsbD 1 = laneFast s (laneIx l) → laneFast t (laneIx l) = v.getLsbD 1)
        ∧ (v.getLsbD 2 = false → v.getLsbD 1 ≠ laneFast s (laneIx l) → laneFast t (laneIx l) = laneFast s (laneIx l)
          ∧ Raised (64 + 16 * laneIx l + 10) t)))
    ∧ (reachable s = false ∨ s.lan.mdioBusy = true → exec (.lanMdioCmd v) s = .next s)
    ∧ (reachable s = true → s.lan.mdioBusy = false → exec (.lanMdioCmd v) s = .next { s with
        lan := { s.lan with mdioBusy := true, mdioDone := false, mdioCmd := some v }, out := .mdio v :: s.out })
    ∧ ∀ rd : BitVec 16, (s.lan.mdioCmd = none → exec (.mdioFrameDone rd) s = .next s)
      ∧ (s.lan.mdioCmd = some v → exec (.mdioFrameDone rd) s = .next { s with lan := { s.lan with
        mdioBusy := false, mdioDone := true, mdioCmd := none
        mdioData := if bitsOf v.toNat 11 2 = 2 ∨ bitsOf v.toNat 11 2 = 3 then rd else s.lan.mdioData } })

/-! ### Ranging (03 R168–R179, R190) -/

/-- Ranging: a ranging stitch begins with each side's RSEQ counted on, and a side beyond which no peer is heard on the other side sends (R172,
R173). A valid RANGE is noted with its stamp, and where its exchange is complete its mean is smoothed into the link's (R174, R175); with its
coordinate valid and the side ranged, the other side's coordinate is the sender's plus the delay plus REP_NOM (R169), and within the stitch
the other side sends in turn where it has not (R172). A side that heard nothing in a stitch that has ended counts a miss, and at the sixteenth
loses the coordinate that depends on it, with RANGE_LOST (R190); the fallback sends where nothing has been sent. On a lane that does not range
nothing happens, nor where a command's occasion is absent (log 44). -/
def Obligations.RangingMeasuresTheLinks : Prop :=
  ∀ (l : LaneId) (sd : Side) (s : State), s.lan.lanes.length = 3 →
    (ranges s l = false → exec (.rangingStitchStart l) s = .next s ∧ (∀ m, exec (.range l sd m) s = .next s)
      ∧ exec (.rangingMiss l sd) s = .next s ∧ exec (.rangingFallback l sd) s = .next s)
    ∧ (ranges s l = true → ∃ t, exec (.rangingStitchStart l) s = .next t ∧ (laneAt t l).ranging = true
      ∧ (sideOf t l sd).rseq = ((sideOf s l sd).rseq + 1) % 32 ∧ (sideOf t l sd).wave = none
      ∧ ((sideOf s l (other sd)).noPeer = true → sideOpen s l sd 2 = true →
        (sideOf t l sd).sent = true ∧ (sideOf t l sd).tx1 = some (s.tm.clk + 16000)))
    ∧ (ranges s l = true → ∀ (m : RangeMsg) (live : Bool) (t1 : Option Nat), live = ((laneAt s l).ranging && decide (s.tm.clk < (laneAt s l).rngEnd)) →
      t1 = (if (sideOf s l sd).sent && live then (sideOf s l sd).tx0 else (sideOf s l sd).tx1) → ∃ t, exec (.range l sd m) s = .next t
      ∧ (sideOf t l sd).noPeer = false ∧ (sideOf t l sd).heard = true ∧ (sideOf t l sd).jseq = some m.rseq
      ∧ (sideOf t l sd).rx1 = some (s.tm.clk - repNom s l) ∧ (sideOf t l sd).rx0 = (sideOf s l sd).rx1
      ∧ (m.prevv = false ∨ (sideOf s l sd).jseq ≠ some ((m.rseq + 31) % 32) ∨ t1 = none ∨ (sideOf s l sd).rx1 = none →
        (sideOf t l sd).mean = (sideOf s l sd).mean ∧ (sideOf t l sd).ranged = (sideOf s l sd).ranged)
      ∧ (∀ a d, m.prevv = true → (sideOf s l sd).jseq = some ((m.rseq + 31) % 32) → t1 = some a → (sideOf s l sd).rx1 = some d →
        (sideOf t l sd).mean = (smooth (sideOf s l sd) (rawMean a d m)).1 ∧ (sideOf t l sd).ranged = true)
      ∧ (m.yvalid = true → (sideOf t l sd).ranged = true → (sideOf t l (other sd)).yv = true
        ∧ (sideOf t l (other sd)).y
          = ((m.y.toNat : Int) + ((sideOf t l sd).mean + (asymOf s l sd).toInt - m.asym.toInt) + repNom s l).toNat)
      ∧ (live = true → (sideOf s l (other sd)).sent = false → sideOpen s l (other sd) 2 = true →
        (sideOf t l (other sd)).sent = true ∧ (sideOf t l (other sd)).tx1 = some s.tm.clk))
    ∧ (ranges s l = true → ∀ x, x = sideOf (endRanging l s) l sd →
      (x.missed = false ∨ (x.link ≠ .up ∧ x.link ≠ .gated) → exec (.rangingMiss l sd) s = .next s)
      ∧ (x.missed = true → x.link = .up ∨ x.link = .gated → ∃ t, exec (.rangingMiss l sd) s = .next t
        ∧ (sideOf t l sd).misses = min 16 (x.misses + 1) ∧ (sideOf t l sd).missed = false
        ∧ (x.misses = 15 → Raised (64 + 16 * laneIx l + 11) t ∧ (sideOf t l (other sd)).yv = false)))
    ∧ (ranges s l = true →
      ((laneAt s l).ranging = false ∨ (sideOf s l sd).sent = true ∨ sideOpen s l sd 2 = false → exec (.rangingFallback l sd) s = .next s)
      ∧ ((laneAt s l).ranging = true → (sideOf s l sd).sent = false → sideOpen s l sd 2 = true →
        ∃ t bytes, exec (.rangingFallback l sd) s = .next t ∧ (sideOf t l sd).sent = true ∧ .frame l sd bytes ∈ t.out
          ∧ (sideOf t l sd).tx1 = some s.tm.clk ∧ (sideOf t l sd).tx0 = (sideOf s l sd).tx1))

/-! ### Completions (09 R456, R466–R468) -/

/-- A completing job writes its output first, then its CQ entry, then its bobbin is free; with ring and overflow full the bobbin keeps
the completion (09 R456, R467, R468; 07 R373). Before the entry the node only stores the output and reports. With room in the ring the
entry stands at the ring's tail, with SQHD, OVF, FENCE and the phase bit filled in. -/
def Obligations.CompletionsEnterTheirRing : Prop :=
  (∀ (b : Nat) (v : Bobbin) (d : Done) (s : State), bobOf s b = some v → v.kind = .job → v.absorb = false →
    ∃ (u w : State) (fate : CqFate), Reports { s with pmc := { s.pmc with buf := u.pmc.buf } } u
      ∧ cqPut v.job.ten { bytes := doneBytes v.job d (d.out.any fun o => decide (v.job.olen < o.length)) s.tm.hoop, irq := v.job.irq } u = (w, fate)
      ∧ (fate ≠ .none → complete b d s = freeBob b w)
      ∧ (fate = .none → (bobOf (complete b d s) b).any (fun x => x.wait == .cqFull && x.kept.isSome) = true))
  ∧ ∀ (n : Nat) (item : CqItem) (s : State), item.bytes.length = 32 → (tenOf s n).ovf = [] → cqFull s n = false → isSpi s n = false → s.ten.noCredit = false →
    (cqPut n item s).2 = .written ∧ ∃ e, .hostWrite n (base64 s (tenBase n + 0x210) + 32 * (tenOf s n).cqTail) e ∈ (cqPut n item s).1.out
      ∧ slice e 0 4 = slice item.bytes 0 4 ∧ slice e 4 2 = leBytes 2 (tenOf s n).sqHead
      ∧ slice e 31 1 = leBytes 1 ((tenOf s n).fence % 16 + 128 * b2n (tenOf s n).phase)

/-! ### Line commands (06 R299–R337; 08 R386–R395; 10 R503–R519) -/

/-- READ, READ_BLOCK's next line and READ_FRESH. The copy of a line homed elsewhere serves a READ in S, E, M or P (06 R300), and a
READ_FRESH of a CLAIM line in S, E or M (10 R511); a transient one leaves a READ to wait, and a lost M line is DATA_ERROR once (08 R397). A
READ of a CLAIM line without a copy fills one where a way is free, waits for one that frees, and else reads uncached (08 R381, R382); of a
PUBLISH line it sends READ_HOME, as a READ_FRESH does that no copy serves. Without the lanes it waits or is DENIED (10 R555, 02 R96). On a
line homed here each becomes a request of the line's FIFO (06 R310), once a tracker is free and the state allows it. -/
def Obligations.ReadCommands : Prop :=
  ∀ (b la : Nat) (v : Bobbin) (s : State) (op : Nat) (c : Nat → Instr), (op, c) ∈ [(1, Instr.read), (3, Instr.readBlock), (2, Instr.readFresh)] →
    LineJob s b op la v →
    (homedHere s la = false → la ∉ s.cc.lostM → ∀ (k : Nat) (cp : Copy), copyOf s la = some (k, cp) →
      (cp.st ∈ [.s, .e, .m] ∨ op ≠ 2 ∧ cp.st = .p → (op = 2 → claimJob v = true) →
        exec (c b) s = .next (finishLine b
          { version := cp.version, age := copyAge s cp, data := some cp.data, aged := cp.stale || jobAged v (copyAge s cp) } (perf 16 (some v.job.ten) (touch la s))))
      ∧ (op ≠ 2 → cp.st ∉ [.s, .e, .m, .p] → exec (c b) s = .next s)
      ∧ (op = 2 → cp.st ∉ [.s, .e, .m] ∨ claimJob v = false → LaneOpen s v false →
        exec (c b) s = .next (sendReq b { typ := .readHome, la := la } s)))
    ∧ (homedHere s la = false → op ≠ 2 → la ∈ s.cc.lostM → exec (c b) s = .next
      (finishLine b { status := stDataError } { s with cc := { s.cc with lostM := s.cc.lostM.filter (· != la) } }))
    ∧ (homedHere s la = false → la ∉ s.cc.lostM → copyOf s la = none →
      (LaneOpen s v false → op = 2 ∨ claimJob v = false →
        exec (c b) s = .next (sendReq b { typ := .readHome, la := la } (if op = 2 then s else perf 17 (some v.job.ten) s)))
      ∧ (LaneOpen s v false → op ≠ 2 → claimJob v = true →
        (∀ k, (wayFor b la s).2 = .got k → exec (c b) s = .next
          (startFill b k la .is { typ := .rdShared, la := la } (perf 17 (some v.job.ten) (wayFor b la s).1)))
        ∧ ((wayFor b la s).2 = .later → exec (c b) s = .next (waitAs b .way (wayFor b la s).1))
        ∧ ((wayFor b la s).2 = .none → exec (c b) s = .next (sendReq b { typ := .readHome, la := la } (perf 17 (some v.job.ten) s))))
      ∧ ∀ hc g, hc = remoteCls s la v.cls → g = remoteGate s false hc →
        (g = .deny → exec (c b) s = .next (finishLine b { status := stDenied } s))
        ∧ (g = .run → hc = .c0 → timed s = false → exec (c b) s = .next (waitAs b .sync s))
        ∧ (g = .wait → exec (c b) s = .next (waitAs b (if hc = .c0 ∧ timed s = false ∧ s.dev.st ≠ .inaug then .sync else .state) s)))
    ∧ (homedHere s la = true →
      (homeGate s false ≠ .run → exec (c b) s = .next (waitAs b .state s))
      ∧ (homeGate s false = .run →
        (takeTrk s (clsAt s la v.cls) false = none → exec (c b) s = .next s)
        ∧ ∀ k, takeTrk s (clsAt s la v.cls) false = some k →
          exec (c b) s = .next (atOwnHome b v { typ := if op = 2 then .readHome else .rdShared, la := la } k s)))

/-- WRITE, WRITE_MASKED, WRITE_BLOCK's next line, ZERO_LINE and CLAIM on a line homed elsewhere: an E or M copy takes the data and is M
(06 R300, 10 R508); an S copy asks for ownership without data; without a copy one is filled with ownership, ZERO_LINE's without data, where a
way is free (08 R381, R394), and else waits for a way; a transient copy leaves it to wait; on a PUBLISH line the write goes to the home (06
R301). Without the lanes it waits or is DENIED (10 R555, 02 R96). On a line homed here each becomes a request of the line's FIFO, once a
tracker is free and the state allows it. A write that relied on a broken lease is marked (06 R329). -/
def Obligations.WriteCommands : Prop :=
  ∀ (b la op : Nat) (c : Nat → Instr) (v : Bobbin) (s u : State),
    (op, c) ∈ [(4, Instr.write), (5, Instr.writeMasked), (6, Instr.writeBlock), (7, Instr.zeroLine), (8, Instr.claim)] →
    LineJob s b op la v → u = (if op = 8 then s else relyLease b la s) →
    (homedHere s la = false → LaneOpen s v true → claimJob v = true →
      (∀ (k : Nat) (cp : Copy), copyOf s la = some (k, cp) →
        (cp.st = .e ∨ cp.st = .m → exec (c b) s = .next (finishLine b { version := cp.version } (touch la (setCopy k { cp with
            st := .m, bob := none, data := writeInto v.job v.blk cp.data, again := none } (perf 18 (some v.job.ten) u)))))
        ∧ (cp.st = .s → exec (c b) s = .next (sendReq b { typ := .ownNodata, la := la } (setCopy k { cp with
            st := .sm, back := .s, bob := some b, again := none } (perf 20 (some v.job.ten) u))))
        ∧ (cp.st ∉ [CState.e, .m, .s] → exec (c b) s = .next u))
      ∧ (copyOf s la = none →
        (∀ k, (wayFor b la u).2 = .got k → exec (c b) s = .next (startFill b k la .im
          (if op = 7 then { typ := .ownNodata, la := la, flg := 1 } else { typ := .rdOwn, la := la }) (perf 19 (some v.job.ten) (wayFor b la u).1)))
        ∧ ((∀ k, (wayFor b la u).2 ≠ .got k) → exec (c b) s = .next (waitAs b .way (wayFor b la u).1))))
    ∧ (homedHere s la = false → op ≠ 8 → LaneOpen s v true → claimJob v = false → exec (c b) s = .next (sendReq b (writeMsg v.job v.blk la) u))
    ∧ (homedHere s la = false → ∀ hc g, hc = remoteCls s la v.cls → g = remoteGate s true hc →
      (g = .deny → exec (c b) s = .next (finishLine b { status := stDenied } s))
      ∧ (g = .run → hc = .c0 → timed s = false → exec (c b) s = .next (waitAs b .sync s))
      ∧ (g = .wait → exec (c b) s = .next (waitAs b (if hc = .c0 ∧ timed s = false ∧ s.dev.st ≠ .inaug then .sync else .state) s)))
    ∧ (homedHere s la = true →
      (homeGate u true ≠ .run → exec (c b) s = .next (waitAs b .state u))
      ∧ (homeGate u true = .run →
        (takeTrk u (clsAt u la v.cls) false = none → exec (c b) s = .next u)
        ∧ ∀ k, takeTrk u (clsAt u la v.cls) false = some k →
          exec (c b) s = .next (atOwnHome b v (if op = 8 then { typ := .rdOwn, la := la } else writeMsg v.job v.blk la) k u)))

/-- ATOMIC, LOCK, UNLOCK, SUBSCRIBE and UNSUBSCRIBE. The first three become requests at the line's home, there or here (06 R322–R328), once the
lanes or a tracker and the states allow it (10 R555); an own S or E copy is dropped before an ATOMIC, an M copy written back (log 39).
SUBSCRIBE with a P copy, or on a line homed here that is neither ORPHAN nor in error, completes with its version and records its tenant;
without a copy it fills one, where a way is free and no UNSUB_REQ is open (10 R515). UNSUBSCRIBE by the last tenant drops the P copy and sends
UNSUB_REQ, by another, or at the home, only ends its interest, and without one completes (10 R516). Without the lanes
they wait or are DENIED too (10 R555, 02 R96). -/
def Obligations.HomeAndSubscriptionCommands : Prop :=
  ∀ (b la : Nat) (v : Bobbin) (s : State),
    (∀ (op : Nat) (c : Nat → Instr) (m : LineMsg) (u : State),
      (op, c, m, u) ∈ [(10, Instr.atomic, { typ := .atomicReq, la := la, param := atomicParam v.job, data := atomicData v.job }, relyLease b la s),
        (11, Instr.lock, { typ := .lockReq, la := la, param := word (lockHoops v.job) }, s),
        (12, Instr.unlock, { typ := .unlockReq, la := la }, relyLease b la s)] → LineJob s b op la v →
      (homedHere s la = false →
        (LaneOpen s v true → op ≠ 10 → exec (c b) s = .next (sendReq b m u))
        ∧ (LaneOpen s v true → op = 10 →
          (copyOf s la = none → exec (c b) s = .next (sendReq b m (perf 28 (some v.job.ten) u)))
          ∧ ∀ (k : Nat) (cp : Copy), copyOf s la = some (k, cp) →
            (cp.st = .p ∨ cp.st = .ip → exec (c b) s = .next (sendReq b m (perf 28 (some v.job.ten) u)))
            ∧ (cp.st = .s ∨ cp.st = .e → exec (c b) s = .next (sendReq b m (perf 28 (some v.job.ten) (relyLease b la (dropWay k s)))))
            ∧ (cp.st = .m → exec (c b) s = .next (evictM k cp false s))
            ∧ (cp.st ∉ [CState.p, .ip, .s, .e, .m] → exec (c b) s = .next s))
        ∧ ∀ hc g, hc = remoteCls s la v.cls → g = remoteGate s true hc →
          (g = .deny → exec (c b) s = .next (finishLine b { status := stDenied } s))
          ∧ (g = .run → hc = .c0 → timed s = false → exec (c b) s = .next (waitAs b .sync s))
          ∧ (g = .wait → exec (c b) s = .next (waitAs b (if hc = .c0 ∧ timed s = false ∧ s.dev.st ≠ .inaug then .sync else .state) s)))
      ∧ (homedHere s la = true →
        (homeGate u true ≠ .run → exec (c b) s = .next (waitAs b .state u))
        ∧ (homeGate u true = .run →
          (takeTrk u (clsAt u la v.cls) false = none → exec (c b) s = .next u)
          ∧ ∀ k, takeTrk u (clsAt u la v.cls) false = some k → exec (c b) s = .next (atOwnHome b v m k u))))
    ∧ (LineJob s b 13 la v → homedHere s la = false → claimJob v = false →
      (∀ (k : Nat) (cp : Copy), copyOf s la = some (k, cp) →
        (cp.st = .p → exec (.subscribe b) s = .next (finishLine b
          { version := cp.version, age := copyAge s cp, aged := cp.stale || jobAged v (copyAge s cp) } (addSub la (subscriber v) s)))
        ∧ (cp.st ≠ .p → exec (.subscribe b) s = .next s))
      ∧ (copyOf s la = none →
        (unsubOut s la = true → exec (.subscribe b) s = .next (waitAs b .unsub s))
        ∧ (unsubOut s la = false → LaneOpen s v false →
          (∀ k, (wayFor b la s).2 = .got k → exec (.subscribe b) s = .next (startFill b k la .ip { typ := .subReq, la := la } (wayFor b la s).1))
          ∧ ((∀ k, (wayFor b la s).2 ≠ .got k) → exec (.subscribe b) s = .next (waitAs b .way (wayFor b la s).1)))))
    ∧ (LineJob s b 13 la v → homedHere s la = true →
      (homeGate s false ≠ .run → exec (.subscribe b) s = .next (waitAs b .state s))
      ∧ (homeGate s false = .run → exec (.subscribe b) s = .next (
        if (homeLine s la).orphan then finishLine b { status := stOrphan } s
        else if (homeLine s la).errData then finishLine b { status := stDataError } s
        else finishLine b
          { version := (homeLine s la).version, age := homeAge s (homeLine s la), aged := jobAged v (homeAge s (homeLine s la)) } (addSub la (subscriber v) s))))
    ∧ (LineJob s b 14 la v → ∀ u, u = delSub la v.job.ten s → ∀ done, done = (fun (x : State) =>
        finishLine b { status := idleStatus s la, version := lineVersion s la } x) →
      (homedHere s la = true → homeGate s false ≠ .run → exec (.unsubscribe b) s = .next (waitAs b .state s))
      ∧ (homedHere s la = true → homeGate s false = .run → exec (.unsubscribe b) s = .next
        (finishLine b { status := idleStatus u la, version := lineVersion u la } u))
      ∧ (homedHere s la = false →
        (claimJob v = true ∨ (subsOf s la).contains v.job.ten = false → exec (.unsubscribe b) s = .next (done s))
        ∧ (claimJob v = false → (subsOf s la).contains v.job.ten = true →
          ((subsOf s la).any (· != v.job.ten) = true ∨ copyOf s la = none → exec (.unsubscribe b) s = .next (done u))
          ∧ ((subsOf s la).any (· != v.job.ten) = false → ∀ (k : Nat) (cp : Copy), copyOf s la = some (k, cp) →
            (cp.st = .p → LaneOpen s v false → exec (.unsubscribe b) s = .next (sendReq b { typ := .unsubReq, la := la } (dropWay k u)))
            ∧ (cp.st ≠ .p → transient cp.st = true → exec (.unsubscribe b) s = .next s)
            ∧ (cp.st ≠ .p → transient cp.st = false → exec (.unsubscribe b) s = .next (done u))))))
    ∧ (∀ (op : Nat) (c : Nat → Instr), (op, c) ∈ [(13, Instr.subscribe), (14, Instr.unsubscribe)] → LineJob s b op la v → homedHere s la = false →
      claimJob v = false → (op = 13 → copyOf s la = none ∧ unsubOut s la = false) →
      (op = 14 → (subsOf s la).contains v.job.ten = true ∧ (subsOf s la).any (· != v.job.ten) = false ∧ ∃ k cp, copyOf s la = some (k, cp) ∧ cp.st = .p) →
      ∀ hc g, hc = remoteCls s la v.cls → g = remoteGate s false hc →
        (g = .deny → exec (c b) s = .next (finishLine b { status := stDenied } s))
        ∧ (g = .run → hc = .c0 → timed s = false → exec (c b) s = .next (waitAs b .sync s))
        ∧ (g = .wait → exec (c b) s = .next (waitAs b (if hc = .c0 ∧ timed s = false ∧ s.dev.st ≠ .inaug then .sync else .state) s)))

/-- RELEASE, FLUSH, INVALIDATE, CLEAN, PREFETCH, PIN and UNPIN. On a line homed here each completes with the line's version, and ORPHAN where
the line is (08 R395, 05 R277). On a line homed elsewhere FLUSH of an S or E copy and INVALIDATE of an S, E or M copy send EVICT_CLEAN (an M
copy's loss is counted); FLUSH and CLEAN of an M copy send WRITEBACK, CLEAN to keep it; RELEASE is FLUSH of an E or M copy and else completes;
without a copy each completes, and so does CLEAN of a copy that is not modified (08 R390, R391; 10 R509); one that finds the copy's fill or
eviction in progress is attached to it (07 R354). PREFETCH of a CLAIM line without a copy fills one where a way is free, and with a copy or
of another line completes. PIN reserves where the limits leave room and else is CAPACITY; UNPIN ends the reservation, unless a region's
holds it (08 R386, R388). At an ISOLATED node the first five complete (10 R557). -/
def Obligations.MaintenanceCommands : Prop :=
  ∀ (b la : Nat) (v : Bobbin) (s : State),
    (∀ (op : Nat) (c : Nat → Instr),
      (op, c) ∈ [(9, Instr.release), (0x10, Instr.flush), (0x11, Instr.invalidate), (0x12, Instr.clean), (0x15, Instr.prefetch)] →
      LineJob s b op la v → homedHere s la = true ∨ s.dev.st = .run ∧ s.trn.memb = .isolated →
      exec (c b) s = .next (finishLine b { status := idleStatus s la, version := lineVersion s la } s))
    ∧ (homedHere s la = true → v.job.la = la → ∀ (op : Nat) (c : Nat → Instr), (op, c) ∈ [(0x13, Instr.pin), (0x14, Instr.unpin)] →
      LineJob s b op la v →
      exec (c b) s = .next (finishLine b { status := idleStatus s la, version := lineVersion s la, res0 := pinsIn s (setOf la) } s))
    ∧ (homedHere s la = false → ¬(s.dev.st = .run ∧ s.trn.memb = .isolated) →
      (∀ (op : Nat) (c : Nat → Instr), (op, c) ∈ [(9, Instr.release), (0x10, Instr.flush), (0x11, Instr.invalidate), (0x12, Instr.clean)] →
        LineJob s b op la v →
        (copyOf s la = none → exec (c b) s = .next (finishLine b { version := lineVersion s la } s))
        ∧ ∀ (k : Nat) (cp : Copy), copyOf s la = some (k, cp) →
          ((cp.st = .e ∨ cp.st = .s ∧ op ≠ 9) → op ≠ 0x12 → LaneOpen s v false →
            exec (c b) s = .next (evictClean b k cp (perf 22 (some v.job.ten) s)))
          ∧ (cp.st = .m → op ≠ 0x11 → LaneOpen s v true →
            exec (c b) s = .next (writeBack b k cp (op == 0x12) (perf 21 (some v.job.ten) s)))
          ∧ (cp.st = .m → op = 0x11 → LaneOpen s v false →
            exec (c b) s = .next (evictClean b k cp (perf 22 (some v.job.ten) (count 0x888C 1 s))))
          ∧ (op = 9 ∧ (cp.st = .s ∨ cp.st = .p) ∨ op = 0x12 ∧ (cp.st = .s ∨ cp.st = .e ∨ cp.st = .p) →
            exec (c b) s = .next (finishLine b { version := lineVersion s la } s))
          ∧ (transient cp.st = true → op ≠ 9 → ∀ w, cp.bob = some w → exec (c b) s = .next (waitAs b (.attach w) s)))
      ∧ (LineJob s b 0x15 la v →
        (claimJob v = true → copyOf s la = none → LaneOpen s v false → ∀ k, (wayFor b la s).2 = .got k →
          exec (.prefetch b) s = .next (startFill b k la .is { typ := .rdShared, la := la } (wayFor b la s).1))
        ∧ (claimJob v = false ∨ (copyOf s la).isSome = true →
          exec (.prefetch b) s = .next (finishLine b { version := lineVersion s la } s))))
    ∧ (homedHere s la = false →
      (LineJob s b 0x13 la v → v.job.la = la → s.cc.pins.any (fun p => p.la == la) = false →
        (pinsFit s [la] = true → ∃ u, u = { s with cc := { s.cc with pins := s.cc.pins ++ [{ la := la, rgn := none }] } }
          ∧ exec (.pin b) s = .next (finishLine b { version := lineVersion s la, res0 := pinsIn u (setOf la) } u))
        ∧ (pinsFit s [la] = false → exec (.pin b) s = .next
          (finishLine b { status := stCapacity, version := lineVersion s la, res0 := pinsIn s (setOf la) } s)))
      ∧ (LineJob s b 0x14 la v → v.job.la = la →
        (s.cc.pins.any (fun p => p.la == la && p.rgn.isSome) = true → exec (.unpin b) s = .next
          (finishLine b { status := stDenied, version := lineVersion s la, res0 := pinsIn s (setOf la) } s))
        ∧ (s.cc.pins.any (fun p => p.la == la && p.rgn.isSome) = false →
          ∃ u, u = { s with cc := { s.cc with pins := s.cc.pins.filter fun p => p.la != la } }
            ∧ exec (.unpin b) s = .next (finishLine b { version := lineVersion s la, res0 := pinsIn u (setOf la) } u))))

/-! ### Regions and bindings (06 R285–R291; 10 R520–R531; 11 R580–R589) -/

/-- MAP_REGION enters a region that overlaps none and is admitted in the table under the lowest free index, with its class in force and
its pins, and completes with both; one homed here whose PUBLISH lines are C0 anchors each line first, and waits while one has no way; else
it fails with BAD_PARAM or CAPACITY (10 R520–R522; 06 R318). UNMAP_REGION, whose region left the table at its acceptance, completes at once in
STANDBY and ACQUIRE and at an ISOLATED node; in RUN the copies of its lines leave or are recalled, and it waits until none is left (10 R523,
R524, R722). SET_ATTR waits for the commit (10 R526). QUERY_REGION returns the covering region's index and image (10 R528). -/
def Obligations.RegionCommands : Prop :=
  ∀ (b : Nat) (v : Bobbin) (s : State), serving s = true → v.absorb = false →
    (bobOf s b = some v → mayRun s v = true → v.job.op = 0x20 →
      (regionFree s (mapRegionOf v.job).base (mapRegionOf v.job).count = false →
        exec (.mapRegion b) s = .next (complete b { status := stBadParam } s))
      ∧ (regionFree s (mapRegionOf v.job).base (mapRegionOf v.job).count = true →
        (freeRegion s = none ∨ admitRegion s (mapRegionOf v.job) = none →
          exec (.mapRegion b) s = .next (complete b { status := stCapacity } s))
        ∧ ∀ (i : Nat) (r : Region) (dem : Bool), freeRegion s = some i → admitRegion s (mapRegionOf v.job) = some (r, dem) →
          ∀ (c0 : Prop) (u : State), c0 = (r.cls = .c0 ∧ r.claim = false ∧ homedHere s r.base = true) →
          (¬c0 → u = s) → (c0 → u = anchorRegion r s) →
          (c0 → anchoredAll u r = false → exec (.mapRegion b) s = .next (waitAs b .drain u))
          ∧ (¬c0 ∨ anchoredAll u r = true → exec (.mapRegion b) s = .next (jobDone b (i + 512 * clsIx r.cls) 0 none
            (modBob b (fun v => { v with demoted := dem }) (pinAdmitted i r (setRegion i r u)))))))
    ∧ (bobOf s b = some v → mayRun s v = true → v.job.op = 0x21 →
      (v.rgn = none → exec (.unmapRegion b) s = .next (complete b { status := stNotMapped } s))
      ∧ ∀ r, v.rgn = some r →
        (s.dev.st = .standby ∨ s.dev.st = .acquire ∨ s.dev.st = .run ∧ s.trn.memb = .isolated →
          exec (.unmapRegion b) s = .next (jobDone b v.par 0 none s))
        ∧ ∀ u, (s.dev.st = .inaug ∧ u = s ∨ s.dev.st = .run ∧ s.trn.memb ≠ .isolated ∧ u = (if homedHere s r.base
            then each (regionLas r) (fun s a => unmapHomeLine b a s) s else each (regionLas r) (fun s a => unmapCopy a s) s)) →
          exec (.unmapRegion b) s = .next (if unmapEmpty u b r then jobDone b v.par 0 none u else waitAs b .drain u))
    ∧ (readyJob s b 0x22 = some v → exec (.setAttr b) s = .next
        (waitAs b .commit { s with home := { s.home with attrWait := s.home.attrWait ++ [b] } }))
    ∧ (readyJob s b 0x25 = some v →
      (regionAt s v.job.la = none → exec (.queryRegion b) s = .next (complete b { status := stNotMapped } s))
      ∧ ∀ (i : Nat) (r : Region), regionAt s v.job.la = some (i, r) →
        exec (.queryRegion b) s = .next (jobDone b i 0 (some ((regionImage s i).flatMap (leBytes 4))) s))

/-- BIND_CAN makes the lowest free binding with its object or pair and completes; without one it is CAPACITY; one that sends updates of a
remote line is BAD_PARAM on a CLAIM region, and else subscribes the line first, its job waiting for the answer (10 R530). UNBIND_CAN of an
index without a binding is BAD_PARAM, of another tenant's binding DENIED, and else removes it, with BIND_REMOVED (10 R531, 11 R595); a
remote line that no local subscriber is left for is unsubscribed and its copy dropped (log 33). A received frame of a binding is written with WRITE_MASKED, or dropped
with BIND_DENIED where its tenant may not write; it waits while an earlier write of its port to the line is open or no bobbin is free (11
R582, R584, R585; DESIGN CHOICE of log 44 for the wait). A pending binding's frame is loaded with the line's bytes into its object, or in
queue mode into buffer 2; it is dropped with BIND_DENIED where its tenant may not read (11 R585, R588). Bindings whose subscription was
lost are subscribed again in the same command (11 R589, log 33). -/
def Obligations.BindingCommands : Prop :=
  (∀ (b : Nat) (v : Bobbin) (s : State) (e : Bind) (remote : Bool), TaskJob s b 0x23 v → e = bindOf v.job →
    remote = (e.tx && !homedHere s e.la) →
    (remote = true → (regionAt s e.la).any (fun r => r.2.claim) = true →
      exec (.bindCan b) s = .next (complete b { status := stBadParam } s))
    ∧ (remote = false ∨ (regionAt s e.la).any (fun r => r.2.claim) = false →
      (freeBind s = none ∨ bindResource s e = none → exec (.bindCan b) s = .next (complete b { status := stCapacity } s))
      ∧ ∀ (i o : Nat) (taken : List Nat) (e' : Bind) (u : State), freeBind s = some i → bindResource s e = some (o, taken) →
        e' = { e with obj := o, sub := !remote } →
        u = ungate (bindSetup e' taken { s with can := { s.can with binds := tset s.can.binds i e' } }) →
        (remote = false → exec (.bindCan b) s = .next (jobDone b i 0 none u))
        ∧ (remote = true →
          exec (.bindCan b) s = .next (bindSubStart i e' (modBob b (fun v => { v with wait := .answer, par := i }) u)))))
  ∧ (∀ (b : Nat) (v : Bobbin) (s : State), TaskJob s b 0x24 v →
    (tget s.can.binds (argN v.job 0 2) = none → exec (.unbindCan b) s = .next (complete b { status := stBadParam } s))
    ∧ ∀ e, tget s.can.binds (argN v.job 0 2) = some e →
      (v.job.ten ≠ e.ten → v.job.ten ≠ 0 → exec (.unbindCan b) s = .next (complete b { status := stDenied } s))
      ∧ (v.job.ten = e.ten ∨ v.job.ten = 0 → ∀ (u : State) (last : Bool), u = dropBind (argN v.job 0 2) s →
        last = (e.tx && (subsOf s e.la).contains 8 && (subsOf u e.la).isEmpty) →
        ((∀ c, copyOf u e.la = some c → last = true → c.2.st ≠ .p) → exec (.unbindCan b) s = .next (jobDone b 0 0 none u))
        ∧ ∀ k c, copyOf u e.la = some (k, c) → last = true → c.st = .p →
          exec (.unbindCan b) s = .next (jobDone b 0 0 none (dropWay k (sendOwed e.ten 0x0E e.la .c1 { typ := .unsubReq } u)))))
  ∧ (∀ (i : Nat) (e : Bind) (x : CanRx) (s : State), tget s.can.binds i = some e → e.tx = false → waitingFrame s i e = some x →
    (bindBlocked s i e x = true → exec (.bindRxWrite i) s = .next s)
    ∧ (bindBlocked s i e x = false →
      (tenMay s e.la e.ten true = false → ∃ t, exec (.bindRxWrite i) s = .next t ∧ (e.port < 2 → Raised (256 + 32 * e.port + 13) t)
        ∧ Reports (portCount e.port 7 (dropWaiting i e s)) t)
      ∧ (tenMay s e.la e.ten true = true →
        (portBob s e.port = none → exec (.bindRxWrite i) s = .next s)
        ∧ ∀ b, portBob s e.port = some b →
          exec (.bindRxWrite i) s = .next (writeJob 5 b (acceptBob b (lineBobbin s (.bindWrite i)
            { ten := e.ten, op := 5, tag := e.port, la := e.la, alen := 72, arg := bindArg e x.f }) (dropWaiting i e s))))))
  ∧ ∀ (p : Nat) (s s' : State), p < 2 →
    s' = each ((portBinds s p).filter fun x => x.2.tx && !x.2.sub) (fun a x => bindSubStart x.1 x.2 a) s →
    (maySend s' p = false ∨ nextLoad s' p = none → exec (.bindTxLoad p) s = .next s')
    ∧ (∀ i e, nextLoad s' p = some (i, e) → boundLine s' e.la = none → exec (.bindTxLoad p) s = .next s')
    ∧ ∀ (i : Nat) (e : Bind) (l : Line) (ver : Word), maySend s' p = true → nextLoad s' p = some (i, e) → boundLine s' e.la = some (l, ver) →
      (tenMay s' e.la e.ten false = false → ∃ t, exec (.bindTxLoad p) s = .next t ∧ Raised (256 + 32 * p + 13) t
        ∧ (tget t.can.binds i).any (fun y => !y.pend) = true ∧ t.can.ports = s'.can.ports)
      ∧ (tenMay s' e.la e.ten false = true → ∃ t, exec (.bindTxLoad p) s = .next t
        ∧ (tget t.can.binds i).any (fun y => !y.pend && y.ver == ver) = true
        ∧ (e.port = p → s'.can.ports.length = 2 → e.obj < 128 → e.off + e.len ≤ 64 →
          (queueMode s' p = false → (portOf t p).txpend.getLsbD e.obj = true ∧ memGets (portOf t p).mem (64 * e.obj + 20) e.len = lineGet l e.off e.len)
          ∧ (queueMode s' p = true → 2 < (portOf s' p).qtx.length → (portOf t p).qtx.getD 2 0 = 1 ∧ (portOf t p).qbind = some i
            ∧ memGets (portOf t p).mem 0xB0 e.len = lineGet l e.off e.len)))

/-! ### Car-bus ports (11 R561–R579, R590–R599) -/

/-- A frame received on the bus in object mode that no binding takes goes to the lowest matching software object (11 R572): its data, its
CBP_TSC stamp and NEWDAT are there (R568, R573, R574), with MSGLOST where one was unread (R575); a LOCKED object's waits in the shadow, a
second one sets OVR (R574, R575); matched by none, it raises RX_NOMATCH and is stored nowhere. In queue mode it is the next entry of its
pair's queue, or an overrun where the queue is full (R578, R579), and unmatched where CBPn_CFG accepts none is stored nowhere. A bound
frame waits for its write, in queue mode in the FIFO while it has room (R582, R583). Off the bus, and FD without FDOE, nothing happens;
with a recessive res bit the port integrates, or meets a form error (R593). A sent frame's request ends with its stamp and clears its
pending bit or leaves its buffer sent (R568, R576); an attempt ended by DAR or a cancel raises TX_ABORTED, any other arbitrates again
(R576). -/
def Obligations.CarBusFrames : Prop :=
  ∀ (p : Nat) (s : State), p < 2 → s.can.ports.length = 2 →
    (∀ (f : CanFrame) (tsc : Word),
      (∀ ex, onBus s p = false → exec (.canFrameReceived p f tsc ex) s = .next s)
      ∧ (f.fdf = true → fdOn s p = false → exec (.canFrameReceived p f tsc false) s = .next s)
      ∧ (onBus s p = true →
        (rbit s (cbpBase p) 4 = true → exec (.canFrameReceived p f tsc true) s = .next (canError p 2 (portOf s p).tecCnt ((portOf s p).recCnt + 1) s))
        ∧ (rbit s (cbpBase p) 4 = false → ∃ t, exec (.canFrameReceived p f tsc true) s = .next t ∧ (portOf t p).st = .integrating
          ∧ (portOf t p).sending = none ∧ Raised (256 + 32 * p + 8) t))
      ∧ (onBus s p = true → (f.fdf = true → fdOn s p = true) →
        (∀ o e, boundFor s p f = some o → rxBindsOf s p o = [e] → f.data ≠ [] →
          (queueMode s p = false → ∃ t, exec (.canFrameReceived p f tsc false) s = .next t
            ∧ (tget t.can.binds e.1).any (fun b => b.wait.any fun x => x.f == f && x.tsc == tsc) = true)
          ∧ (queueMode s p = true → (portOf s p).bfifo.any (fun y => y.1 == e.1) = true ∨ (portOf s p).bfifo.length < 16 →
            ∃ t, exec (.canFrameReceived p f tsc false) s = .next t
              ∧ (portOf t p).bfifo.any (fun y => y.1 == e.1 && y.2.f == f && y.2.tsc == tsc) = true ∧ (portOf t p).mem = (portOf s p).mem)
          ∧ (queueMode s p = true → (portOf s p).bfifo.any (fun y => y.1 == e.1) = false → 16 ≤ (portOf s p).bfifo.length →
            ∃ t, exec (.canFrameReceived p f tsc false) s = .next t ∧ (portOf t p).bfifo = (portOf s p).bfifo ∧ Raised (256 + 32 * p + 17) t))
        ∧ (boundFor s p f = none →
          (queueMode s p = false → ∀ k, (List.range (poolBase s p)).find? (objMatch s p f) = some k →
            (bitOf (objStat s p k) 2 = false → ∃ t, exec (.canFrameReceived p f tsc false) s = .next t ∧ bitOf (objStat t p k) 0 = true
              ∧ memGets (portOf t p).mem (64 * k + 20) (min f.data.length (objCap s p k)) = f.data.take (objCap s p k)
              ∧ memWord (portOf t p).mem (64 * k + 12) = tsc.toNat
              ∧ (bitOf (objCtl t p k) 12 = true → Raised (256 + 32 * p) t)
              ∧ (bitOf (objStat s p k) 0 = true → bitOf (objStat t p k) 1 = true ∧ Raised (256 + 32 * p + 3) t))
            ∧ (bitOf (objStat s p k) 2 = true → (portOf s p).shadow = none → ∃ t, exec (.canFrameReceived p f tsc false) s = .next t
              ∧ (portOf t p).shadow.any (fun x => x.1 == k && x.2.f == f && x.2.tsc == tsc) = true ∧ (portOf t p).mem = (portOf s p).mem)
            ∧ (bitOf (objStat s p k) 2 = true → (portOf s p).shadow ≠ none → ∃ t, exec (.canFrameReceived p f tsc false) s = .next t
              ∧ (portOf t p).shadow = (portOf s p).shadow ∧ bitOf (objStat t p k) 4 = true ∧ Raised (256 + 32 * p + 3) t))
          ∧ (queueMode s p = false → (List.range (poolBase s p)).find? (objMatch s p f) = none →
            ∃ t, exec (.canFrameReceived p f tsc false) s = .next t ∧ (portOf t p).mem = (portOf s p).mem ∧ Raised (256 + 32 * p + 16) t)
          ∧ (queueMode s p = true → (portOf s p).rxq.length = 2 → ∀ q,
            ((∃ j, (List.range (pairBase s p)).find? (pairMatch s p f) = some j ∧ q = bitsOf (regCur s (cbpBase p + 0x204 + 8 * j)) 30 1)
              ∨ (List.range (pairBase s p)).find? (pairMatch s p f) = none ∧ q < 2 ∧ rfld s (cbpBase p + 8) 3 2 = q + 1) →
            ∃ t, exec (.canFrameReceived p f tsc false) s = .next t
              ∧ (((portOf s p).rxq.getD q (0, 0, false)).2.1 < 32 → Raised (256 + 32 * p) t
                ∧ ((portOf t p).rxq.getD q (0, 0, false)).2.1 = ((portOf s p).rxq.getD q (0, 0, false)).2.1 + 1)
              ∧ (32 ≤ ((portOf s p).rxq.getD q (0, 0, false)).2.1 → Raised (256 + 32 * p + 3) t
                ∧ ((portOf t p).rxq.getD q (0, 0, false)).2.2 = true ∧ (portOf t p).mem = (portOf s p).mem))
          ∧ (queueMode s p = true → (List.range (pairBase s p)).find? (pairMatch s p f) = none → rfld s (cbpBase p + 8) 3 2 ∉ [1, 2] →
            ∃ t, exec (.canFrameReceived p f tsc false) s = .next t ∧ (portOf t p).mem = (portOf s p).mem ∧ (portOf t p).rxq = (portOf s p).rxq))))
    ∧ ((portOf s p).sending = none → (∀ tsc, exec (.txDone p tsc) s = .next s) ∧ exec (.txAborted p) s = .next s)
    ∧ (∀ (k : Nat) (tsc : Word), (portOf s p).sending = some k →
      (queueMode s p = false → k < 128 → ∃ t, exec (.txDone p tsc) s = .next t ∧ (portOf t p).txpend.getLsbD k = false
        ∧ memWord (portOf t p).mem (64 * k + 12) = tsc.toNat ∧ (portOf t p).lec = 0 ∧ (portOf t p).tecCnt = (portOf s p).tecCnt - 1)
      ∧ (queueMode s p = true → k < (portOf s p).qtx.length → ∃ t, exec (.txDone p tsc) s = .next t ∧ (portOf t p).qtx.getD k 0 = 2
        ∧ Raised (256 + 32 * p + 1) t)
      ∧ (darOf s p k = true ∨ (portOf s p).cancelAfter = true → ∃ t, exec (.txAborted p) s = .next t ∧ Raised (256 + 32 * p + 2) t
        ∧ (queueMode s p = false → k < 128 → (portOf t p).txpend.getLsbD k = false)
        ∧ (queueMode s p = true → k < (portOf s p).qtx.length → (portOf t p).qtx.getD k 0 = 3))
      ∧ (darOf s p k = false → (portOf s p).cancelAfter = false → exec (.txAborted p) s = .next
        (arbitrate p (modPort p (fun c => { c with sending := none }) s))))

/-- An error of a port sets LEC and, outside ROM, the error counters ISO 11898-1 gives, with BUS_ERROR; a transmit count past 255 takes it
off the bus, to wait for BOREQ where BOREQ is chosen (11 R590, R591); a frame in progress is sent again unless DAR or a cancel ends it.
Recovery's end clears the counters and puts it on the bus. CONF is entered after the frame in progress and left by integration, or back
off the bus (11 R564, R566, R593); a bit-timing write outside CONF is refused. What meets no such occasion changes nothing. -/
def Obligations.CarBusStates : Prop :=
  ∀ (p : Nat) (s : State), p < 2 → s.can.ports.length = 2 →
    (∀ (code tec rec' : Nat), onBus s p = true → romOn s p = false → code < 8 → (portOf s p).sending = none →
      ∃ t, exec (.errFrame p code tec rec') s = .next t ∧ (portOf t p).lec = code ∧ (portOf t p).tecCnt = tec % 512
        ∧ (portOf t p).recCnt = rec' % 256 ∧ Raised (256 + 32 * p + 9) t
        ∧ (255 < tec → Raised (256 + 32 * p + 6) t ∧ (portOf t p).st = (if rbit s (cbpBase p) 2 then .busOff else .recovering))
        ∧ (tec ≤ 255 → (portOf t p).st = (if 128 ≤ tec % 512 ∨ 128 ≤ rec' % 256 then .passive else .active)))
    ∧ (∀ code tec rec', onBus s p = false → exec (.errFrame p code tec rec') s = .next s)
    ∧ (∀ (code tec rec' k : Nat), onBus s p = true → romOn s p = false → code < 8 → tec ≤ 255 → (portOf s p).sending = some k →
      ∃ u, u = canError p code tec rec' s ∧ (portOf u p).lec = code ∧ (portOf u p).tecCnt = tec % 512 ∧ (portOf u p).recCnt = rec' % 256
        ∧ (darOf s p k = true ∨ (portOf s p).cancelAfter = true → exec (.errFrame p code tec rec') s = .next u)
        ∧ (darOf s p k = false → (portOf s p).cancelAfter = false →
          exec (.errFrame p code tec rec') s = .next (arbitrate p (modPort p (fun c => { c with sending := none }) u))))
    ∧ (∀ (code tec rec' : Nat), onBus s p = true → romOn s p = true → code < 8 → (portOf s p).sending = none →
      ∃ t, exec (.errFrame p code tec rec') s = .next t ∧ (portOf t p).lec = code ∧ (portOf t p).tecCnt = (portOf s p).tecCnt % 512
        ∧ (portOf t p).recCnt = (portOf s p).recCnt % 256 ∧ Raised (256 + 32 * p + 9) t)
    ∧ (∀ (code tec rec' : Nat), onBus s p = true → 8 ≤ code → ∃ t, exec (.errFrame p code tec rec') s = .next t ∧ Raised (256 + 32 * p + 10) t)
    ∧ ((portOf s p).st ≠ .recovering → exec (.busOn p) s = .next s)
    ∧ ((portOf s p).confReq = false → exec (.confDone p) s = .next s)
    ∧ ((portOf s p).st ≠ .integrating → exec (.integrationDone p) s = .next s)
    ∧ ((portOf s p).st = .recovering → romOn s p = false → ∃ t, exec (.busOn p) s = .next t ∧ (portOf t p).tecCnt = 0
      ∧ (portOf t p).recCnt = 0 ∧ Raised (256 + 32 * p + 7) t)
    ∧ (reachable s = true → gateShut s (cbpBase p) = false →
      ((portOf s p).st = .busOff → rbit s (cbpBase p) 2 = true → exec (.boreq p) s = .next
        (ungate (modPort p (fun c => { c with st := .recovering }) s)))
      ∧ ((portOf s p).st ≠ .busOff ∨ rbit s (cbpBase p) 2 = false → exec (.boreq p) s = .next (ungate s))
      ∧ (∀ off, bitTiming p off = false ∨ rbit s (cbpBase p) 0 = true → exec (.confRefused p off) s = .next (ungate s))
      ∧ (∀ v : Word, rbit s (cbpBase p) 0 = false → ∃ t, exec (.confRequest p v) s = .next t ∧ rbit t (cbpBase p) 0 = true
        ∧ (portOf t p).confReq = true ∧ (portOf t p).sending = (portOf s p).sending)
      ∧ (∀ v : Word, rbit s (cbpBase p) 0 = true → (portOf s p).st = .conf → (portOf s p).wasOff = false →
        ((∀ j < 3, rfld s (0x1060 + 4 * (3 * p + j)) 0 3 = 1) → ∃ t, exec (.confLeave p v) s = .next t ∧ rbit t (cbpBase p) 0 = false
          ∧ (portOf t p).st = .integrating)
        ∧ ((∃ j < 3, rfld s (0x1060 + 4 * (3 * p + j)) 0 3 ≠ 1) → ∃ t, exec (.confLeave p v) s = .next t ∧ rbit t (cbpBase p) 0 = true
          ∧ (portOf t p).st = .conf ∧ Raised 432 t))
      ∧ (∀ off, bitTiming p off = true → rbit s (cbpBase p) 0 = false → ∃ t, exec (.confRefused p off) s = .next t
        ∧ Raised (256 + 32 * p + 18) t ∧ regCur t off = regCur s off))
    ∧ ((portOf s p).confReq = true → ∃ t, exec (.confDone p) s = .next t ∧ (portOf t p).st = .conf ∧ (portOf t p).sending = none
      ∧ (portOf t p).lec = 7 ∧ Raised (256 + 32 * p + 11) t)
    ∧ ((portOf s p).st = .integrating → ∃ t, exec (.integrationDone p) s = .next t ∧ (portOf t p).st = busState s p
      ∧ (portOf t p).mem = (portOf s p).mem)

/-- Commands on objects and queues (11 R574, R576, R579, R598), with the port ungated: LOCK and UNLOCK change LOCKED, and an UNLOCK takes
in the object's shadow frame; CLEAR clears NEWDAT, MSGLOST, OVR and TRUNC; TXREQ makes the request pending and arbitrates; TXCANCEL ends
one that is not being sent, and lets one that is finish its attempt; the queue's buffers likewise; RXQ_ACK releases entries. What is not
software's, and a request for what is no transmit object or is pending, changes nothing (R571, R577). -/
def Obligations.CarBusObjectCommands : Prop :=
  ∀ (p k : Nat) (s : State), reachable s = true → gateShut s (cbpBase p) = false →
    (softObj s p k = true →
      exec (.objLock p k) s = .next (ungate (objFlag p k 2 true s))
      ∧ ((portOf s p).shadow = none → exec (.objUnlock p k) s = .next (ungate (objFlag p k 2 false s)))
      ∧ (p < s.can.ports.length → ∀ x, (portOf s p).shadow = some (k, x) → exec (.objUnlock p k) s = .next
        (ungate (newData p k x (modPort p (fun c => { c with shadow := none }) (objFlag p k 2 false s)))))
      ∧ exec (.objClear p k) s = .next (ungate (objFlag p k 0 false (objFlag p k 1 false (objFlag p k 4 false (objFlag p k 5 false s)))))
      ∧ (objType s p k = 2 → bitOf (objStat s p k) 3 = false →
        exec (.txreq p k) s = .next (ungate (arbitrate p (objFlag p k 3 true s))))
      ∧ exec (.txcancel p k) s = .next (ungate (if (portOf s p).sending = some k then modPort p (fun c => { c with cancelAfter := true }) s
        else objFlag p k 3 false s)))
    ∧ (softObj s p k = false → exec (.objLock p k) s = .next (ungate s) ∧ exec (.objUnlock p k) s = .next (ungate s)
      ∧ exec (.objClear p k) s = .next (ungate s) ∧ exec (.txreq p k) s = .next (ungate s) ∧ exec (.txcancel p k) s = .next (ungate s))
    ∧ (softObj s p k = true → objType s p k ≠ 2 ∨ bitOf (objStat s p k) 3 = true → exec (.txreq p k) s = .next (ungate s))
    ∧ (softObj s p k = true → p < s.can.ports.length → ∀ j x, (portOf s p).shadow = some (j, x) → j ≠ k →
      exec (.objUnlock p k) s = .next (ungate (objFlag p k 2 false s)))
    ∧ (queueMode s p = false ∨ softBuf s p k = false ∨ (portOf s p).qtx.getD k 0 = 1 → exec (.qtxRequest p k) s = .next (ungate s))
    ∧ (queueMode s p = false ∨ softBuf s p k = false ∨ (portOf s p).qtx.getD k 0 ≠ 1 → exec (.qtxCancel p k) s = .next (ungate s))
    ∧ (queueMode s p = true → softBuf s p k = true →
      ((portOf s p).qtx.getD k 0 ≠ 1 → exec (.qtxRequest p k) s = .next (ungate (arbitrate p (setQtx p k 1 s))))
      ∧ ((portOf s p).qtx.getD k 0 = 1 → exec (.qtxCancel p k) s = .next (ungate (
        if (portOf s p).sending = some k then modPort p (fun c => { c with cancelAfter := true }) s else setQtx p k 3 s))))
    ∧ ∀ m, m < 64 → p < s.can.ports.length → k < (portOf s p).rxq.length → ∃ t, exec (.rxqAck p k m) s = .next t
      ∧ (portOf t p).rxq.getD k (0, 0, false) = ((((portOf s p).rxq.getD k (0, 0, false)).1 + min m ((portOf s p).rxq.getD k (0, 0, false)).2.1) % 32,
        ((portOf s p).rxq.getD k (0, 0, false)).2.1 - min m ((portOf s p).rxq.getD k (0, 0, false)).2.1, false)
      ∧ (((portOf s p).rxq.getD k (0, 0, false)).2.1 < m → Raised 432 t)

/-! ### Phase time and picots (02 R53–R124; 10 R532–R537) -/

/-- READ_PHASE answers both phases, hoops and periods of one instant, with NOT_LOCKED in FREE and ACQUIRE (10 R532, R533). WAIT_PHASE
refuses a named hoop that has begun with BAD_PARAM, and waits for the present hoop's phase or the next one's else; it completes when the
phase is reached, but for a halted sequencer (10 R534, R558). SET_MAINS_SOURCE stages its five fields and waits for the commit (10 R537). PHT_SNAP latches both phases and
counters and CBP_TSC at one instant (02 R123, 11 R570). -/
def Obligations.TimeCommands : Prop :=
  ∀ (b : Nat) (v : Bobbin) (s : State),
    (readyJob s b 0x30 = some v → exec (.readPhase b) s = .next (complete b {
      status := if timed s then okStatus v.replayed v.demoted v.clamped false else stNotLocked
      res0 := (rowPhase s).toNat, res1 := s.tm.hoop.toNat + 2 ^ 32 * (truePhase s).toNat
      out := if 32 ≤ v.job.olen then some (leBytes 4 s.tm.hoop.toNat ++ leBytes 4 (rowPhase s).toNat ++ leBytes 4 s.tm.thoop.toNat
        ++ leBytes 4 (truePhase s).toNat ++ leBytes 4 s.tm.period ++ leBytes 4 s.tm.tperiod ++ leBytes 2 (lockStat s) ++ leBytes 1 s.tm.mHk
        ++ leBytes 5 0) else none } s))
    ∧ (readyJob s b 0x31 = some v → ∀ (row : Bool) (named : Word), row = bitOf (argB v.job 8) 0 → named = word (argN v.job 4 4) →
      (named ≠ 0 → begun (hoopOf s row) named = true → exec (.waitPhase b) s = .next (complete b { status := stBadParam } s))
      ∧ (named ≠ 0 → begun (hoopOf s row) named = false → exec (.waitPhase b) s = .next (setBob b { v with wait := .phase, due := named } s))
      ∧ (named = 0 → exec (.waitPhase b) s = .next (setBob b { v with
          wait := .phase, due := if tbPu s row < argN v.job 0 4 / 256 then hoopOf s row else hoopOf s row + 1 } s)))
    ∧ (bobOf s b = some v → v.wait = .phase → v.job.op = 0x31 → s.dbg.halted = false →
      (phaseReached s v = true → exec (.waitPhaseReached b) s = .next (phaseDone b v s))
      ∧ (phaseReached s v = false → exec (.waitPhaseReached b) s = .next s))
    ∧ (bobOf s b = some v → v.wait ≠ .phase ∨ v.job.op ≠ 0x31 ∨ s.dbg.halted = true → exec (.waitPhaseReached b) s = .next s)
    ∧ (readyJob s b 0x34 = some v → ∃ t, exec (.setMainsSource b) s = .next t ∧ (bobOf t b).any (fun x => x.wait == .commit) = true
      ∧ bitsOf (regHeld t 0x2000) 0 2 = argB v.job 0 % 4 ∧ bitsOf (regHeld t 0x2000) 2 2 = argB v.job 1 % 4
      ∧ bitsOf (regHeld t 0x2000) 4 1 = argB v.job 2 % 2 ∧ bitsOf (regHeld t 0x2000) 5 27 = bitsOf (regHeld s 0x2000) 5 27
      ∧ bitsOf (regHeld t 0x2060) 0 3 = argB v.job 3 % 8 ∧ bitsOf (regHeld t 0x2060) 3 5 = argB v.job 4 % 32
      ∧ ∀ o, regCur t o = regCur s o)
    ∧ (∀ x : Word, reachable s = false ∨ x.getLsbD 0 = false → exec (.phtSnap x) s = .next s)
    ∧ ∀ x : Word, reachable s = true → x.getLsbD 0 = true → exec (.phtSnap x) s = .next { s with
        tm := { s.tm with snapHoop := s.tm.hoop, snapPh := rowPhase s, snapThoop := s.tm.thoop, snapTph := truePhase s }
        can := { s.can with tscSnap := tscNow s } }

/-- PICOT_ARM leaves the channel's parameters in effect and keeps the new ones for the hoop boundary (02 R109); an earlier waiting arming
ends with ABORTED (log 53). PICOT_CANCEL with NOW turns the channel off at once, its output inactive and its FIFO kept; without, it waits
for the boundary; an earlier waiting cancel is done with it (02 R111; logs 53 and 124). A capture adds a record to a FIFO with room, and
else sets OVF (02 R106, R115); with CAPEV it leaves the FIFO as it is; a pop removes the head (02 R108). An output takes its prescribed level
(02 R103). The true-hoop boundary counts the true hoop on, and at a node that is no master its phase is 0 (02 R53, R66). -/
def Obligations.PicotChannels : Prop :=
  (∀ (b n : Nat) (v : Bobbin) (s : State), n = argB v.job 0 →
    (readyJob s b 0x32 = some v → ∀ armed : State → State, armed = (fun u => waitAs b .commit (modCh n (fun c => { c with
          arm := some (b, armPar v.job, word (argN v.job 16 4), v.accClk) }) u)) →
      ((∀ a, (chOf s n).arm = some a → a.1 = b) → exec (.picotArm b) s = .next (armed s))
      ∧ ∀ a, (chOf s n).arm = some a → a.1 ≠ b → exec (.picotArm b) s = .next (armed (complete a.1 { status := stAborted } s)))
    ∧ (readyJob s b 0x33 = some v →
      (s.dbg.halted = true → exec (.picotCancel b) s = .next s)
      ∧ (s.dbg.halted = false → bitOf (argB v.job 1) 0 = true → ∃ t, exec (.picotCancel b) s = .next t ∧ (chOf t n).par.mode = 0
        ∧ (chOf t n).active = false ∧ (chOf t n).oldPulse = false ∧ (chOf t n).cancel = none ∧ (chOf t n).arm = (chOf s n).arm
        ∧ (chOf t n).fifo = (chOf s n).fifo ∧ ∀ m, m ≠ n → chOf t m = chOf s m)
      ∧ (s.dbg.halted = false → bitOf (argB v.job 1) 0 = false →
        ((∀ k, (chOf s n).cancel = some k → k = b) → exec (.picotCancel b) s = .next
          (waitAs b .commit (modCh n (fun c => { c with cancel := some b }) s)))
        ∧ ∀ k, (chOf s n).cancel = some k → k ≠ b → exec (.picotCancel b) s = .next
          (waitAs b .commit (modCh n (fun c => { c with cancel := some b }) (jobDone k (hoopOf s (chOf s n).par.tb).toNat 0 none s))))))
  ∧ (∀ (ch : Nat) (s : State),
    (ch < 24 → outMode (chOf s ch).par = true →
      exec (.picotOutputEdge ch) s = .next (modCh ch (fun c => { c with active := prescribed s c }) s))
    ∧ (24 ≤ ch ∨ outMode (chOf s ch).par = false → exec (.picotOutputEdge ch) s = .next s)
    ∧ (∀ (rising ord taken : Bool), taken = decide (ch < 24 ∧ (chOf s ch).par.mode = 4 ∧ bitOf (chOf s ch).par.edges (if rising then 0 else 1) = true
        ∧ pinFunc s ch = 1 ∧ pinParked s ch = false ∧ s.dev.st ≠ .off) →
      (taken = false → exec (.picotCapture ch rising ord) s = .next s)
      ∧ (taken = true → (chOf s ch).par.capev = false → (chOf s ch).fifo.length < 16 → ∃ t, exec (.picotCapture ch rising ord) s = .next t
        ∧ (chOf t ch).fifo = (chOf s ch).fifo ++ [capRecord s (chOf s ch).par rising ord] ∧ Raised 451 t)
      ∧ (taken = true → (chOf s ch).par.capev = false → 16 ≤ (chOf s ch).fifo.length → ∃ t, exec (.picotCapture ch rising ord) s = .next t
        ∧ (chOf t ch).fifo = (chOf s ch).fifo ∧ (chOf t ch).ovf = true ∧ Raised 449 t)
      ∧ (taken = true → (chOf s ch).par.capev = true → ∃ t, exec (.picotCapture ch rising ord) s = .next t ∧ Raised 451 t
        ∧ (chOf t ch).fifo = (chOf s ch).fifo))
    ∧ ∀ x : Word,
      (24 ≤ ch ∨ x.getLsbD 0 = false ∨ reachable s = false
          ∨ (gateShut s (0x3100 + 0x20 * ch) = true ∧ gatesFreed (modCh ch (fun c => { c with fifo := c.fifo.drop 1 }) s) = []) →
        exec (.picCapPop ch x) s = .next s)
      ∧ (ch < 24 → x.getLsbD 0 = true → reachable s = true →
        gateShut s (0x3100 + 0x20 * ch) = false ∨ gatesFreed (modCh ch (fun c => { c with fifo := c.fifo.drop 1 }) s) ≠ [] →
        exec (.picCapPop ch x) s = .next (ungate (modCh ch (fun c => { c with fifo := c.fifo.drop 1 }) s))))
  ∧ ∀ s : State, ∃ t, exec .trueHoopBoundary s = .next t ∧ t.tm.thoop = s.tm.thoop + 1 ∧ (s.tm.master = false → t.tm.truePh = 0)
    ∧ t.tm.trueClk = s.tm.clk ∧ t.tm.hoop = s.tm.hoop ∧ t.zx.ten0 = false ∧ t.zx.ten1 = s.zx.ten0 ∧ t.zx.ten2 = s.zx.ten1

/-- A reference that no coordinate locates, that the rules exclude or that outranks nothing is not used (02 R64, R82, R120, R723; 03 R170);
one that is used makes its sender the master followed, with its keys, LOCKED, TVALID and PERIOD, and no row missed (02 R77, R82, R86, R87). By
the time state, the error and the counters it jams the rows, and the time state is ACQUIRE, or steers them, and the time state becomes SYNC or
stays (02 R71–R73, R120, R724). A row without one counts as missed, and the second in SYNC leads to HOLDOVER (02 R73, R77). HOLD_LIM seconds in
HOLDOVER lead to FREE, and on to ACQUIRE while the device follows (02 R73). TVALID 0 for 1 s: the true phase will jam (02 R118). -/
def Obligations.TimeFollowsTheReference : Prop :=
  (∀ (l : LaneId) (sd hs : Side) (r : RefMsg) (tr : TrueMsg) (o : OriginMsg) (rowAt trueAt : Phase) (s : State),
    (pathDelay s l sd hs o = none ∨ refBad s r tr = true ∨ canFollow s = false ∨ mayUse s r = false →
      exec (.reference l sd hs r tr o rowAt trueAt) s = .next s)
    ∧ (∀ (p : Int) (u : State) (rp : RefPoint) (m : Bool) (k : RefStep), pathDelay s l sd hs o = some p → refBad s r tr = false →
      canFollow s = true → mayUse s r = true → u = putPeriod r.period s → rp = refPoint r tr p →
      m = (countsMatch (countAt s.tm.hoop (rowPhase u) rowAt) rp.row
        && (!tr.tvalid || countsMatch (countAt s.tm.thoop (truePhase u) trueAt) rp.tru)) →
      k = refStep s m (s.tm.following && decide (r.masterHk ≠ s.tm.mHk) || s.tm.master)
        (phTime (rowAt - BitVec.ofNat 32 rp.row).toInt r.period) →
      ∃ t, exec (.reference l sd hs r tr o rowAt trueAt) s = .next t ∧ t.tm.following = true ∧ t.tm.master = false ∧ t.tm.usedInRow = true
        ∧ t.tm.miss = 0 ∧ t.tm.refLane = laneIx l ∧ t.tm.mHk = r.masterHk ∧ t.tm.mRank = r.rank ∧ t.tm.mTier = r.tier ∧ t.tm.period = r.period
        ∧ t.tm.locked = r.locked ∧ t.tm.tvalid = tr.tvalid ∧ t.tm.err = rowAt - BitVec.ofNat 32 rp.row
        ∧ (k = .jam → t.tm.jammed = true ∧ t.tm.row = r.row ∧ t.tm.good = 0 ∧ t.tm.tstate = .acquire)
        ∧ (k = .steer true → t.tm.tstate = .sync)
        ∧ (k = .steer false ∨ k = .none → t.tm.tstate = s.tm.tstate ∧ t.tm.row = s.tm.row)))
  ∧ (∀ s : State,
    (canFollow s = false ∨ s.tm.master = true ∨ s.tm.usedInRow = true → exec .referenceMissed s = .next s)
    ∧ (canFollow s = true → s.tm.master = false → s.tm.usedInRow = false → ∃ t, exec .referenceMissed s = .next t
      ∧ t.tm.miss = s.tm.miss + 1 ∧ (s.tm.tstate = .sync → 1 ≤ s.tm.miss → t.tm.tstate = .holdover ∧ Raised 192 t)
      ∧ (s.tm.tstate ≠ .sync ∨ s.tm.miss = 0 → t.tm.tstate = s.tm.tstate))
    ∧ (s.tm.tstate ≠ .holdover ∨ s.tm.clk - s.tm.holdClk < rfld s 0x2000 10 4 * 8000000000 → exec .holdoverLimit s = .next s)
    ∧ (s.tm.tstate = .holdover → rfld s 0x2000 10 4 * 8000000000 ≤ s.tm.clk - s.tm.holdClk →
      ∃ t, exec .holdoverLimit s = .next t ∧ t.tm.tstate = (if canFollow s then .acquire else .free) ∧ Raised 192 t)
    ∧ (s.tm.tvalid = true ∨ s.tm.virt = true ∨ s.tm.clk - s.tm.tlossClk < 8000000000 → exec .tvalidLossTimeout s = .next s)
    ∧ (s.tm.tvalid = false → s.tm.virt = false → 8000000000 ≤ s.tm.clk - s.tm.tlossClk →
      exec .tvalidLossTimeout s = .next { s with tm := { s.tm with virtNext := true } }))

/-- An edge of an enabled zero-cross input at a new level is accepted with the time of the first sample at that level, and else ignored:
a quarter period after the last of its polarity, at the same level, or on an input not enabled (02 R56, R57). An input without an edge for
1.5 periods is missing and not plausible, and with every input missing there is no local sample (02 R63). A tenant's phase for the last strobe,
from the tenant chosen, counts for its true hoop (02 R66), any other is ignored. The contactor input's level is taken while a pin connects it
(02 R63). -/
def Obligations.LocalSourcesAreMeasured : Prop :=
  (∀ (i : Nat) (up : Bool) (s : State) (x : ZxIn) (at_ : Nat), x = s.zx.ins.getD i {} → at_ = s.tm.clk - rfld s 0x2034 8 8 * 8000 →
    (3 ≤ i ∨ zxOn s i = false ∨ s.dev.st = .off ∨ x.level = up ∨ tooSoon s (if up then x.rise else x.fall) at_ = true →
      exec (.zxEdge i up) s = .next s)
    ∧ (i < 3 → s.zx.ins.length = 3 → zxOn s i = true → s.dev.st ≠ .off → x.level = !up → tooSoon s (if up then x.rise else x.fall) at_ = false →
      ∃ t, exec (.zxEdge i up) s = .next t ∧ (t.zx.ins.getD i {}).level = up
        ∧ (up = true → (t.zx.ins.getD i {}).rise = some at_ ∧ (t.zx.ins.getD i {}).prevRise = x.rise)
        ∧ (up = false → (t.zx.ins.getD i {}).fall = some at_)))
  ∧ (∀ (i : Nat) (s : State) (x : ZxIn), x = s.zx.ins.getD i {} →
    (3 ≤ i ∨ x.missing = true ∨ s.tm.clk - max (x.rise.getD 0) (x.fall.getD 0) < 3 * x.period → exec (.zxInputMissing i) s = .next s)
    ∧ (i < 3 → s.zx.ins.length = 3 → x.missing = false → 3 * x.period ≤ s.tm.clk - max (x.rise.getD 0) (x.fall.getD 0) →
      ∃ t, exec (.zxInputMissing i) s = .next t ∧ (t.zx.ins.getD i {}).missing = true ∧ (t.zx.ins.getD i {}).valid = false
        ∧ ((∀ k < 3, k ≠ i → zxOn s k = true → (s.zx.ins.getD k {}).missing = true) → t.zx.samp1 = false)))
  ∧ (∀ (n : Nat) (v : Word) (s : State),
    (reachable s = false ∨ enabled s n = false ∨ s.zx.strobe = none → exec (.tenPhin n v) s = .next s)
    ∧ ∀ (c : Nat) (h : Word), reachable s = true → enabled s n = true → s.zx.strobe = some (c, h) →
      (rfld s 0x2060 0 3 = n → s.tm.clk - c ≤ hoopUnits s.tm.tperiod → ∃ t, exec (.tenPhin n v) s = .next t ∧ t.zx.ten0 = true
        ∧ t.zx.ten1 = s.zx.ten1)
      ∧ (rfld s 0x2060 0 3 ≠ n ∨ hoopUnits s.tm.tperiod < s.tm.clk - c → exec (.tenPhin n v) s = .next s))
  ∧ ∀ (lv : Bool) (s : State), (ctcConnected s = true → ∃ t, exec (.ctcInputChange lv) s = .next t ∧ t.zx.ctc = lv)
    ∧ (ctcConnected s = false → exec (.ctcInputChange lv) s = .next s)

/-! ### Train and health commands (04 R205–R221; 05 R280; 10 R538–R554) -/

/-- READ_TOPOLOGY, ROLE_QUERY and PATTERN_QUERY answer what the node holds (10 R538–R541). INAUG_REQUEST is DENIED in STANDBY, waits for
the Resume in ACQUIRE, INAUG and where an inauguration is under way, retries at a node ISOLATED by restarts, and else calls with cause 3
in RUN (10 R542). PATTERN_PROPOSE and ROLE_CLAIM are DENIED outside INAUG and MEMBER in RUN and wait in INAUG; a second proposal of this
node is BUSY; one of the pattern in force completes at once, one that fails a check of 04 R218 is PATTERN with its reason, one that passes
is proposed; ROLE_CLAIM of roles 0 and 1, and without preference, is DENIED, of the own role completes, and else is proposed; both wait
for train time before they are (10 R543–R545). LOAD_PRICKING waits for its bytes; a slot in use or a failed check is PATTERN, and one that
passes has its 32 pages queued and waits for them (10 R548, R549). -/
def Obligations.TrainCommands : Prop :=
  ∀ (b : Nat) (v : Bobbin) (s : State),
    (TaskJob s b 0x40 v → exec (.readTopology b) s = .next (jobDone b (trnStat s) 0 (some (slice (leBytes 4 s.trn.epoch.toNat
      ++ leBytes 1 s.trn.nnodes ++ leBytes 1 s.trn.node ++ leBytes 1 (flagAt s.lan.fore 0 + flagAt s.lan.foreValid 1 + flagAt (inaugNow s) 2)
      ++ leBytes 1 (membCode s.trn.memb) ++ s.trn.holders.map (BitVec.ofNat 8) ++ leBytes 4 (patDigest s) ++ leBytes 1 s.pat.cur ++ [0, 0, 0]
      ++ s.trn.roster.map (BitVec.ofNat 8)) 0 96)) s))
    ∧ (TaskJob s b 0x44 v → ∃ out, exec (.roleQuery b) s = .next
        (jobDone b (rolesWord s 0) (rolesWord s 4 + 2 ^ 32 * roleFlags s) (some out) s)
      ∧ ∀ r < 8, slice out (8 * r) 2 = leBytes 1 (s.trn.holders.getD r 0) ++ leBytes 1 (hkOfNode s (s.trn.holders.getD r 0)))
    ∧ (TaskJob s b 0x43 v → ∃ out, exec (.patternQuery b) s = .next (jobDone b (patStat s) 0 (some out) s)
      ∧ slice out 0 4 = leBytes 4 (patStat s) ∧ slice out 4 4 = leBytes 4 (swHoopNow s).toNat ∧ slice out 8 4 = leBytes 4 (swLast s))
    ∧ (readyJob s b 0x41 = some v →
      (s.dev.st = .standby → exec (.inaugRequest b) s = .next (complete b { status := stDenied } s))
      ∧ (s.dev.st = .acquire ∨ s.dev.st = .inaug → exec (.inaugRequest b) s = .next (waitAs b .agree s))
      ∧ (s.dev.st = .run → s.trn.isoRestarts = true → exec (.inaugRequest b) s = .next (retryInaug (waitAs b .agree s)))
      ∧ (s.dev.st = .run → s.trn.isoRestarts = false → inaugNow s = true → exec (.inaugRequest b) s = .next (waitAs b .agree s))
      ∧ (s.dev.st = .run → s.trn.isoRestarts = false → inaugNow s = false → ∃ t, exec (.inaugRequest b) s = .next t
        ∧ t.trn.call = some 3 ∧ t.trn.cause = 3 ∧ t.trn.step = 1))
    ∧ (TaskJob s b 0x42 v →
      (s.dev.st ≠ .inaug → ¬ (s.dev.st = .run ∧ s.trn.memb = .member) →
        exec (.patternPropose b) s = .next (complete b { status := stDenied } s))
      ∧ (s.dev.st = .inaug → exec (.patternPropose b) s = .next (waitAs b .state s))
      ∧ (s.dev.st = .run → s.trn.memb = .member →
        (s.pat.props.any (fun p => p.bob.isSome && p.target < 4) = true →
          exec (.patternPropose b) s = .next (complete b { status := stPattern, res1 := 21 } s))
        ∧ (s.pat.props.any (fun p => p.bob.isSome && p.target < 4) = false → ∀ tg, tg = argB v.job 0 % 4 →
          (s.pat.cur = tg → exec (.patternPropose b) s = .next (jobDone b s.tm.hoop.toNat 0 none s))
          ∧ (s.pat.cur ≠ tg → timed s = false → exec (.patternPropose b) s = .next (waitAs b .sync s))
          ∧ (s.pat.cur ≠ tg → timed s = true → ∀ r, r = targetReason s tg (word (slotDigest s tg)) →
            (r ≠ 0 → exec (.patternPropose b) s = .next (complete b { status := stPattern, res1 := r + 256 * s.trn.node } s))
            ∧ (r = 0 → exec (.patternPropose b) s = .next (propose b tg (word (slotDigest s tg)) s))))))
    ∧ (TaskJob s b 0x45 v →
      (s.dev.st ≠ .inaug → ¬ (s.dev.st = .run ∧ s.trn.memb = .member) → exec (.roleClaim b) s = .next (complete b { status := stDenied } s))
      ∧ (s.dev.st = .inaug → exec (.roleClaim b) s = .next (waitAs b .state s))
      ∧ (s.dev.st = .run → s.trn.memb = .member → ∀ r, r = argB v.job 0 % 8 →
        (r < 2 → exec (.roleClaim b) s = .next (complete b { status := stDenied } s))
        ∧ (2 ≤ r → s.trn.holders.getD r 0 = s.trn.node → exec (.roleClaim b) s = .next (jobDone b s.tm.hoop.toNat 0 none s))
        ∧ (2 ≤ r → s.trn.holders.getD r 0 ≠ s.trn.node → rfld s 0x7004 (4 * (r - 2)) 4 = 0 →
          exec (.roleClaim b) s = .next (complete b { status := stDenied } s))
        ∧ (2 ≤ r → s.trn.holders.getD r 0 ≠ s.trn.node → rfld s 0x7004 (4 * (r - 2)) 4 ≠ 0 → timed s = false →
          exec (.roleClaim b) s = .next (waitAs b .sync s))
        ∧ (2 ≤ r → s.trn.holders.getD r 0 ≠ s.trn.node → rfld s 0x7004 (4 * (r - 2)) 4 ≠ 0 → timed s = true →
          exec (.roleClaim b) s = .next (propose b (0x80 + r) (word (patDigest s)) s))))
    ∧ (TaskJob s b 0x46 v → ∀ slot, slot = argB v.job 0 % 4 →
      (v.par ≠ 10 → exec (.loadPricking b) s = .next s)
      ∧ (v.par = 10 → slotInUse s slot = true →
        exec (.loadPricking b) s = .next (complete b { status := stPattern, res1 := 25 } (count 0x6088 1 s)))
      ∧ (v.par = 10 → slotInUse s slot = false → loadCheck s v.out slot (argN v.job 4 4) ≠ 0 → exec (.loadPricking b) s = .next
        (complete b { status := stPattern, res1 := loadCheck s v.out slot (argN v.job 4 4) } (count 0x6088 1 s)))
      ∧ (v.par = 10 → slotInUse s slot = false → loadCheck s v.out slot (argN v.job 4 4) = 0 →
        ∀ ws, ws = (List.range 32).map (fun i => KeepWr.prick b slot i (slice v.out (256 * i) 256)) →
        ∃ u t, u = waitAs b .keep { s with kee := { s.kee with pend := s.kee.pend ++ ws } } ∧ exec (.loadPricking b) s = .next t
          ∧ (bobOf t b).any (fun x => x.wait == .keep) = true
          ∧ (s.kee.cur ≠ none → t = u)
          ∧ (s.kee.cur = none → ∃ w, keepFirst (s.kee.pend ++ ws) = some w ∧ t.kee.pend = (s.kee.pend ++ ws).erase w
            ∧ t.kee.cur = some (w, (keepPage u w).1, false))))

/-- The health commands (10 R550–R554). COUNTER_READ returns eight bytes a counter and clears sticky bits where CLRSTICKY asks;
SAMPLE_DRAIN takes the oldest records its tenant sees; CLAMP_LOG_READ reads records, and empties the log where CLEAR asks; INJECT is DENIED
for a SAFE detector outside STANDBY without RUN_SAFE_EN, and else sets the injection; BIST_SCHEDULE in RUN is BUSY_RUN, the flag set all the
same; BIST_RESULT answers the record; SHUTDOWN completes, then leads into SHUTDOWN; ECHO returns its argument. -/
def Obligations.HealthCommands : Prop :=
  ∀ (b : Nat) (v : Bobbin) (s : State),
    (TaskJob s b 0x50 v → exec (.counterRead b) s = .next (jobDone b (counterList v.job).length 0
      (some ((counterList v.job).map (counterBytes s)).flatten) (if bitOf (argB v.job 4) 0 then each (counterList v.job) clearSticky s else s)))
    ∧ (TaskJob s b 0x51 v → ∀ r, r = sampleTake v.job.ten (argN v.job 0 2) s.pmc.buf →
      exec (.sampleDrain b) s = .next (jobDone b r.1.length (r.2.filter (sampleSeen v.job.ten)).length
        (some (r.1.map (·.2)).flatten) (setSamples r.2 s))
      ∧ r.1.length ≤ argN v.job 0 2 ∧ (∀ x ∈ r.1, sampleSeen v.job.ten x = true) ∧ r.1.length + r.2.length = s.pmc.buf.length
      ∧ (v.job.ten = 0 → r.1 ++ r.2 = s.pmc.buf))
    ∧ (TaskJob s b 0x52 v → exec (.clampLogRead b) s = .next (jobDone b s.int.clamps.length 0
      (some ((List.range (argB v.job 1)).map fun i => clampSeen s v.job.ten (argB v.job 0 + i)).flatten)
      (if bitOf (argB v.job 2) 0 then clampClear s else s)))
    ∧ (TaskJob s b 0x53 v →
      (argB v.job 1 ≠ 0 → detSafe (argB v.job 0) = true → rbit s 0xC014 0 = false → s.dev.st ≠ .standby →
        exec (.inject b) s = .next (complete b { status := stDenied } s))
      ∧ (argB v.job 1 = 0 ∨ detSafe (argB v.job 0) = false ∨ rbit s 0xC014 0 = true ∨ s.dev.st = .standby →
        exec (.inject b) s = .next (jobDone b (argB v.job 1) 0 none (setInj (argB v.job 0)
          (if argB v.job 1 = 0 then .none else if argB v.job 1 = 1 then .oneShot else .sticky) s))))
    ∧ (TaskJob s b 0x54 v →
      (bitOf (argB v.job 0) 1 = true → exec (.bistSchedule b) s = .next (jobDone b 0 0 none (setNext false s)))
      ∧ (bitOf (argB v.job 0) 1 = false → bitOf (argB v.job 0) 0 = true → exec (.bistSchedule b) s = .next
        (if s.dev.st = .run then complete b { status := stBusyRun, res0 := 1 } (setNext true s) else jobDone b 1 0 none (setNext true s)))
      ∧ (bitOf (argB v.job 0) 1 = false → bitOf (argB v.job 0) 0 = false → exec (.bistSchedule b) s = .next
        (jobDone b (b2n s.int.next) 0 none s)))
    ∧ (TaskJob s b 0x55 v → exec (.bistResult b) s = .next (jobDone b
      (b2n (!s.int.bistRec.isEmpty && s.int.lastRes == 0) + flagAt s.int.bistFresh 1 + flagAt s.int.ran 2) (leAt s.int.bistRec 0 4)
      (some (slice s.int.bistRec 0 256)) s))
    ∧ (TaskJob s b 0x56 v → ∃ t, exec (.shutdown b) s = .next t ∧ t.dev.st = .shutdown ∧ t.int.noBist = bitOf (argB v.job 0) 0
      ∧ t.int.shutHoop = s.tm.hoop ∧ t.kee.pend = [] ∧ Raised 1 t)
    ∧ (TaskJob s b 0x57 v → exec (.echo b) s = .next (jobDone b (argN v.job 0 4) (argN v.job 4 8)
      (some (slice v.job.arg 0 (min 32 v.job.alen))) s))

/-! ### Rings, fetching and tenant resets (09 R429–R490; 07 R364–R377; 10 R498) -/

/-- Doorbells of an enabled tenant whose rings run move its tail and its CQ head, and of another nothing (09 R457, R459, R479); in Mode M
the index block is read, by CQ_HEAD_POLL with a full CQ alone (R458, R459). TEN_RCTL with EN starts the rings at 0, their sizes clamped to
16 to 4096 entries (R447, R449), and a tenant that is not enabled writes nothing (R431). The coalescing time gives CQ_READY once it has
passed since the oldest entry (R472). JOB_FETCH fetches the head job of the one tenant that may have one fetched, and none where none may
(07 R375); an opcode that is not implemented raises BAD_OPCODE (R464). A read of entries keeps them, and one that failed sets DMAERR, with
DMA_ERROR (R436); one that is not outstanding changes nothing. A command's timeout ends it with TIMEOUT, or NOT_LOCKED where it is the
train time that did not come (02 R96), not before it has passed, nor past a step that is irreversible, nor while its completion waits or
its argument is read (10 R498). -/
def Obligations.RingsAndFetching : Prop :=
  ∀ (n : Nat) (s : State), n < 8 → s.ten.tens.length = 8 →
    (∀ v : Word, doorsOpen s n = false → exec (.tenDb n v) s = .next s ∧ exec (.tenCqdb n v) s = .next s)
    ∧ (∀ v : Word, doorsOpen s n = true → rbit s (tenBase n + 0x200) 1 = false → bitsOf v.toNat 12 2 = 0 → (tenOf s n).dmaErr = false →
      ∃ t, exec (.tenDb n v) s = .next t ∧ (tenOf t n).sqTail = v.toNat % 4096 % sqSize s n ∧ (tenOf t n).sqHead = (tenOf s n).sqHead
        ∧ t = { s with ten := { s.ten with tens := t.ten.tens } } ∧ ∀ m, m ≠ n → tenOf t m = tenOf s m)
    ∧ (∀ v : Word, doorsOpen s n = true → ∃ t, exec (.tenCqdb n v) s = .next t ∧ (tenOf t n).cqHead = v.toNat % 4096 % cqSize s n)
    ∧ (doorsOpen s n = true → rbit s (tenBase n + 0x200) 1 = true → isSpi s n = false → dmaFull s = false →
      (∀ v : Word, bitsOf v.toNat 12 2 = 0 → exec (.tenDb n v) s = .next (dmaRead n (base64 s (tenBase n + 0x218)) 16 (.idx n) s))
      ∧ (cqFull s n = true → exec (.cqHeadPoll n) s = .next (dmaRead n (base64 s (tenBase n + 0x218)) 16 (.head n) s)))
    ∧ (doorsOpen s n = false ∨ rbit s (tenBase n + 0x200) 1 = false ∨ cqFull s n = false → exec (.cqHeadPoll n) s = .next s)
    ∧ (enabled s n = false → ∀ v : Word, exec (.tenRctlWrite n v) s = .next s)
    ∧ (∀ v : Word, enabled s n = true → isSpi s n = false → reachable s = true → gateShut s (tenBase n + 0x200) = false →
      ringEn s n = false → (tenOf s n).rst = false → v.getLsbD 0 = true →
      ∃ t, exec (.tenRctlWrite n v) s = .next t ∧ ringEn t n = true ∧ sqSize t n = 2 ^ max 4 (min 12 (bitsOf v.toNat 2 4))
        ∧ cqSize t n = 2 ^ max 4 (min 12 (bitsOf v.toNat 6 4)) ∧ (tenOf t n).sqHead = 0 ∧ (tenOf t n).sqTail = 0 ∧ (tenOf t n).cqHead = 0
        ∧ (tenOf t n).cqTail = 0 ∧ (tenOf t n).phase = true)
    ∧ (∀ c, (tenOf s n).oldest = some c → rfld s (tenBase n + 0x220) 8 16 ≠ 0 →
      (rfld s (tenBase n + 0x220) 8 16 * 8000 ≤ s.tm.clk - c → ∃ t, exec (.irqcoalTime n) s = .next t ∧ Raised (320 + 8 * n) t ∧ Reports s t)
      ∧ (s.tm.clk - c < rfld s (tenBase n + 0x220) 8 16 * 8000 → exec (.irqcoalTime n) s = .next s))
    ∧ ((tenOf s n).oldest = none ∨ rfld s (tenBase n + 0x220) 8 16 = 0 → exec (.irqcoalTime n) s = .next s)
    ∧ (s.ten.cmds = [] → (∀ m < 8, canFetch s m = false) → exec .jobFetch s = .next s)
    ∧ (canFetch s n = false ∨ (∀ es, headChain s n = .job es → opcodeOk (jobOf s n es).op = true) ∧ (∃ es, headChain s n = .job es) →
      exec (.badOpcode n) s = .next s)
    ∧ (s.ten.cmds = [] → canFetch s n = true → ∀ es b, headChain s n = .job es → freeIn s 32 480 = some b →
      ((∀ m < 8, m ≠ n → canFetch s m = false) → exec .jobFetch s = .next (fetchInto n b es s))
      ∧ (opcodeOk (jobOf s n es).op = false → chainOk es (jobOf s n es) = true → ∃ t, exec (.badOpcode n) s = .next t
        ∧ t = fetchInto n b es s ∧ Raised (324 + 8 * n) t))
    ∧ (∀ (id : Nat) (d : DmaResult), tget s.ten.dma id = none → exec (.dmaReadComplete id d) s = .next s)
    ∧ (∀ (id first k : Nat), tget s.ten.dma id = some (.sq n first k) → k ≠ 0 → (∀ e ∈ s.ten.bobs, e.2.wait ≠ .dma) →
      (∀ e ∈ s.ten.tens, e.idxPend = false) →
      (∃ t, exec (.dmaReadComplete id .failed) s = .next t ∧ (tenOf t n).dmaErr = true ∧ Raised (326 + 8 * n) t
        ∧ (tenOf t n).fetched = (tenOf s n).fetched)
      ∧ ∀ bs, ∃ t, exec (.dmaReadComplete id (.data bs)) s = .next t ∧ (tenOf t n).dmaErr = false
        ∧ ∀ d < k, tget (tenOf t n).fetched (first + d) = some (slice bs (64 * d) 64))
    ∧ (∀ b : Nat, bobOf s b = none → exec (.commandTimeout b) s = .next s)
    ∧ ∀ (b : Nat) (v : Bobbin), bobOf s b = some v →
      (s.tm.clk - v.accClk < tmoUnits v ∨ hasTmo v = false ∨ v.wait = .cqFull ∨ v.wait = .dma ∧ v.par < 4 ∨ irreversible s b = true →
        exec (.commandTimeout b) s = .next s)
      ∧ (tmoUnits v ≤ s.tm.clk - v.accClk → hasTmo v = true → v.wait ≠ .cqFull → (v.wait = .dma → 4 ≤ v.par) → irreversible s b = false →
        exec (.commandTimeout b) s = .next
          (cutOff b (if v.wait = .sync ∧ timed s = false then stNotLocked else stTimeout) (letGo b v s)))

/-- FRESET, a write of EN from 1 to 0 and an FLR begin the tenant's reset, and other writes of TEN_S_CTRL none (09 R437, R478); three rows
later its remaining bobbins are freed, in an inauguration not before Resume (07 R366, R367); with none left the reset ends: TEN_FENCE
counts on, the rings stand at 0, not enabled, and RESET_DONE is raised (09 R479). An FLR of the PF clears VF Enable and resets every enabled
VF tenant; of a VF without VF Enable it is ignored, of an SPI tenant's it resets no tenant (R430, R437); D3 to D0 is one. A link-down,
PERST# and a hot reset reset every function, with PCIE_LINK but for the last; the link's return raises it again (09 R437, 14 R690).
Configuration writes set what they name. A gap's end sends one message if an event arose in it (12 R608). Credit lets what waited leave,
in order (07 R377). -/
def Obligations.TenantResetsAndFunctions : Prop :=
  ∀ (n : Nat) (s : State), n < 8 → s.ten.tens.length = 8 →
    (reachable s = true → gateShut s (tenBase n + 0x1C00) = false →
      (∀ v : Word, v.getLsbD 1 = true → ∃ t, exec (.freset n v) s = .next t ∧ (tenOf t n).rst = true)
      ∧ (∀ v : Word, n ≠ 0 → tenEn s n = true → v.getLsbD 0 = false → ∃ t, exec (.tenantEnableWrite n v) s = .next t
        ∧ tenEn t n = false ∧ (tenOf t n).rst = true)
      ∧ (∀ v : Word, v.getLsbD 0 = true → v.getLsbD 1 = false → ∃ t, exec (.tenantEnableWrite n v) s = .next t ∧ tenEn t n = true
        ∧ (tenOf t n).rst = (tenOf s n).rst)
      ∧ (∀ v : Word, tenEn s n = false → v.getLsbD 1 = false → ∃ t, exec (.tenantEnableWrite n v) s = .next t
        ∧ (n ≠ 0 → tenEn t n = v.getLsbD 0) ∧ (tenOf t n).rst = (tenOf s n).rst))
    ∧ (∀ v : Word, v.getLsbD 1 = false → exec (.freset n v) s = .next s)
    ∧ ((tenOf s n).rst = true → (tenOf s n).rstResume = false → s.dev.st ≠ .inaug →
      ((tenOf s n).rstRow + 3 ≤ s.tm.rows → exec (.tenantResetTimeout n) s = .next (freeJobs n s))
      ∧ (s.tm.rows < (tenOf s n).rstRow + 3 → exec (.tenantResetTimeout n) s = .next s))
    ∧ ((tenOf s n).rst = false ∨ (tenOf s n).rstResume = true ∨ s.dev.st = .inaug → exec (.tenantResetTimeout n) s = .next s)
    ∧ ((tenOf s n).rst = false → exec (.resetDone n) s = .next s)
    ∧ ((tenOf s n).rst = true →
      (jobsOf s n = [] → ∃ t, exec (.resetDone n) s = .next t ∧ (tenOf t n).rst = false ∧ ringEn t n = false
        ∧ (tenOf t n).fence = ((tenOf s n).fence + 1) % 65536 ∧ (tenOf t n).sqHead = 0 ∧ (tenOf t n).sqTail = 0 ∧ (tenOf t n).cqHead = 0
        ∧ Raised (323 + 8 * n) t)
      ∧ (jobsOf s n ≠ [] → exec (.resetDone n) s = .next s))
    ∧ (n ≠ 0 → s.ten.vfEn = true → isSpi s n = false → ∃ t, exec (.pcieFunctionReset .flr n) s = .next t ∧ (tenOf t n).rst = true
      ∧ (tenOf t n).mse = false ∧ (tenOf t n).msixEn = false)
    ∧ (n ≠ 0 → s.ten.vfEn = false → exec (.pcieFunctionReset .flr n) s = .next s)
    ∧ (n ≠ 0 → s.ten.vfEn = true → isSpi s n = true → exec (.pcieFunctionReset .flr n) s = .next (flrConfig n s))
    ∧ (∃ t, exec (.pcieFunctionReset .flr 0) s = .next t ∧ t.ten.vfEn = false ∧ (tenOf t 0).rst = true
      ∧ (n ≠ 0 → isSpi s n = false → enabled s n = true → (tenOf t n).rst = true ∧ (tenOf t n).mse = false))
    ∧ exec (.pcieFunctionReset .d3ToD0 n) s = exec (.pcieFunctionReset .flr n) s
    ∧ (∃ t, exec (.pcieFunctionReset .hotReset n) s = .next t ∧ t.ten.vfEn = false ∧ (tenOf t 0).rst = true ∧ t.ten.linkUp = s.ten.linkUp)
    ∧ (∃ t, exec (.pcieFunctionReset .linkDown n) s = .next t ∧ t.ten.linkUp = false ∧ t.ten.vfEn = false
      ∧ (s.ten.linkUp = true → Raised 11 t))
    ∧ (∃ t, exec .perstAssert s = .next t ∧ t.ten.perst = true ∧ t.ten.linkUp = false ∧ t.ten.vfEn = false ∧ (s.ten.linkUp = true → Raised 11 t))
    ∧ (∃ t, exec .pcieLinkUp s = .next t ∧ t.ten.perst = false ∧ t.ten.linkUp = true ∧ (s.ten.linkUp = false → Raised 11 t))
    ∧ (∀ on : Bool, exec (.pcieConfigWrite (.vfEnable on)) s = .next { s with ten := { s.ten with vfEn := on } }
      ∧ (∃ t, exec (.pcieConfigWrite (.memSpace n on)) s = .next t ∧ tenOf t n = { tenOf s n with mse := on })
      ∧ (∃ t, exec (.pcieConfigWrite (.msixEnable n on)) s = .next t ∧ (tenOf t n).msixEn = on)
      ∧ (∃ t, exec (.pcieConfigWrite (.msixFnMask n on)) s = .next t ∧ (tenOf t n).fnMask = on)
      ∧ ∀ vec < 8, ∃ t, exec (.pcieConfigWrite (.msixVecMask n vec on)) s = .next t ∧ (tenOf t n).vecMask.getLsbD vec = on)
    ∧ (∀ vec < 8, ∃ t, exec (.msixGapEnd n vec) s = .next t ∧ (tenOf t n).gapEvt.getLsbD vec = false
      ∧ ((tenOf s n).gapEvt.getLsbD vec = false → t.out = s.out)
      ∧ ((tenOf s n).gapEvt.getLsbD vec = true → fnLive s n = true → (tenOf s n).msixEn = true → (tenOf s n).fnMask = false →
        (tenOf s n).vecMask.getLsbD vec = false → s.ten.noCredit = false → t.out = .msix n vec :: s.out))
    ∧ exec .postedWriteCredit s = .next { s with
        ten := { s.ten with noCredit := false, posted := [] }
        out := s.ten.posted.reverse ++ s.out }

/-! ### The home of a line (06 R289–R344; 07 R346–R371) -/

/-- Each of the thirteen requests at the home of its line: outside every region it is answered NOT_MAPPED, and DENIED where the region's RWR
does not permit a request that writes, or holds the line to write it, or its RRD any other (06 R289), or where a LISTEN-ONLY node denies it
(06 R342); with a tracker it joins its line's FIFO (06 R304, R311), an elder one counted, and without one, or with no room in the replay
table, it is refused with NAK_RETRY (06 R313, 05 R265). One for another node's line, one that arrives while the node serves none, and a write
from Freeze to Resume (05 R256) does nothing. Which requests write to hold the line is the model's reading (log 133), and so is what a late
write meets (log 134). -/
def Obligations.HomeTakesRequests : Prop :=
  ∀ (typ : MsgType) (c : Rx → Instr) (r : Rx) (s : State),
    (typ, c) ∈ [(MsgType.rdShared, Instr.rdShared), (.rdOwn, .rdOwn), (.ownNodata, .ownNodata), (.wrPublish, .wrPublish),
      (.wrMasked, .wrMasked), (.atomicReq, .atomicReq), (.lockReq, .lockReq), (.unlockReq, .unlockReq), (.subReq, .subReq),
      (.unsubReq, .unsubReq), (.writeback, .writeback), (.evictClean, .evictClean), (.readHome, .readHome)] →
    r.msg.typ = typ →
    (typ = .writeback → ∀ t ∈ s.home.trks, t.la = r.msg.la → t.isRecall = true → hasNode t.awaited r.src = false) →
    (onTrain s = false ∨ homedHere s r.msg.la = false ∨ tooLate s typ = true → exec (c r) s = .next s)
    ∧ (AtHome s r → tooLate s typ = false →
      (regionAt s r.msg.la = none → exec (c r) s = .next (queueMsg (reply (trackerOf r (0, .general) false) .ack 0 stNotMapped s) none s))
      ∧ ∀ (i : Nat) (rg : Region), regionAt s r.msg.la = some (i, rg) →
        ((if needsRwr typ then rg.rwr else rg.rrd) = false ∨ s.trn.memb = .listenOnly ∧ listenDenies typ = true →
          exec (c r) s = .next (queueMsg (reply (trackerOf r (0, .general) false) .ack 0 stDenied s) none s))
        ∧ ((if needsRwr typ then rg.rwr else rg.rrd) = true → (s.trn.memb = .listenOnly → listenDenies typ = false) →
          (replayFull s rg.cls typ = true ∧ r.msg.elder = false ∨ takeTrk s rg.cls r.msg.elder = none →
            exec (c r) s = .next (nakReq (trackerOf r (0, .general) false) s))
          ∧ (replayFull s rg.cls typ = false ∨ r.msg.elder = true → ∀ k, takeTrk s rg.cls r.msg.elder = some k →
            ∀ u, u = (if r.msg.elder then perf 42 none (cohCount 2 s) else s) →
            exec (c r) s = .next (joinFifo { trackerOf r k rg.claim with cls := rg.cls } { u with home := { u.home with
              nakCnt := u.home.nakCnt.filter fun x => x.1 != { hk := r.srcHk, ten := r.msg.ten, trk := r.msg.trk } } }))))

/-- What the home does with a request that nothing delays. On a PUBLISH line a write-through or atomic commits its data with the next
version and is answered with it; a read is answered with the line's data, and a subscriber is recorded (06 R305). On a CLAIM line without
a filter entry a read is granted E and an ownership request ownership, the entry EX by the requester; an owner's WRITEBACK commits and ends
its entry (06 R307). A lock is granted on an unlocked line (06 R326); what has nothing to do is acknowledged. -/
def Obligations.HomeWorksRequests : Prop :=
  ∀ (r : Rx) (rg : Region) (s : State), WorkedNow s r rg →
    (rg.claim = false →
      (∀ (typ : MsgType) (c : Rx → Instr) (d : Line), (typ, c, d) ∈ [(MsgType.wrPublish, Instr.wrPublish, r.msg.data),
          (.wrMasked, .wrMasked, lineMerge (homeLine s r.msg.la).data r.msg.data r.msg.mask),
          (.atomicReq, .atomicReq, (atomicLine (homeLine s r.msg.la).data r.msg.param r.msg.data).1)] → r.msg.typ = typ →
        (typ = .atomicReq → (atomicLine (homeLine s r.msg.la).data r.msg.param r.msg.data).2.2 = false) →
        ∃ t, exec (c r) s = .next t ∧ (homeLine t r.msg.la).data = d ∧ (homeLine t r.msg.la).version = (homeLine s r.msg.la).version + 1
          ∧ (∀ a, xOf a ≠ xOf r.msg.la → homeLine t a = homeLine s a)
          ∧ Queued t r.src (if typ = .atomicReq then .atomicResult else .ack) r.msg.la
            (fun m => m.version = (homeLine s r.msg.la).version + 1 ∧ m.trk = r.msg.trk))
      ∧ (∀ (typ : MsgType) (c : Rx → Instr), (typ, c) ∈ [(MsgType.rdShared, Instr.rdShared), (.readHome, .readHome)] → r.msg.typ = typ →
        ∃ t, exec (c r) s = .next t ∧ t.home.lines = s.home.lines ∧ t.home.filter = s.home.filter
          ∧ Queued t r.src .dataShared r.msg.la (fun m => m.data = (homeLine s r.msg.la).data ∧ m.version = (homeLine s r.msg.la).version
            ∧ m.flg = 4))
      ∧ (r.msg.typ = .subReq → fEntry s r.msg.la = none → (fSet s (xOf r.msg.la % 1024)).length < 12 →
        ∃ t, exec (.subReq r) s = .next t ∧ (fEntry t r.msg.la).any (fun e => e.st == .pub && e.vec == nodeBit r.src) = true
          ∧ t.home.lines = s.home.lines)
      ∧ (r.msg.typ = .unsubReq → ∃ t, exec (.unsubReq r) s = .next t ∧ (∀ e, fEntry t r.msg.la = some e → hasNode e.vec r.src = false)
        ∧ Queued t r.src .ack r.msg.la (fun m => m.param.toNat % 256 = stOk)))
    ∧ (rg.claim = true →
      (∀ (typ ans : MsgType) (c : Rx → Instr), (typ, ans, c) ∈ [(MsgType.rdShared, MsgType.dataShared, Instr.rdShared),
          (.rdOwn, .dataOwn, .rdOwn), (.ownNodata, (if r.msg.flg.getLsbD 0 then .grantOwn else .dataOwn), .ownNodata)] → r.msg.typ = typ →
        fEntry s r.msg.la = none → (fSet s (xOf r.msg.la % 1024)).length < 12 →
        ∃ t, exec (c r) s = .next t ∧ (fEntry t r.msg.la).any (fun e => e.st == .ex && e.vec == nodeBit r.src) = true
          ∧ t.home.lines = s.home.lines
          ∧ Queued t r.src ans r.msg.la (fun m => m.data = (homeLine s r.msg.la).data ∧ m.version = (homeLine s r.msg.la).version))
      ∧ (r.msg.typ = .writeback → ∀ e, fEntry s r.msg.la = some e → e.st = .ex → hasNode e.vec r.src = true → e.anchor = false →
        r.msg.flg.getLsbD 0 = false →
        ∃ t, exec (.writeback r) s = .next t ∧ (homeLine t r.msg.la).data = r.msg.data ∧ fEntry t r.msg.la = none
          ∧ (homeLine t r.msg.la).version = (homeLine s r.msg.la).version + 1)
      ∧ (r.msg.typ = .evictClean → fEntry s r.msg.la = none → ∃ t, exec (.evictClean r) s = .next t ∧ t.home.lines = s.home.lines
        ∧ Queued t r.src .ack r.msg.la (fun m => m.param.toNat % 256 = stOk)))
    ∧ (r.msg.typ = .lockReq → rg.cls ≠ .c0 → s.home.leases.length < 64 → ∃ t, exec (.lockReq r) s = .next t
      ∧ leaseOn t r.msg.la = some { la := r.msg.la, node := r.src, ten := r.msg.ten, expiry := s.tm.hoop + word (r.msg.param.toNat % 256) }
      ∧ Queued t r.src .leaseGrant r.msg.la (fun m => m.param = s.tm.hoop + word (r.msg.param.toNat % 256)))
    ∧ (r.msg.typ = .unlockReq → ∃ t, exec (.unlockReq r) s = .next t ∧ t.home.leases = s.home.leases
      ∧ Queued t r.src .ack r.msg.la (fun m => m.param.toNat % 256 = stOk))

/-! ### The requester of a line (06 R299–R301, R309–R314, R329; 10 R511–R514) -/

/-- The answers that end a request, at the bobbin that waits for them. DATA_SHARED fills a copy in IS, E or S, or brings an uncached read
its data, for every node the reads of each bobbin that it serves (06 R295, R300, 10 R511), and with SUB the value a subscription waits for
(R305); DATA_OWN, and GRANT_OWN from SM or for ZERO, make the write in the copy; UPDATE gives a P copy a newer version, a stale one also the
same or an aged-out one, and leaves it for an older; a copy in IP takes it and its subscriptions complete (06 R296, R300, R336); ACK ends a
request with its status, REPLAYED and the marks that precede another answer apart (05 R262, R265; 06 R305); NAK_RETRY sends the request
again, as an elder after four (06 R313, R314), or makes it local; ATOMIC_RESULT brings the old value; LEASE_GRANT is recorded, LEASE_BREAK
breaks the lease or ends it (06 R326, R329, R330). What is not for this node, and what no bobbin waits for, does nothing, the line's class
that the home shows apart (06 R290). A line homed here meanwhile keeps no copy (log 61). -/
def Obligations.RequesterTakesAnswers : Prop :=
  ∀ (r : Rx) (s : State) (m : LineMsg) (la b : Nat) (w u : State), m = r.msg → la = m.la → b = m.trk →
    w = learnCls la m.cls s → u = answerLane b r.lane w →
    (forNode s r = false → exec (.dataShared r) s = .next s ∧ exec (.update r) s = .next s ∧ exec (.dataOwn r) s = .next s
      ∧ exec (.grantOwn r) s = .next s ∧ exec (.ack r) s = .next s ∧ exec (.nakRetry r) s = .next s ∧ exec (.atomicResult r) s = .next s
      ∧ exec (.leaseGrant r) s = .next s ∧ exec (.leaseBreak r) s = .next s)
    ∧ (forNode s r = true → m.typ = .update → ∀ x, x = learnCls la m.cls (perf 25 none s) →
      (copyState s la = .ip ∨ m.cls = .c0 → exec (.update r) s = .next (ownLine la (drainLine la
        (each (subWaiters (takeValue m x) la (m.cls == .c0)) (subDone m) (takeValue m x)))))
      ∧ (m.cls ≠ .c0 → copyState s la ≠ .ip → copyState s la ≠ .p → exec (.update r) s = .next (ownLine la (drainLine la x)))
      ∧ (m.cls ≠ .c0 → ∀ (k : Nat) (cp : Copy), copyOf s la = some (k, cp) → cp.st = .p →
        ∀ y, y = relocate la (touch la (setCopy k (filled x cp .p m) x)) →
        (newer m.version cp.version = true → exec (.update r) s = .next (ownLine la (drainLine la (bindPend la y))))
        ∧ (newer m.version cp.version = false → cp.stale = true → m.version = cp.version ∨ m.age = 0 →
          exec (.update r) s = .next (ownLine la (drainLine la y)))
        ∧ (newer m.version cp.version = false → cp.stale = false ∨ m.version ≠ cp.version ∧ m.age ≠ 0 →
          exec (.update r) s = .next (ownLine la (drainLine la (perf 26 none x))))))
    ∧ (forNode s r = true → m.typ = .dataShared → m.flg.getLsbD 1 = false → m.dst = 63 →
      exec (.dataShared r) s = .next (ownLine la (each (readWaiters w m) (fun s b => sharedOne b m r.lane s) w)))
    ∧ (forNode s r = true → m.typ = .dataShared → m.flg.getLsbD 1 = true → ∀ mine, mine = (subWaiters (takeValue m w) la true).filter (fun e =>
        e.1 == b || copyState (takeValue m w) la == .p && (e.2.req.any fun q => q.flg == 0)) →
      exec (.dataShared r) s = .next (ownLine la (drainLine la (each mine (subDone m)
        (each mine (fun s e => answerLane e.1 r.lane s) (takeValue m w))))))
    ∧ (forNode s r = true → ansBob s m = none →
      (m.typ = .dataShared → m.flg.getLsbD 1 = false → m.dst ≠ 63 → exec (.dataShared r) s = .next w)
      ∧ exec (.dataOwn r) s = .next s ∧ exec (.grantOwn r) s = .next s ∧ exec (.ack r) s = .next s ∧ exec (.nakRetry r) s = .next s
      ∧ exec (.atomicResult r) s = .next s ∧ exec (.leaseGrant r) s = .next s)
    ∧ (forNode s r = true → m.typ = .leaseBreak →
      (m.flg.getLsbD 0 = true → exec (.leaseBreak r) s = .next { w with
        heldLeases := s.heldLeases.map fun h => if h.la == la && h.ten == m.ten then { h with broken := true } else h })
      ∧ (m.flg.getLsbD 0 = false → ∀ x, x = { w with heldLeases := s.heldLeases.filter fun h => !(h.la == la && h.ten == m.ten) } →
        exec (.leaseBreak r) s = .next (if (ansBob s m).isSome then finishLine b {} x else x)))
    ∧ ∀ v, forNode s r = true → ansBob s m = some v → ∀ res : LineRes,
      res = { status := if v.lost then stLineLost else stOk, version := m.version, age := m.age, data := some m.data, aged := jobAged v m.age } →
      (m.typ = .dataShared → m.flg.getLsbD 1 = false → m.dst ≠ 63 →
        (m.flg.getLsbD 2 = true → copyOf s la = none → exec (.dataShared r) s = .next (ownLine la (attachedApply b false (finishLine b res u))))
        ∧ (m.flg.getLsbD 2 = false → ∀ (k : Nat) (cp : Copy), copyOf s la = some (k, cp) → cp.st = .is → cp.bob = some b →
          (cp.inval = false → exec (.dataShared r) s = .next (ownLine la (afterFill b la true (finishLine b res
            (touch la (setCopy k (filled u cp (if m.flg.getLsbD 0 then .e else .s) m) u))))))
          ∧ (cp.inval = true → exec (.dataShared r) s = .next (ownLine la (afterFill b la true (finishLine b res (dropWay k u)))))))
      ∧ (∀ (k : Nat) (cp : Copy), copyOf s la = some (k, cp) → cp.bob = some b →
        (m.typ = .dataOwn → cp.st = .im ∨ cp.st = .sm → exec (.dataOwn r) s = .next (ownLine la (fillOwn b v k (filled u cp .m m) u)))
        ∧ (m.typ = .grantOwn → cp.st = .sm → exec (.grantOwn r) s = .next
          (ownLine la (fillOwn b v k { cp with bob := none, again := none } u)))
        ∧ (m.typ = .grantOwn → cp.st = .im → v.req.any (fun q => q.typ == .ownNodata && q.flg.getLsbD 0) = true → v.absorb = false →
          exec (.grantOwn r) s = .next (ownLine la (fillOwn b v k (filled u cp .m { m with data := 0 }) u))))
      ∧ (m.typ = .ack → ∀ st, st = m.param.toNat % 256 → ∀ fin, fin = (fun (x : State) => finishLine b { status := st, version := m.version } x) →
        ∀ done, done = (fun (x : State) => ownLine la (drainLine la (attachedApply b false (fin x)))) → ∀ q, reqType v = some q →
        (q = .wrPublish ∨ q = .wrMasked ∨ q = .lockReq ∨ q = .unsubReq → exec (.ack r) s = .next (finishLine b
          { status := if st = stReplayed then stOk else st, replayed := st == stReplayed, version := m.version } u))
        ∧ (q = .writeback → exec (.ack r) s = .next (done (writebackAcked b m (decide (st < 0x10)) u)))
        ∧ (q = .unlockReq → exec (.ack r) s = .next (fin { u with
          heldLeases := s.heldLeases.filter fun h => !(h.la == la && h.ten == m.ten) }))
        ∧ (q = .rdShared ∨ q = .readHome → exec (.ack r) s = .next
          (if st = stLineLost then modBob b (fun v => { v with lost := true }) u else done (fillRefused b la u)))
        ∧ (q = .rdOwn ∨ q = .ownNodata ∨ q = .subReq → exec (.ack r) s = .next (done (fillRefused b la u)))
        ∧ (q = .atomicReq → st ≠ stReplayed → exec (.ack r) s = .next
          (if st = stLeaseExpired then modBob b (fun v => { v with broke := true }) u else fin u)))
      ∧ (m.typ = .nakRetry → (homedHere s la = false → ∃ t, exec (.nakRetry r) s = .next t ∧ (bobOf t b).any (fun x => x.naks == v.naks + 1
          && x.elder == (v.elder || decide (4 ≤ v.naks + 1)) && x.wait == .answer) = true)
        ∧ (homedHere s la = true → exec (.nakRetry r) s = .next (nowLocal b v la (cohCount 1 (perf 29 (some v.job.ten) w)))))
      ∧ (m.typ = .atomicResult → exec (.atomicResult r) s = .next (finishLine b
        { version := m.version, res1 := leNat (lineGet m.data 0 8), casFail := m.flg.getLsbD 0 } u))
      ∧ (m.typ = .leaseGrant → exec (.leaseGrant r) s = .next (finishLine b { version := m.version, res0 := m.param.toNat }
        (answerLane b r.lane (learnCls la m.cls { s with heldLeases := s.heldLeases.filter (fun h => !(h.la == la && h.ten == m.ten)) ++
          [{ la := la, ten := m.ten, hoops := (v.req.map fun q => q.param.toNat % 256).getD 0, expiry := m.param }] }))))

/-- Probes and their answers. A holder answers INVALIDATE with INV_ACK and drops an S copy, a P copy where a victim's is taken; in IS it is
marked, in SM it becomes IM (06 R300, R321). It answers RECALL of an E or M copy with RECALL_DATA, keeping S where KEEP_S asks, holding a
dirty line and dropping a clean one; a repeated one again; a copy on its way out with CLEAN = 0; and of a line it does not hold with
RECALL_NODATA (06 R300, 07 R351, R352, R359). At the home an INV_ACK or a clean RECALL_NODATA is one answer less to await, RECALL_NODATA
with CLEAN = 0 takes the WRITEBACK that has arrived or waits for it, and RECALL_DATA with DIRTY commits its data, and restores a line that is restored (06 R308, 08 R405); one
forwarded to this node fills its read (06 R309); an answer no tracker awaits, or of the other kind, is discarded. -/
def Obligations.ProbesAndTheirAnswers : Prop :=
  ∀ (r : Rx) (s : State) (la : Nat), la = r.msg.la →
    (forNode s r = false → exec (.invalidateMsg r) s = .next s ∧ exec (.recall r) s = .next s)
    ∧ (forNode s r = true → r.msg.typ = .invalidate → ∀ u, u = probeAnswer r .invAck 0 none false (learnCls la r.msg.cls (perf 23 none s)) →
      (copyOf s la = none → exec (.invalidateMsg r) s = .next u)
      ∧ ∀ (k : Nat) (cp : Copy), copyOf s la = some (k, cp) →
        (cp.st = .s → exec (.invalidateMsg r) s = .next (relocate la (dropWay k u)))
        ∧ (cp.st = .p → exec (.invalidateMsg r) s = .next (if r.msg.flg.getLsbD 0 then subLost la (relocate la (dropWay k u)) else u))
        ∧ (cp.st = .is → exec (.invalidateMsg r) s = .next (setCopy k { cp with inval := true } u))
        ∧ (cp.st = .sm → exec (.invalidateMsg r) s = .next (setCopy k { cp with st := .im, back := .i } u))
        ∧ (cp.st ∉ [CState.s, .p, .is, .sm] → exec (.invalidateMsg r) s = .next u))
    ∧ (forNode s r = true → r.msg.typ = .recall → ∀ u, u = learnCls la r.msg.cls (perf 24 none s) → ∀ all, all = (r.msg.param.toNat % 64 != 0) →
      (copyOf s la = none →
        (heldOf s la = none → exec (.recall r) s = .next (probeAnswer r .recallNodata 1 none false u))
        ∧ ∀ e, heldOf s la = some e → exec (.recall r) s = .next (if (e.2.held.getD (0, 0)).1 = r.msg.trk
          then probeAnswer r .recallData 1 (some e.2) all u else probeAnswer r .recallNodata 1 none false u))
      ∧ ∀ (k : Nat) (cp : Copy), copyOf s la = some (k, cp) →
        (cp.st = .e ∨ cp.st = .m →
          ∀ w, w = probeAnswer r .recallData (BitVec.ofNat 3 (b2n (cp.st == .m) + 2 * b2n (r.msg.flg.getLsbD 0))) (some cp) all u →
          (r.msg.flg.getLsbD 0 = true → exec (.recall r) s = .next
            (setCopy k { cp with st := .s, again := some (r.msg.trk, u.tm.rows, cp.st == .m) } w))
          ∧ (r.msg.flg.getLsbD 0 = false → cp.st = .m → exec (.recall r) s = .next
            (setCopy k { cp with held := some (r.msg.trk, u.tm.rows), bob := none } w))
          ∧ (r.msg.flg.getLsbD 0 = false → cp.st = .e → exec (.recall r) s = .next (relocate la (dropWay k w))))
        ∧ (cp.st = .s → (cp.again.any fun a => a.1 == r.msg.trk) = false → exec (.recall r) s = .next (probeAnswer r .recallNodata 1 none false u))
        ∧ (cp.st = .s → ∀ a, cp.again = some a → a.1 = r.msg.trk →
          exec (.recall r) s = .next (probeAnswer r .recallData (BitVec.ofNat 3 (b2n a.2.2 + 2)) (some cp) all u))
        ∧ (cp.st = .mi → exec (.recall r) s = .next
          (probeAnswer r .recallNodata 0 none false (setCopy k { cp with recalled := some (r.msg.flg.getLsbD 0) } u)))
        ∧ (cp.st ∉ [CState.e, .m, .s, .mi] → exec (.recall r) s = .next (probeAnswer r .recallNodata 1 none false u)))
    ∧ (awaiting s r.msg r.src = none → exec (.invAck r) s = .next s ∧ exec (.recallNodata r) s = .next s
      ∧ (r.msg.param.toNat % 64 ≠ s.trn.node → exec (.recallData r) s = .next s))
    ∧ (forNode s r = true → r.msg.typ = .recallData → r.msg.param.toNat % 64 = s.trn.node → ∀ b v, b = bitsOf r.msg.param.toNat 6 10 →
      bobOf s b = some v → v.job.ten = bitsOf r.msg.param.toNat 16 3 →
      ∀ (k : Nat) (cp : Copy), copyOf s la = some (k, cp) → cp.st = .is → cp.bob = some b →
      ∀ y, y = ownLine la (fillShared b v k cp .s r.msg (answerLane b r.lane (learnCls la r.msg.cls s))) →
      awaiting y r.msg r.src = none → exec (.recallData r) s = .next y)
    ∧ ∀ t, awaiting s r.msg r.src = some t →
      (t.isRecall = false → exec (.invAck r) s = .next (answered t.ix r.src id (returnCredit r.src s)) ∧ exec (.recallNodata r) s = .next s
        ∧ (r.msg.param.toNat % 64 ≠ s.trn.node → exec (.recallData r) s = .next s))
      ∧ (t.isRecall = true → exec (.invAck r) s = .next s)
      ∧ (t.isRecall = true → r.msg.flg.getLsbD 0 = true → exec (.recallNodata r) s = .next (answered t.ix r.src id (returnCredit r.src s)))
      ∧ (t.isRecall = true → r.msg.flg.getLsbD 0 = false → t.phase = .wb → exec (.recallNodata r) s = .next s)
      ∧ (t.isRecall = true → r.msg.flg.getLsbD 0 = false → t.phase ≠ .wb →
        (queuedWriteback s la r.src = none → exec (.recallNodata r) s = .next
          (modTrk t.ix (fun t => { t with phase := .wb }) (returnCredit r.src s)))
        ∧ ∀ x, queuedWriteback s la r.src = some x → exec (.recallNodata r) s = .next
          (takeWriteback t { src := x.src, srcHk := x.srcHk, lane := r.lane, msg := x.msg } (freeTrk x.ix s)))
      ∧ (t.isRecall = true → t.purpose ≠ .restore → r.msg.param.toNat % 64 ≠ s.trn.node →
        exec (.recallData r) s = .next (answered t.ix r.src (fun t => { t with
          kept := if r.msg.flg.getLsbD 1 then t.kept ||| nodeBit r.src else t.kept
          fwdDone := if t.purpose == .restore then true else t.fwd != 0 })
          (if r.msg.flg.getLsbD 0 then commitRecall la r.msg.data none (returnCredit r.src s) else returnCredit r.src s)))
      ∧ (t.isRecall = true → t.purpose = .restore → r.msg.param.toNat % 64 ≠ s.trn.node → ∀ x, x = returnCredit r.src s →
        ∀ y, y = raise 136 (detLA la) (setLine la
          { homeLine x la with data := r.msg.data, version := r.msg.version, errData := false, metaLost := false } x) →
        exec (.recallData r) s = .next (answered t.ix r.src (fun t => { t with
          kept := if r.msg.flg.getLsbD 1 then t.kept ||| nodeBit r.src else t.kept, fwdDone := true })
          (if r.msg.flg.getLsbD 0 then commitRecall la r.msg.data none y else y)))

/-- Timers and moving homes. A request whose answer has not come REQ_TMO rows after it left is sent again, and not before (06 R334); a probe
without an answer after HOME_TMO rows likewise (06 R335), and a mirror send (log 37). The first waiting request of a free line is worked,
and one that waits for a filter way tries again (06 R304, R319). A lease ends at its expiry hoop, and a holder elsewhere is told (06 R329).
A held line and a remembered recall end after 65 rows (07 R359). A MIG_LINE of a transfer or of a mirrored commit is stored unless the node
holds a newer version (05 R271); one of a transfer is counted, one of a commit answered, an OWNED one committed (05 R272, R276, R277). A
MIG_DIR's entries are set and counted (05 R269), or not counted where it finds no room (log 136). MIG_DONE is acknowledged when every counted
message is here, and the count begins anew when not (05 R270); an ACK that leaves gives its sender the role's source bit, and one heard takes
it from the old source (05 R274). A transfer without an ACK two rows after its MIG_DONE begins anew (05 R271). -/
def Obligations.TimersAndTransfers : Prop :=
  (∀ (b : Nat) (v : Bobbin) (s : State), bobOf s b = some v →
    (v.left = none ∨ v.wait ≠ .answer → exec (.requestResend b) s = .next s)
    ∧ ∀ row, v.left = some row → v.wait = .answer →
      (s.tm.rows - row < rfld s 0x8000 0 8 → exec (.requestResend b) s = .next s)
      ∧ (rfld s 0x8000 0 8 ≤ s.tm.rows - row → exec (.requestResend b) s = .next (retryReq b v (cohCount 6 s))))
  ∧ (∀ (ix : Nat) (t : Tracker) (s : State), trkOf s ix = some t →
    (s.tm.rows - t.row < rfld s 0x8000 8 8 ∨ (t.phase ≠ .probe ∧ t.purpose ≠ .mirror) → exec (.homeResend ix) s = .next s)
    ∧ (rfld s 0x8000 8 8 ≤ s.tm.rows - t.row →
      (t.phase = .probe → ∃ u, exec (.homeResend ix) s = .next u ∧ (trkOf u ix).any (fun x => x.row == s.tm.rows) = true
        ∧ ∀ k ∈ nodesOf t.awaited, Queued u k (if t.isRecall then .recall else .invalidate) t.la (fun m => m.trk = t.ix))
      ∧ (t.phase ≠ .probe → t.purpose = .mirror → ∃ u, exec (.homeResend ix) s = .next u
        ∧ (trkOf u ix).any (fun x => x.row == s.tm.rows) = true
        ∧ Queued u (mirrorNode s) .migLine t.la (fun m => m.version = (homeLine s t.la).version ∧ m.data = (homeLine s t.la).data))))
  ∧ (∀ (la : Nat) (s : State),
    (∀ t, s.home.trks.find? (fun t => t.la == la && t.phase == .way) = some t →
      (∀ e, t.purpose = .dir e → exec (.homeFifoNext la) s = .next (dirTrk t e s))
      ∧ ((∀ e, t.purpose ≠ .dir e) →
        exec (.homeFifoNext la) s = .next (workTrk { t with phase := .queued } (modTrk t.ix (fun u => { u with phase := .queued }) s))))
    ∧ (s.home.trks.find? (fun t => t.la == la && t.phase == .way) = none →
      (isBusy s la = true ∨ hasFifo s la = false → exec (.homeFifoNext la) s = .next s)
      ∧ (isBusy s la = false → ∀ t, s.home.trks.find? (fun t => t.la == la && !passed t) = some t →
        exec (.homeFifoNext la) s = .next (workTrk t s))))
  ∧ (∀ (la : Nat) (s : State), (leaseOn s la = none → exec (.leaseExpiry la) s = .next s)
    ∧ ∀ l, leaseOn s la = some l →
      (leaseExpired s l = false → exec (.leaseExpiry la) s = .next s)
      ∧ (leaseExpired s l = true → ∃ t, exec (.leaseExpiry la) s = .next t ∧ t.home.leases = s.home.leases.filter (· != l)
        ∧ (l.node ≠ 0 → Queued t l.node .leaseBreak l.la (fun m => m.ten = l.ten ∧ m.flg = 1))
        ∧ (l.node = 0 → ∀ h ∈ t.heldLeases, h.la = l.la → h.ten = l.ten → h.broken = true)))
  ∧ (∀ (la : Nat) (s : State),
    (∀ k cp, heldOf s la = some (k, cp) → 65 ≤ s.tm.rows - (cp.held.getD (0, 0)).2 →
      ∃ t, exec (.heldLineRelease la) s = .next t ∧ tget t.cc.ways k = none)
    ∧ ((∀ e, heldOf s la = some e → s.tm.rows - (e.2.held.getD (0, 0)).2 < 65) →
      ((∀ e a, copyOf s la = some e → e.2.again = some a → s.tm.rows - a.2.1 < 65) → exec (.heldLineRelease la) s = .next s)
      ∧ ∀ k cp a, copyOf s la = some (k, cp) → cp.again = some a → 65 ≤ s.tm.rows - a.2.1 →
        exec (.heldLineRelease la) s = .next (setCopy k { cp with again := none } s)))
  ∧ (∀ (r : Rx) (s : State), forNode s r = false ∨ roleOf (laHk r.msg.la) = none →
    exec (.migLine r) s = .next s ∧ exec (.migDir r) s = .next s ∧ exec (.migDone r) s = .next s)
  ∧ (∀ (r : Rx) (k : Nat) (s : State), forNode s r = true → roleOf (laHk r.msg.la) = some k →
    (r.msg.flg.getLsbD 0 = true ∨ r.msg.flg.getLsbD 1 = false → ∃ t, exec (.migLine r) s = .next t
      ∧ (newer (homeLine s r.msg.la).version r.msg.version = false ∨ (homeLine s r.msg.la).orphan = true →
        (homeLine t r.msg.la).data = r.msg.data ∧ (homeLine t r.msg.la).version = r.msg.version)
      ∧ (newer (homeLine s r.msg.la).version r.msg.version = true → (homeLine s r.msg.la).orphan = false →
        homeLine t r.msg.la = homeLine s r.msg.la)
      ∧ (r.msg.flg.getLsbD 0 = false ∨ r.mig = true → migInOf t k (r.msg.flg.getLsbD 0) = some (gotLine (laLx r.msg.la) r.msg.version
        ((migInOf s k (r.msg.flg.getLsbD 0)).getD { role := k, src := r.src, mirror := r.msg.flg.getLsbD 0 })))
      ∧ (r.msg.flg.getLsbD 0 = true → r.mig = false → Queued t r.src .migDone r.msg.la (fun m => m.version = r.msg.version ∧ m.flg = 3)))
    ∧ (r.msg.flg.getLsbD 0 = false → r.msg.flg.getLsbD 1 = true → ∃ t, exec (.migLine r) s = .next t
      ∧ (homeLine t r.msg.la).data = r.msg.data ∧ (homeLine t r.msg.la).orphan = false
      ∧ ((homeLine s r.msg.la).metaLost = false → (homeLine t r.msg.la).version = (homeLine s r.msg.la).version + 1))
    ∧ (dirFits r.msg s = false → exec (.migDir r) s = .next s)
    ∧ (dirFits r.msg s = true → ∃ t, exec (.migDir r) s = .next t ∧ t.home.lines = s.home.lines
      ∧ migInOf t k false = some (gotDir (laLx r.msg.la) ((migInOf s k false).getD { role := k, src := r.src, mirror := false }))
      ∧ ((∀ i, i < 8 → hasWay s (r.msg.la + i) = true) → laLx r.msg.la % 8 = 0 → laLx r.msg.la < 0x400 →
        ∀ i e, i < 8 → dirEntry r.msg s i = some e → ∃ q, fEntry t (r.msg.la + i) = some { e with seq := q }))
    ∧ (r.msg.flg.getLsbD 0 = false → ∀ x, x = (migInOf s k (r.msg.flg.getLsbD 1)).getD { role := k, src := r.src, mirror := r.msg.flg.getLsbD 1 } →
      (x.done = true → exec (.migDone r) s = .next (sendMigAck k x.mirror s))
      ∧ (x.done = false → r.msg.param.toNat % 65536 ≤ x.got.length + x.more → r.msg.param.toNat / 65536 ≤ x.dirs.length →
        ∃ t, exec (.migDone r) s = .next t ∧ migInOf t k x.mirror = some { x with done := true, got := [], more := 0, dirs := [] }
          ∧ Queued t 63 .migDone (roleLa k 0) (fun m => m.flg.getLsbD 0 = true ∧ m.flg.getLsbD 1 = x.mirror))
      ∧ (x.done = false → (x.got.length + x.more < r.msg.param.toNat % 65536 ∨ x.dirs.length < r.msg.param.toNat / 65536) →
        ∃ t, exec (.migDone r) s = .next t ∧ migInOf t k x.mirror = some { x with got := [], more := 0, dirs := [] }
          ∧ t.lan.txq = s.lan.txq))
    ∧ (r.msg.flg.getLsbD 0 = true → r.msg.dst ≠ 63 → exec (.migDone r) s = .next (mirrorAnswer r.msg.la r.msg.version s))
    ∧ (r.msg.flg.getLsbD 0 = true → r.msg.dst = 63 → ∃ t, exec (.migDone r) s = .next t
      ∧ (∀ m ∈ t.trn.migOut, m.role = k → m.mirror ≠ r.msg.flg.getLsbD 1)
      ∧ (r.msg.flg.getLsbD 1 = false → s.trn.holders.getD k 0 ≠ s.trn.node → (∃ m ∈ s.trn.migOut, m.role = k ∧ m.mirror = false) →
        t.trn.roleSrc.getLsbD k = false ∧ holdsRole t k = false)))
  ∧ (∀ (m : LineMsg) (k : Nat) (x : MigIn) (s : State), m.dst = 63 → m.flg = 1 → roleOf (laHk m.la) = some k →
    migInOf s k false = some x → x.done = true → x.acked = false →
    (ackLeft m s).trn.roleSrc.getLsbD k = true ∧ holdsRole (ackLeft m s) k = true)
  ∧ ∀ (role : Nat) (s : State), ∃ l : List MigOut, exec (.migrationRetry role) s = .next { s with trn := { s.trn with migOut := l } }
    ∧ l.length = s.trn.migOut.length ∧ ∀ (i : Nat) (m : MigOut), s.trn.migOut[i]? = some m → l[i]? = some (
      if m.role = role ∧ m.doneRow.any (fun d => decide (2 ≤ s.tm.rows - d)) then freshMove s m.role m.dst m.mirror else m)

/-! ### Frames (03 R132–R190) -/

/-- A frame that reaches an open side is checked: one with a bad FCS or end-to-end CRC is counted in RX_FCS_BAD or RX_CRC_BAD, and a data
frame is then discarded whole (R148). Of the good ones, a data frame of another epoch counts in EPOCH_DROP (R189), one of class 3 or with a
message of an unknown type in UNKNOWN_TYPE (R144, R720); it is delivered in its stream's order, counted as a duplicate, held while frames
before it are missing, or declares them lost (R161–R163, R165; logs 127 and 128). A side in GATED takes no data or pattern frame (R186). A
ranging frame gives its waves, its RANGE and a CALL (R172), and a pattern or inauguration frame waits with its copies of other lanes, and is
decided once (R166). A frame that is not Adezo's, or comes in on a side which takes none, changes nothing. A frame held for LAN_REORD_TMO
closes the gaps before it: the missing frames are counted as lost and LANE_GAP is raised (R162, R164). Of the copies of an unsequenced
frame, that of the lowest lane is taken when the wait ends (R166). -/
def Obligations.FramesAreCheckedAndSequenced : Prop :=
  (∀ (f : RawFrame) (s : State), rxOpen s f.lane f.side = false ∨ isAdezo s f.lane f.bytes = false →
    exec (.adezoFrameReceive f) s = .next s)
  ∧ (∀ (f : RawFrame) (s : State), rxOpen s f.lane f.side = true → isAdezo s f.lane f.bytes = true →
    let fr := (readFrame f.bytes).1
    let bad := fun (i : Nat) => exec (.adezoFrameReceive f) s = .next (badFrame f.lane f.side fr.hdr (laneCount f.lane i 1 s))
    let bad1 := fun (i : Nat) => exec (.adezoFrameReceive f) s = .next (laneCount f.lane i 1 s)
    (f.fcsOk = false → bad 1 ∧ (fr.hdr.kind = 1 → bad1 1))
    ∧ (f.fcsOk = true → crcOk (f.bytes.drop 14) = false → bad 2 ∧ (fr.hdr.kind = 1 → bad1 2)))
  ∧ (∀ (f : RawFrame) (s : State), rxOpen s f.lane f.side = true → isAdezo s f.lane f.bytes = true → f.fcsOk = true →
    crcOk (f.bytes.drop 14) = true →
    let fr := (readFrame f.bytes).1
    let u := lanePerf f.lane 1 1 (laneCount f.lane 0 1 s)
    let note := fun (t : State) => if (readFrame f.bytes).2 then unknownType f.lane f.side t else t
    let k := streamKey fr.hdr.src fr.hdr.cls
    let x := streamOf s k
    let d := (fr.hdr.fseq + 65536 - x.e.getD fr.hdr.fseq) % 65536
    let gated := (sideOf s f.lane f.side).link == .gated
    let goes := fun (t : State) => exec (.adezoFrameReceive f) s = .next t
    let dup := fun (t : State) => lanePerf f.lane 4 1 (laneCount f.lane 4 1 t)
    (fr.hdr.kind = 1 →
      (gated = true → goes u)
      ∧ (gated = false → ownEpoch s fr.hdr = false → goes (laneCount f.lane 6 1 u))
      ∧ (gated = false → ownEpoch s fr.hdr = true → fr.hdr.cls = 3 → goes (unknownType f.lane f.side u))
      ∧ (gated = false → ownEpoch s fr.hdr = true → fr.hdr.cls ≠ 3 →
        (0x8000 ≤ d → goes (dup u))
        ∧ (d = 0 → goes (followOn k 8 (deliver f.lane fr (note (setStream k { x with e := some ((fr.hdr.fseq + 1) % 65536) } u)))))
        ∧ (0 < d → d < 8 → x.held.any (·.1 == fr.hdr.fseq) = true → goes (dup u))
        ∧ (0 < d → d < 8 → x.held.any (·.1 == fr.hdr.fseq) = false → heldAll s < 64 →
          goes (setStream k { x with held := x.held ++ [(fr.hdr.fseq, f.lane, s.tm.clk, fr)] } (note u)))
        ∧ (0 < d → d < 8 → x.held.any (·.1 == fr.hdr.fseq) = false → 64 ≤ heldAll s → ∀ v y w, v = holdRoom (note u) → y = streamOf v k →
          w = setStream k { y with held := y.held ++ [(fr.hdr.fseq, f.lane, v.tm.clk, fr)] } v →
          (y.e = some fr.hdr.fseq → goes (followOn k 8 w))
          ∧ (y.e ≠ some fr.hdr.fseq → (fr.hdr.fseq + 65536 - y.e.getD fr.hdr.fseq) % 65536 < 8 → goes w)
          ∧ (y.e ≠ some fr.hdr.fseq → 8 ≤ (fr.hdr.fseq + 65536 - y.e.getD fr.hdr.fseq) % 65536 → goes (dup v)))
        ∧ (8 ≤ d → d < 0x8000 → goes (deliver f.lane fr (each (heldInOrder x) (fun t h => deliver h.2.1 h.2.2.2 t)
          (setStream k { e := some ((fr.hdr.fseq + 1) % 65536), held := [] } (declareLost k (d - (heldInOrder x).length) f.lane (note u))))))))
    ∧ (fr.hdr.kind = 2 → goes (takeRanging f.lane f.side fr (s.tm.clk - wireUnits s f.lane f.bytes.length) (note u)))
    ∧ (fr.hdr.kind = 0 → gated = true → goes u)
    ∧ (fr.hdr.kind ≠ 1 → fr.hdr.kind ≠ 2 → fr.hdr.kind ≠ 0 ∨ gated = false →
      (s.lan.decided.any (·.1 == copyKey fr.hdr) = true → goes u)
      ∧ (s.lan.decided.any (·.1 == copyKey fr.hdr) = false → ∀ v, v = (if (copiesOf s (copyKey fr.hdr)).isEmpty then note u else u) →
        goes (tryDecide fr.hdr { v with lan := { v.lan with copies := v.lan.copies ++ [{
          kind := fr.hdr.kind, stitch := fr.hdr.stitch, lane := f.lane, side := f.side
          stamp := s.tm.clk - wireUnits s f.lane f.bytes.length, frame := fr }] } }))))
  ∧ (∀ (src : Nat) (c : Cls) (s : State), (streamOf s (streamKey src (clsIx c))).held.any (fun h => reordTmo s h.2.1 ≤ s.tm.clk - h.2.2.1) = false
      ∨ (streamOf s (streamKey src (clsIx c))).e = none →
    exec (.reorderTimeout src c) s = .next s)
  ∧ (∀ (src : Nat) (c : Cls) (e : Nat) (h : Nat × LaneId × Nat × Frame) (s : State),
    let k := streamKey src (clsIx c)
    let x := streamOf s k
    let late := fun (h : Nat × LaneId × Nat × Frame) => decide (reordTmo s h.2.1 ≤ s.tm.clk - h.2.2.1)
    x.held.any late = true → x.e = some e → nextHeld x = some h →
    ∃ u, exec (.reorderTimeout src c) s = .next (closeGaps k late 7 (followOn k 8 u)) ∧ streamOf u k = { x with e := some h.1 }
      ∧ (h.1 ≠ e → h.1 < 65536 → e < 65536 → Raised (64 + 16 * laneIx h.2.1 + 6) u
        ∧ ctrGet u (lanCtr (laneIx h.2.1) 5) = min 0xFFFFFFFF (ctrGet s (lanCtr (laneIx h.2.1) 5) + (h.1 + 65536 - e) % 65536)))
  ∧ (∀ (kind stitch : Nat) (s : State), (∀ c ∈ s.lan.copies, ¬(c.kind = kind ∧ c.stitch = stitch)) →
    exec (.laneCopyTimeout kind stitch) s = .next s)
  ∧ ∀ (kind stitch : Nat) (f : CopyWait) (s : State), (s.lan.copies.filter fun c => c.kind == kind && c.stitch == stitch).head? = some f →
    ∃ c ∈ copiesOf s (copyKey f.frame.hdr), (∀ d ∈ copiesOf s (copyKey f.frame.hdr), laneIx c.lane ≤ laneIx d.lane)
      ∧ exec (.laneCopyTimeout kind stitch) s = .next (decideOn c s)

/-- An Adezo frame on its way through a repeating node leaves on the other side, and one that failed its FCS leaves with an inverted FCS
and raises a stomp event (R147, R149); a ranging frame, and a pattern frame while the node sends its own, are not repeated (R150, 02 R81).
Where the node's own frame holds that side a data frame is kept for later; where the buffer is occupied, or a pattern frame would wait, it is
dropped and counted (R152, R153). The kept frame goes out 96 bit times after the own frame has ended, and not before, nor on a lane in
maintenance (R152, R191). A foreign frame passes the same way while it may start in the foreign window and fits, and is dropped and counted
else (R150, R181, R182). A MAC control frame is neither acted on, repeated nor counted (R132). At an end port a foreign frame that is too
long, or finds the entry full, is dropped and counted; outside the foreign window one waits, and within it what waits leaves in order (R180,
R182). A foreign window releases what may start in it (R181); pattern I has none (04 R210). -/
def Obligations.FramesAreRepeatedAndForwarded : Prop :=
  (∀ (l : LaneId) (sd : Side) (s : State), exec (.macControlFrame l sd) s = .next s)
  ∧ (∀ (f : RawFrame) (s : State), repeats s f.lane f.side = false ∨ isMacControl f.bytes = true → exec (.frameRepeat f) s = .next s)
  ∧ (∀ (f : RawFrame) (s : State), s.lan.lanes.length = 3 → repeats s f.lane f.side = true → isMacControl f.bytes = false →
    let adezo := isAdezo s f.lane f.bytes
    let o := other f.side
    let x := sideOf s f.lane o
    let own := x.busyOwn && decide (s.tm.clk < x.busyTill)
    let passes := if adezo then decide (kindOf f.bytes ≠ 2 ∧ ¬(kindOf f.bytes = 0 ∧ inOwnPattern s = true))
      else !(sideOf s f.lane f.side).noPeer && mayStart s f.lane s.tm.clk && foreignFits f.bytes
    let waits := decide (¬(adezo = true ∧ kindOf f.bytes = 0))
    (passes = false → adezo = true ∨ (sideOf s f.lane f.side).noPeer = true → exec (.frameRepeat f) s = .next s)
    ∧ (passes = false → adezo = false → (sideOf s f.lane f.side).noPeer = false → exec (.frameRepeat f) s = .next (laneCount f.lane 12 1 s))
    ∧ (passes = true → elasticFull s x = true ∨ (own = true ∧ waits = false) →
      ∃ t, exec (.frameRepeat f) s = .next t ∧ Raised (64 + 16 * laneIx f.lane + 4) t
        ∧ ctrGet t (lanCtr (laneIx f.lane) 9) = min 0xFFFFFFFF (ctrGet s (lanCtr (laneIx f.lane) 9) + 1)
        ∧ Reports { s with reg := t.reg } t)
    ∧ (passes = true → elasticFull s x = false → own = true → waits = true →
      exec (.frameRepeat f) s = .next (modSide f.lane o (fun x => { x with elastic := some (f.bytes, f.fcsOk) }) s))
    ∧ (passes = true → elasticFull s x = false → own = false → ∃ t, exec (.frameRepeat f) s = .next t
      ∧ (if adezo then Out.repeated f.lane o f.bytes f.fcsOk else Out.foreign f.lane o f.bytes f.fcsOk) ∈ t.out
      ∧ (sideOf t f.lane o).busyTill = s.tm.clk + wireUnits s f.lane f.bytes.length
      ∧ (f.fcsOk = false → Raised (64 + 16 * laneIx f.lane + 3) t)))
  ∧ (∀ (l : LaneId) (sd : Side) (s : State), (sideOf s l sd).elastic = none → exec (.heldRepeatSend l sd) s = .next s)
  ∧ (∀ (l : LaneId) (sd : Side) (bytes : List Byte) (ok : Bool) (s : State), s.lan.lanes.length = 3 → (sideOf s l sd).elastic = some (bytes, ok) →
    let u := modSide l sd (fun x => { x with elastic := none }) s
    (s.tm.clk < (sideOf s l sd).busyTill + 12 * byteUnits s l → exec (.heldRepeatSend l sd) s = .next s)
    ∧ ((sideOf s l sd).busyTill + 12 * byteUnits s l ≤ s.tm.clk →
      (laneMaint s l = true → exec (.heldRepeatSend l sd) s = .next u)
      ∧ (laneMaint s l = false → ∃ t, exec (.heldRepeatSend l sd) s = .next t ∧ (sideOf t l sd).elastic = none
        ∧ (isAdezo s l bytes = true ∨ mayStart s l s.tm.clk = true →
          ctrGet t (lanCtr (laneIx l) 8) = min 0xFFFFFFFF (ctrGet s (lanCtr (laneIx l) 8) + 1))
        ∧ (isAdezo s l bytes = true → .repeated l sd bytes ok ∈ t.out ∧ (sideOf t l sd).busyTill = s.tm.clk + wireUnits s l bytes.length)
        ∧ (isAdezo s l bytes = false → mayStart s l s.tm.clk = true →
          .foreign l sd bytes ok ∈ t.out ∧ (sideOf t l sd).busyTill = s.tm.clk + wireUnits s l bytes.length)
        ∧ (isAdezo s l bytes = false → mayStart s l s.tm.clk = false →
          ctrGet t (lanCtr (laneIx l) 12) = min 0xFFFFFFFF (ctrGet s (lanCtr (laneIx l) 12) + 1)))))
  ∧ (∀ (l : LaneId) (sd : Side) (bytes : List Byte) (s : State),
    (endPort s l sd = false ∨ isAdezo s l bytes = true ∨ isMacControl bytes = true → exec (.foreignFrameReceive l sd bytes) s = .next s)
    ∧ (endPort s l sd = true → isAdezo s l bytes = false → isMacControl bytes = false → s.lan.lanes.length = 3 →
      let e := (sideOf s l sd).entry
      let u := modSide l sd (fun x => { x with fport := true }) s
      let w := modSide l sd (fun x => { x with entry := e ++ [bytes] }) u
      (1518 < bytes.length ∨ 4 ≤ e.length ∨ 6144 < (e.map List.length).foldl (· + ·) bytes.length →
        exec (.foreignFrameReceive l sd bytes) s = .next (laneCount l 12 1 u))
      ∧ (bytes.length ≤ 1518 → e.length < 4 → (e.map List.length).foldl (· + ·) bytes.length ≤ 6144 →
        exec (.foreignFrameReceive l sd bytes) s = .next (release l sd 4 w)
        ∧ ((laneAt s l).fwin = false → exec (.foreignFrameReceive l sd bytes) s = .next w)
        ∧ (mayStart s l s.tm.clk = true → (sideOf s l (other sd)).busyTill ≤ s.tm.clk → (sideOf s l (other sd)).link = .up →
          laneMaint s l = false → ∃ t, exec (.foreignFrameReceive l sd bytes) s = .next t
            ∧ ∀ b, (e ++ [bytes]).head? = some b → .foreign l (other sd) b true ∈ t.out))))
  ∧ ∀ (l : LaneId) (s : State),
    (s.pat.cur = 4 ∨ laneMaint s l = true → exec (.foreignWindowStart l) s = .next s)
    ∧ (s.pat.cur ≠ 4 → laneMaint s l = false → s.lan.lanes.length = 3 →
      let u := modLane l (fun x => { x with fwin := true }) s
      (endPort u l .e1 = false → endPort u l .e2 = false → exec (.foreignWindowStart l) s = .next u)
      ∧ ∀ (sd : Side) (b : List Byte) (rest : List (List Byte)), endPort u l sd = true → (sideOf u l sd).entry = b :: rest →
        (sideOf u l (other sd)).busyTill ≤ s.tm.clk → mayStart u l s.tm.clk = true → (sideOf u l (other sd)).link = .up →
        ∃ t, exec (.foreignWindowStart l) s = .next t ∧ .foreign l (other sd) b true ∈ t.out ∧ (laneAt t l).fwin = true)

/-! ### Rows, hoops and stitches (00 R4; 02 R64; 03 R154–R160; 04 R222) -/

/-- A row start counts a row and ends the records of the one before: no foreign window runs, and a node that sends no pattern frame has
launched nothing. A node that heard a CALL enters INAUG there (05 R233), and a master in force sends its REFERENCE with the next RSEQ and
stays master (02 R64, R83). At a row-hoop boundary the hoop counter goes on by one and the row phase is 0; of the staged values of a register
the newest that was written 10 µs before takes effect, a later one is left to the next commit, and under HOLD none applies (04 R222, R223).
An own stitch launches once a row: a data frame takes the next FSEQ of its class, and leaves on each side that is open and free (03 R156,
R160); with no message that fits no number is used; a SPLIT stitch sends one frame per lane (R159); the own control stitch of pattern I sends
its inauguration messages (05 R247). A delayed own frame leaves when its output is free, or is late (03 R154), and none leaves on a lane in
maintenance (R191). The quiet clauses are stated of a node in RUN with SEL 1, and of a hoop with no switch, Cut or SET_ATTR due. -/
def Obligations.RowsHoopsAndStitches : Prop :=
  (∀ s : State, s.dev.st = .off → exec .rowStart s = .next s ∧ exec .hoopBoundary s = .next s)
  ∧ (∀ s : State, s.dev.st ≠ .off →
    (∃ t, exec .rowStart s = .next t ∧ t.tm.rows = s.tm.rows + 1 ∧ ∀ l ∈ t.lan.lanes, l.fwin = false)
    ∧ ∃ t, exec .hoopBoundary s = .next t ∧ t.tm.hoop = s.tm.hoop + 1 ∧ t.tm.rowPh = 0 ∧ t.tm.rowClk = s.tm.clk ∧ t.tm.row = nRow t - 1)
  ∧ (∀ s : State, s.dev.st = .run → s.trn.restartNext = false → s.lan.mute = false → s.tm.sawOther = false →
    (s.trn.enterNext = false → s.tm.master = false → rfld s 0x2000 0 2 = 1 → s.pat.nrowNext = none → ∃ t, exec .rowStart s = .next t
      ∧ t.tm.row = (s.tm.row + 1) % nRow s ∧ t.tm.hoop = s.tm.hoop ∧ t.lan.launched = []
      ∧ (∀ i ∈ s.lan.txq, i.push = false → i ∈ t.lan.txq) ∧ t.dev = s.dev ∧ t.trn = s.trn ∧ t.kee = s.kee ∧ t.pic = s.pic ∧ t.can.ports = s.can.ports
      ∧ t.pat.cur = s.pat.cur ∧ (s.ten.owed = [] → t.home.lines = s.home.lines ∧ t.cc = s.cc))
    ∧ (s.trn.enterNext = true → s.tm.master = false → rfld s 0x2000 0 2 = 1 → ∃ t, exec .rowStart s = .next t ∧ t.dev.st = .inaug
      ∧ t.trn.step = 2 ∧ t.trn.enterNext = false ∧ Raised 208 t ∧ t.pat.cur = 4)
    ∧ (s.trn.enterNext = false → s.tm.master = true → rfld s 0x2000 0 2 ≠ 1 → s.trn.memb ≠ .isolated → s.pat.nrowNext = none →
      (∃ e ∈ rowStitches { s with tm := { s.tm with row := (s.tm.row + 1) % nRow s } }, e.2.stype = 0) →
      ∃ t, exec .rowStart s = .next t ∧ t.tm.master = true ∧ t.tm.rseq = (s.tm.rseq + 1) % 16))
  ∧ (∀ s : State, s.dev.st ≠ .off → s.pat.props = [] → s.home.attrWait = [] → s.trn.cutHoop = none → s.tm.virtNext = false →
    s.dbg.halted = false → ∃ t, exec .hoopBoundary s = .next t ∧ ∀ (off : Nat) (v : Word), tget s.reg.staged off = some v →
      (s.pat.hold = false → 80000 ≤ s.tm.clk - tgetD s.reg.stagedClk off 0 → tget t.reg.staged off = none ∧ regCur t off = v.toNat)
      ∧ (s.pat.hold = false → s.tm.clk - tgetD s.reg.stagedClk off 0 < 80000 → tget t.reg.staged off = some v
        ∧ ∀ e, (tgetD s.reg.earlier off []).find? (fun e => decide (80000 ≤ s.tm.clk - e.2)) = some e → regCur t off = e.1.toNat)
      ∧ (s.pat.hold = true → s.pat.holdClr = none → tget t.reg.staged off = some v ∧ regCur t off = regCur s off))
  ∧ (∀ (n : Nat) (s : State), n ∈ s.lan.launched ∨ stitchAt s n = none → exec (.ownStitchStart n) s = .next s)
  ∧ (∀ (n : Nat) (x : Stitch) (s : State), n ∉ s.lan.launched → stitchAt s n = some x →
    let s1 := { s with lan := { s.lan with launched := s.lan.launched ++ [n] } }
    let u := countStitch (clsOf x.cls) s1
    let k := clsIx (frameCls u x)
    let is := takeFit (frameCap u x (((lanesIn x.lanes).map fun l => capOf x.len (laneFast s l)).foldl min 1472)) (itemsFor u x (frameCls u x))
    let q := s.lan.fseq.getD k 0
    (x.stype ≠ 1 → x.stype ≠ 3 → x.stype ≠ 4 → exec (.ownStitchStart n) s = .next s)
    ∧ (x.stype = 1 ∨ x.stype = 3 →
      (mayLaunch s x = false → exec (.ownStitchStart n) s = .next s)
      ∧ (mayLaunch s x = true → x.lmode = 2 → exec (.ownStitchStart n) s = .next
        (each (lanesIn x.lanes) (fun s' l => dataFrame n x (2 ^ l) (capOf x.len (laneFast s l)) s') u))
      ∧ (mayLaunch s x = true → x.lmode ≠ 2 →
        (is = [] → exec (.ownStitchStart n) s = .next u)
        ∧ (is ≠ [] → s.lan.lanes.length = 3 → ∃ t, exec (.ownStitchStart n) s = .next t
          ∧ t.lan.fseq = s.lan.fseq.set k ((q + 1) % 65536) ∧ n ∈ t.lan.launched
          ∧ ∀ l ∈ lanesIn x.lanes, ∀ sd, sideOpen s (laneOfIx l) sd 1 = true → (sideOf s (laneOfIx l) sd).busyTill ≤ s.tm.clk →
            .frame (laneOfIx l) sd (frameBytes s (laneOfIx l) sd { ownHdr s 1 k n x.lmode with fseq := q } (is.map (finalMsg u))) ∈ t.out)))
    ∧ (x.stype = 4 →
      (s.dev.st ≠ .inaug ∨ x.owner ≠ s.trn.propNode ∨ (timed s || s.tm.coarse) = false ∨ controlMsgs s = [] →
        exec (.ownStitchStart n) s = .next s1)
      ∧ (s.dev.st = .inaug → x.owner = s.trn.propNode → (timed s || s.tm.coarse) = true → controlMsgs s ≠ [] → s.lan.lanes.length = 3 →
        ∃ t, exec (.ownStitchStart n) s = .next t
          ∧ ∀ l ∈ lanesIn x.lanes, ∀ sd, sideOpen s (laneOfIx l) sd 3 = true → (sideOf s (laneOfIx l) sd).busyTill ≤ s.tm.clk →
            .frame (laneOfIx l) sd (frameBytes s (laneOfIx l) sd { ownHdr s 3 3 x.owner 1 with src := x.owner } (controlMsgs s)) ∈ t.out)))
  ∧ (∀ (l : LaneId) (sd : Side) (s : State), (sideOf s l sd).delayed = none → exec (.delayedLaunch l sd) s = .next s)
  ∧ ∀ (l : LaneId) (sd : Side) (bytes : List Byte) (n t0 : Nat) (s : State), (sideOf s l sd).delayed = some (bytes, n, t0) →
    let u := modSide l sd (fun x => { x with delayed := none }) s
    (s.tm.clk < (sideOf s l sd).busyTill → exec (.delayedLaunch l sd) s = .next s)
    ∧ ((sideOf s l sd).busyTill ≤ s.tm.clk →
      (laneMaint s l = true → exec (.delayedLaunch l sd) s = .next u)
      ∧ (laneMaint s l = false → s.tm.clk - t0 ≤ txSlip s l → ∃ t, exec (.delayedLaunch l sd) s = .next t ∧ .frame l sd bytes ∈ t.out)
      ∧ (laneMaint s l = false → txSlip s l < s.tm.clk - t0 → ∃ t, exec (.delayedLaunch l sd) s = .next t
        ∧ Raised (64 + 16 * laneIx l + 5) t ∧ Reports { u with reg := t.reg } t))

/-! ### Inauguration (05 R229–R283) -/

/-- A CALL is noted with its caller. It makes a node in RUN enter INAUG at the next row start, with pending proposals cancelled (R233; 04
R221), but for one that waits out its isolation (log 60). In INAUG a repetition changes nothing more, and another begins the inauguration
again at the next row: it is counted but for a joining node's and within a restart already counted, and the fourth counted isolates the node
(R281, R282; log 63). A wave is kept for its side, and the lane's list once it is complete (R240–R242). CLAIMs and DIGESTs are recorded, and
with all of them in the outcome is computed (R247–R254). The master that heard every CONFIRM sends AGREED (R255); AGREED freezes the node, and
ends Agreement where it names the node's OUTD; any other node goes back to Discovery (R238, R255, R256). Drain ends when every node is drained
or at its limit (R258, R259); a STATUS CUT sets the hoop of the Cut (R259); STATUS RESUME enters RUN (R278). Without an agreement after its
attempts the inauguration restarts (R255); an isolated node calls again after RETRY seconds (R282). -/
def Obligations.InaugurationRuns : Prop :=
  (∀ (fr : Bool) (m : InaugMsg) (s : State),
    let noted := { s with trn := { s.trn with callers := tset s.trn.callers (8 * m.hk + m.cause) s.tm.rows } }
    let c := if fr then 0 else m.cause
    let counts := decide (m.cause ≠ 2) && !s.trn.restartCounted
    (s.dev.st = .run → s.trn.isoRestarts = false → ∃ t, exec (.call fr m) s = .next t ∧ t.trn.enterNext = true ∧ t.trn.step = 1
      ∧ t.pat.props = [] ∧ t.pat.switchAt = none ∧ t.dev = s.dev ∧ t.trn.cause = s.trn.call.getD c ∧ t.trn.memb = s.trn.memb)
    ∧ (s.dev.st = .run ∧ s.trn.isoRestarts = true ∨ s.dev.st ≠ .run ∧ s.dev.st ≠ .inaug ∨ s.dev.st = .inaug ∧ repeated s fr m = true →
      exec (.call fr m) s = .next noted)
    ∧ (s.dev.st = .inaug → repeated s fr m = false →
      (counts = false ∨ s.trn.restarts < 3 → ∃ t, exec (.call fr m) s = .next t ∧ t.trn.restartNext = true
        ∧ t.trn.restartFreeze = (s.trn.restartFreeze || freezesAtEntry c) ∧ t.trn.restarts = s.trn.restarts + b2n counts ∧ t.dev = s.dev)
      ∧ (counts = true → 3 ≤ s.trn.restarts → ∃ t, exec (.call fr m) s = .next t ∧ t.dev.st = .run ∧ t.trn.memb = .isolated
        ∧ t.trn.node = 0 ∧ t.trn.isoRestarts = true ∧ Raised 211 t)))
  ∧ (∀ (l : LaneId) (sd : Side) (ms : List DiscMsg) (s : State), s.lan.lanes.length = 3 →
    let u := modSide l sd (fun x => { x with wave := some ms }) s
    (s.dev.st ≠ .inaug → exec (.disc l sd ms) s = .next s)
    ∧ (s.dev.st = .inaug → addsEntry s = false → exec (.disc l sd ms) s = .next u)
    ∧ (s.dev.st = .inaug → addsEntry s = true → laneList s (laneAt u l) = none → exec (.disc l sd ms) s = .next u)
    ∧ ∀ es, s.dev.st = .inaug → addsEntry s = true → laneList s (laneAt u l) = some es →
      exec (.disc l sd ms) s = .next { u with trn := { s.trn with lists := tset s.trn.lists (laneIx l) es } })
  ∧ (∀ (src : Nat) (m : InaugMsg) (d : DigestMsg) (s : State),
    let uc := modClaim src (fun r => { r with claim := some m }) s
    let ud := modClaim src (fun r => if d.part then { r with dig1 := some d } else { r with dig0 := some d }) s
    let uf := modClaim src (fun r => { r with confirm := some m.f1 }) s
    let ur := modClaim src (fun r => { r with drained := true }) s
    (inaugOpen s = false → exec (.inaugClaim src m) s = .next s ∧ exec (.digest src d) s = .next s ∧ exec (.confirm src m) s = .next s
      ∧ exec (.drained src m) s = .next s)
    ∧ (inaugOpen s = true → ¬(s.trn.step = 3 ∧ allHeard uc = true) → exec (.inaugClaim src m) s = .next uc)
    ∧ (inaugOpen s = true → s.trn.step = 3 → allHeard uc = true →
      exec (.inaugClaim src m) s = .next { uc with trn := { uc.trn with outcome := some (outcomeOf uc) } })
    ∧ (inaugOpen s = true → ¬(s.trn.step = 3 ∧ allHeard ud = true) → exec (.digest src d) s = .next ud)
    ∧ (inaugOpen s = true → s.trn.step = 3 → allHeard ud = true →
      exec (.digest src d) s = .next { ud with trn := { ud.trn with outcome := some (outcomeOf ud) } })
    ∧ (inaugOpen s = true → ¬(s.tm.master = true ∧ s.trn.step = 3 ∧ s.trn.confirmRow = true ∧ allConfirm uf = true) →
      exec (.confirm src m) s = .next uf)
    ∧ (inaugOpen s = true → s.tm.master = true → s.trn.step = 3 → s.trn.confirmRow = true → allConfirm uf = true →
      exec (.confirm src m) s = .next { uf with trn := { uf.trn with sendAgreed := true } })
    ∧ (m.step ≠ 3 → exec (.drained src m) s = .next s)
    ∧ (inaugOpen s = true → m.step = 3 → ¬(s.tm.master = true ∧ s.trn.step = 4 ∧ allDrained ur = true) → exec (.drained src m) s = .next ur)
    ∧ (inaugOpen s = true → m.step = 3 → s.tm.master = true → s.trn.step = 4 → allDrained ur = true →
      exec (.drained src m) s = .next { ur with trn := { ur.trn with drainEnd := true, step := 5 } }))
  ∧ (∀ (m : InaugMsg) (s : State),
    (s.dev.st ≠ .inaug ∨ (s.trn.step ≠ 2 ∧ s.trn.step ≠ 3) → exec (.statusAgreed m) s = .next s)
    ∧ (s.dev.st = .inaug → s.trn.step = 3 → ownOutd s = some m.f1 → ∃ t, exec (.statusAgreed m) s = .next t ∧ t.trn.frozen = true
      ∧ t.trn.step = 4 ∧ t.trn.agreed = some m.f1 ∧ t = { s with trn := t.trn })
    ∧ (s.dev.st = .inaug → s.trn.step = 2 ∨ s.trn.step = 3 ∧ ownOutd s ≠ some m.f1 → ∃ t, exec (.statusAgreed m) s = .next t
      ∧ t.trn.frozen = true ∧ t.trn.restartNext = (s.trn.restartNext || s.trn.step == 3)
      ∧ t.trn.lagging = (s.trn.lagging || !s.trn.restartNext) ∧ t.trn.agreed = s.trn.agreed ∧ t = { s with trn := t.trn })
    ∧ (s.dev.st = .inaug → s.trn.agreed = some m.f1 → s.trn.step = 4 ∨ s.trn.step = 5 →
      exec (.statusCut m) s = .next { s with trn := { s.trn with cutHoop := some (cutHoopOf m), step := 5 } })
    ∧ (s.dev.st ≠ .inaug ∨ s.trn.agreed ≠ some m.f1 ∨ (s.trn.step ≠ 4 ∧ s.trn.step ≠ 5) → exec (.statusCut m) s = .next s)
    ∧ (s.dev.st ≠ .inaug ∨ s.trn.agreed ≠ some m.f1 ∨ s.trn.step ≠ 6 → exec (.statusResume m) s = .next s)
    ∧ (s.dev.st = .inaug → s.trn.step = 6 → s.trn.agreed = some m.f1 → ∃ t, exec (.statusResume m) s = .next t ∧ t.dev.st = .run
      ∧ t.trn.frozen = false ∧ t.trn.restarts = 0 ∧ Raised 209 t
      ∧ (s.trn.propIso = 0 → s.trn.node ≠ 0 → t.trn.memb = if s.pat.cur < 4 ∨ s.trn.noPat = true then .member else .listenOnly)
      ∧ (s.trn.propIso ≠ 0 ∨ s.trn.node = 0 → t.trn.memb = .isolated ∧ t.trn.node = 0)))
  ∧ ∀ s : State,
    (s.dev.st = .inaug → s.trn.step = 3 → s.trn.agreed = none → s.trn.confirmRow = true → maxAttempts s ≤ s.trn.attempts →
      (s.trn.restartCounted = true ∨ s.trn.restarts < 3 → ∃ t, exec .agreementTimeout s = .next t ∧ t.trn.restartNext = true
        ∧ t.trn.restarts = s.trn.restarts + b2n (!s.trn.restartCounted) ∧ t.dev = s.dev)
      ∧ (s.trn.restartCounted = false → 3 ≤ s.trn.restarts → ∃ t, exec .agreementTimeout s = .next t ∧ t.dev.st = .run
        ∧ t.trn.memb = .isolated ∧ t.trn.isoRestarts = true ∧ Raised 211 t))
    ∧ (s.dev.st ≠ .inaug ∨ s.trn.step ≠ 3 ∨ s.trn.agreed ≠ none ∨ s.trn.confirmRow = false ∨ s.trn.attempts < maxAttempts s →
      exec .agreementTimeout s = .next s)
    ∧ (s.dev.st = .inaug → s.tm.master = true → s.trn.step = 4 → s.trn.frozen = true → (if bandFast s then 15 else 3) ≤ s.tm.rows - s.trn.freezeRow →
      exec .drainLimit s = .next { s with trn := { s.trn with drainEnd := true, step := 5 } })
    ∧ (s.dev.st ≠ .inaug ∨ s.tm.master = false ∨ s.trn.step ≠ 4 ∨ s.trn.frozen = false
        ∨ s.tm.rows - s.trn.freezeRow < (if bandFast s then 15 else 3) → exec .drainLimit s = .next s)
    ∧ (s.trn.isoRestarts = true → rfld s 0x7000 8 8 * 8000000000 ≤ s.tm.clk - s.trn.isoClk →
      ∃ t, exec .isolationRetry s = .next t ∧ t.trn.isoRestarts = false ∧ t.trn.noEntry = false ∧ t.trn.restarts = 0
        ∧ (s.dev.st = .run → t.trn.call = some (s.trn.call.getD 2)))
    ∧ (s.trn.isoRestarts = false ∨ s.tm.clk - s.trn.isoClk < rfld s 0x7000 8 8 * 8000000000 → exec .isolationRetry s = .next s)

/-! ### Pattern switching (04 R216–R223) -/

/-- A node of the train that hears a PROPOSE records it and answers it: ACK where its checks pass, NACK with the reason where one fails
(R217, R218); where it owes no answer it records the proposal alone. ACKs and NACKs are recorded with their sender (R217, R221). GO for a
pattern sets the switch at the start of hoop n + 4, and one for a role none; a CANCEL is noted with its reason and subject, and changes no switch
(R217). A node that is not in
RUN, or not of the train, takes none of them. The steward's write of PAT_STAGE.HOLD sets the hold at once; clearing it is noted with its
instant (R223). -/
def Obligations.PatternSwitchMessages : Prop :=
  (∀ (src : Nat) (m : PatMsg) (s : State), s.dev.st ≠ .run ∨ s.trn.node = 0 →
    exec (.patSwitchPropose src m) s = .next s ∧ exec (.patSwitchAck src m) s = .next s ∧ exec (.patSwitchNack src m) s = .next s
      ∧ exec (.patSwitchGo m) s = .next s ∧ exec (.patSwitchCancel m) s = .next s)
  ∧ (∀ (src : Nat) (m : PatMsg) (s : State), s.dev.st = .run → s.trn.node ≠ 0 → s.pat.props.any (samePrp m) = true →
    exec (.patSwitchPropose src m) s = .next s)
  ∧ (∀ (src : Nat) (m : PatMsg) (s : State), s.dev.st = .run → s.trn.node ≠ 0 → s.pat.props.any (samePrp m) = false →
    (prpAnswer s m = none → exec (.patSwitchPropose src m) s = .next (putPrp (prpOf s { m with proposer := src }) s))
    ∧ ∀ r, prpAnswer s m = some r → ∃ t, exec (.patSwitchPropose src m) s = .next t
      ∧ t.lan.txq = s.lan.txq ++ [{ msg := .patSwitch { m with step := if r = 0 then 1 else 2, reason := r, subject := 0 }, cls := .c0, use := .rsp
                                    level := 0 }]
      ∧ (∃ p ∈ t.pat.props, p.target = m.target ∧ p.hoop = m.phoop ∧ (r = 0 → hasNode p.acks s.trn.node = true ∨ 62 < s.trn.node)
        ∧ (r ≠ 0 → p.nack.isSome = true))
      ∧ t = { s with lan := t.lan, pat := { s.pat with props := t.pat.props } })
  ∧ (∀ (src : Nat) (m : PatMsg) (s : State), s.dev.st = .run → s.trn.node ≠ 0 →
    exec (.patSwitchAck src m) s = .next (putPrp { prpOf s m with acks := (prpOf s m).acks ||| nodeBit src } s)
    ∧ (∃ t, exec (.patSwitchNack src m) s = .next t ∧ t = { s with pat := { s.pat with props := t.pat.props } }
      ∧ ∃ p ∈ t.pat.props, p.target = (prpOf s m).target ∧ p.hoop = (prpOf s m).hoop
        ∧ ((prpOf s m).nack = none → p.nack = some (src, max 1 m.reason))
        ∧ ∀ j q, (prpOf s m).nack = some (j, q) → p.nack = if src < j then some (src, max 1 m.reason) else some (j, q)))
  ∧ (∀ (m : PatMsg) (s : State), s.dev.st = .run → s.trn.node ≠ 0 →
    (∃ t, exec (.patSwitchGo m) s = .next t ∧ t.pat.lastVerdict = 3 ∧ t.pat.heardVerdict = true ∧ t.pat.lastTarget = (prpOf s m).target % 4
      ∧ ((prpOf s m).target < 4 → t.pat.switchAt = some ((prpOf s m).target, (prpOf s m).hoop + 4) ∧ t.pat.swHoop = (prpOf s m).hoop + 4)
      ∧ (4 ≤ (prpOf s m).target → t.pat.switchAt = s.pat.switchAt) ∧ t.pat.cur = s.pat.cur ∧ t = { s with pat := t.pat })
    ∧ ∃ t, exec (.patSwitchCancel m) s = .next t ∧ t.pat.lastVerdict = 4 ∧ t.pat.lastReason = m.reason ∧ t.pat.lastSubject = m.subject
      ∧ t.pat.switchAt = s.pat.switchAt ∧ t.pat.cur = s.pat.cur ∧ t = { s with pat := t.pat })
  ∧ ∀ (w : Who) (v : Word) (s : State),
    (stewardly w = false ∨ reachable s = false → exec (.patStageHold w v) s = .next s)
    ∧ (stewardly w = true → reachable s = true →
      (v.getLsbD 0 = true → exec (.patStageHold w v) s = .next { s with pat := { s.pat with hold := true, holdClr := none } })
      ∧ (v.getLsbD 0 = false → s.pat.hold = true → s.pat.holdClr = none →
        exec (.patStageHold w v) s = .next { s with pat := { s.pat with holdClr := some s.tm.clk } })
      ∧ (v.getLsbD 0 = false → s.pat.hold = false ∨ s.pat.holdClr.isSome = true → exec (.patStageHold w v) s = .next s))

/-! ### Reset, and what every step keeps -/

/-- After reset (01 R42): START has begun; every register reads the reset value of its table, nothing is staged, and every RC counter is 0
(03 R194); no injection is armed (13 R642); the car-bus ports are in CONF with STBY high, every object off and no binding (11 R596); the
GP pins are parked and the CAN pins have their primary function; the lanes are bypassed; the node is unnumbered, no job and no command waits;
and what every step keeps holds (`NodeInv`). The keep store's contents are the model's choice (log 22), and what no rule gives is that of log 1. -/
def Obligations.ResetState : Prop :=
  State.reset.dev.st = .start ∧ (∀ off, regCur State.reset off = (word (regReset off)).toNat) ∧ State.reset.reg.staged = []
  ∧ (∀ off, ctrGet State.reset off = 0) ∧ State.reset.int.inj = [] ∧ State.reset.can.binds = []
  ∧ (∀ p ∈ State.reset.can.ports, p.st = .conf ∧ p.mem = [] ∧ p.txpend = 0) ∧ State.reset.dev.canStby = [true, true]
  ∧ (∀ k, k < 24 → pinFunc State.reset k = 0) ∧ (∀ k, 24 ≤ k → k < 30 → pinFunc State.reset k = 1)
  ∧ (∀ l ∈ State.reset.lan.lanes, l.byp = false) ∧ State.reset.trn.memb = .unnumbered ∧ State.reset.trn.node = 0
  ∧ State.reset.ten.bobs = [] ∧ State.reset.pending = [] ∧ NodeInv State.reset

/-- Every step keeps what `NodeInv` says, from every state that meets it: the keep store, the ring RAM, the push windows and the object memories of both
ports stay in their canonical form, the node keeps its tenants, lanes, ports and pattern slots, and the events of one instant have all been
routed when it is over (12 R602). A step takes one command from the queue, and no command puts one into it (log 4). -/
def Obligations.EveryStepKeepsTheInvariant : Prop :=
  ∀ s t : State, NodeInv s → step s = .next t → NodeInv t ∧ t.pending = s.pending.tail

/-- A frame that the node sends reads back as it was sent: for every header and all messages whose fields lie within their widths, the
receiver reads the header, with lane, side, MLEN and MCOUNT of the frame, and the same messages in order; nothing in it counts as an
unknown type, its end-to-end CRC passes, and it is an Adezo frame of its lane (03 R135–R142, R146, R173; 02 R83, R84; 04 R216; 05 R236,
R240, R248). -/
def Obligations.SentFramesReadBack : Prop :=
  ∀ (s : State) (l : LaneId) (sd : Side) (h : FrameHdr) (ms : List Msg), HdrOk h → (∀ m ∈ ms, MsgOk h.cls m) → ms.length < 256 →
    (areaOf ms).length < 65536 →
    readFrame (frameBytes s l sd h ms)
      = ({ hdr := { h with lane := l, side := sd, mlen := (areaOf ms).length, mcount := ms.length }, msgs := ms }, false)
    ∧ crcOk ((frameBytes s l sd h ms).drop 14) = true ∧ isAdezo s l (frameBytes s l sd h ms) = true

/-- The coherence engine's frame: a line message, or a line command in its bobbin, changes line storage, the directory, copies, leases,
bobbins, queued messages, transfers in progress, bindings and rings, and nothing else of the node (06 R300; 07 R343; 10 R503). -/
def Obligations.LineWorkLeavesTheRest : Prop :=
  (∀ (r : Rx) (s t : State) (c : Instr),
    c ∈ [Instr.rdShared r, .rdOwn r, .ownNodata r, .wrPublish r, .wrMasked r, .atomicReq r, .lockReq r, .unlockReq r, .subReq r, .unsubReq r,
      .writeback r, .evictClean r, .readHome r, .dataShared r, .dataOwn r] ++ [.grantOwn r, .update r, .invalidateMsg r, .recall r, .ack r,
      .nakRetry r, .atomicResult r, .leaseGrant r, .leaseBreak r, .invAck r, .recallData r, .recallNodata r, .migLine r, .migDir r, .migDone r] →
    exec c s = .next t → Works s t)
  ∧ ∀ (b : Nat) (s t : State) (c : Instr),
    c ∈ [Instr.read b, .readFresh b, .readBlock b, .write b, .writeMasked b, .writeBlock b, .zeroLine b, .claim b, .release b, .atomic b,
      .lock b, .unlock b, .subscribe b, .unsubscribe b, .flush b, .invalidate b, .clean b, .pin b, .unpin b, .prefetch b] →
    exec c s = .next t → Works s t
end

