-- ==== Sys2Proof/Laws/Memory.lean ====
section
/-! SUPPORT. Laws of byte memories and sparse tables: a read after a write, and that every memory operation keeps the canonical
form. -/

namespace Sys2Proof.Machine

/-- Every address a memory lists is at least `k`. -/
def memFrom (k : Nat) (m : Mem) : Prop := ∀ c ∈ m, k ≤ c.1

theorem wf_cons (a : Nat) (b : Byte) (m : Mem) :
    Memory.wf ((a, b) :: m) = true ↔ b ≠ 0 ∧ memFrom (a + 1) m ∧ Memory.wf m = true := by
  induction m generalizing a b with
  | nil => simp [Memory.wf, memFrom]
  | cons c m ih =>
    have h := ih c.1 c.2
    constructor
    · intro hw
      simp only [Memory.wf, Bool.and_eq_true, bne_iff_ne, ne_eq, decide_eq_true_eq] at hw
      obtain ⟨⟨h1, h2⟩, h3⟩ := hw
      have h3' : Memory.wf ((c.1, c.2) :: m) = true := by simpa [Memory.wf] using h3
      obtain ⟨h4, h5, h6⟩ := h.mp h3'
      refine ⟨h1, ?_, h3'⟩
      intro d hd
      rcases List.mem_cons.mp hd with rfl | hd
      · omega
      · have := h5 d hd
        omega
    · rintro ⟨h1, h2, h3⟩
      have h4 := h2 c (by simp)
      simp only [Memory.wf, Bool.and_eq_true, bne_iff_ne, ne_eq, decide_eq_true_eq]
      refine ⟨⟨h1, by omega⟩, ?_⟩
      simpa [Memory.wf] using h3

theorem memFrom_memPut {k a : Nat} {b : Byte} {m : Mem} (h : memFrom k m) (ha : k ≤ a) : memFrom k (memPut m a b) := by
  induction m with
  | nil => unfold memPut; split <;> simp [memFrom, ha]
  | cons c m ih =>
    have hm : memFrom k m := fun d hd => h d (List.mem_cons_of_mem _ hd)
    have hc : k ≤ c.1 := h c (by simp)
    unfold memPut
    repeat' split
    all_goals
      intro d hd
      try simp only [List.mem_cons] at hd
      first
        | (rcases hd with rfl | rfl | hd <;> first | exact ha | exact hc | exact hm d hd)
        | (rcases hd with rfl | hd <;> first | exact ha | exact hc | exact hm d hd | exact ih hm d hd)
        | exact hm d hd

theorem memPut_wf {m : Mem} (h : Memory.wf m = true) (a : Nat) (b : Byte) : Memory.wf (memPut m a b) = true := by
  induction m with
  | nil => unfold memPut; split <;> simp_all [Memory.wf]
  | cons c m ih =>
    obtain ⟨h1, h2, h3⟩ := (wf_cons c.1 c.2 m).mp h
    unfold memPut
    repeat' split
    · exact h
    · rename_i hlt hb
      refine (wf_cons a b _).mpr ⟨hb, ?_, h⟩
      intro d hd
      rcases List.mem_cons.mp hd with rfl | hd
      · omega
      · have := h2 d hd; omega
    · exact h3
    · rename_i he hb
      subst he
      exact (wf_cons c.1 b m).mpr ⟨hb, h2, h3⟩
    · refine (wf_cons c.1 c.2 _).mpr ⟨h1, memFrom_memPut h2 (by omega), ih h3⟩

theorem memPuts_wf {m : Mem} (h : Memory.wf m = true) (a : Nat) (bs : List Byte) : Memory.wf (memPuts m a bs) = true := by
  induction bs generalizing m a with
  | nil => exact h
  | cons b bs ih => exact ih (memPut_wf h a b) (a + 1)

theorem memGet_of_memFrom {k a : Nat} {m : Mem} (h : memFrom k m) (ha : a < k) : memGet m a = 0 := by
  induction m with
  | nil => rfl
  | cons c m ih =>
    have hc := h c (by simp)
    have hne : (c.1 == a) = false := by simp; omega
    simp only [memGet, hne]
    exact ih fun d hd => h d (List.mem_cons_of_mem _ hd)

theorem memGet_memPut_same {m : Mem} (h : Memory.wf m = true) (a : Nat) (b : Byte) : memGet (memPut m a b) a = b := by
  induction m with
  | nil => unfold memPut; split <;> simp_all [memGet]
  | cons c m ih =>
    obtain ⟨h1, h2, h3⟩ := (wf_cons c.1 c.2 m).mp h
    unfold memPut
    repeat' split
    · rename_i hlt hb
      subst hb
      refine memGet_of_memFrom (k := a + 1) ?_ (by omega)
      intro d hd
      rcases List.mem_cons.mp hd with rfl | hd
      · omega
      · have := h2 d hd; omega
    · simp [memGet]
    · rename_i he hb
      subst he hb
      exact memGet_of_memFrom h2 (by omega)
    · simp [memGet]
    · have hne : (c.1 == a) = false := by simp; omega
      simp only [memGet, hne]
      exact ih h3

theorem memGet_memPut_other {m : Mem} (h : Memory.wf m = true) {a x : Nat} (hx : x ≠ a) (b : Byte) :
    memGet (memPut m a b) x = memGet m x := by
  induction m with
  | nil =>
    unfold memPut
    split <;> simp [memGet]
    intro he; omega
  | cons c m ih =>
    obtain ⟨h1, h2, h3⟩ := (wf_cons c.1 c.2 m).mp h
    have hax : (a == x) = false := by simp; omega
    unfold memPut
    repeat' split
    · rfl
    · simp [memGet, hax]
    · rename_i he hb
      subst he
      simp [memGet, hax]
    · rename_i he hb
      subst he
      simp [memGet, hax]
    · simp only [memGet]
      split
      · rfl
      · exact ih h3

theorem memGet_memPuts_other {m : Mem} (h : Memory.wf m = true) {a x : Nat} {bs : List Byte} (hx : x < a ∨ a + bs.length ≤ x) :
    memGet (memPuts m a bs) x = memGet m x := by
  induction bs generalizing m a with
  | nil => rfl
  | cons b bs ih =>
    simp only [List.length_cons] at hx
    rw [memPuts, ih (memPut_wf h a b) (by omega), memGet_memPut_other h (by omega)]

theorem memGet_memPuts_same {m : Mem} (h : Memory.wf m = true) {a i : Nat} {bs : List Byte} (hi : i < bs.length) :
    memGet (memPuts m a bs) (a + i) = bs.getD i 0 := by
  induction bs generalizing m a i with
  | nil => simp at hi
  | cons b bs ih =>
    cases i with
    | zero =>
      rw [memPuts, memGet_memPuts_other (memPut_wf h a b) (by omega)]
      simpa using memGet_memPut_same h a b
    | succ i =>
      have hi' : i < bs.length := by simpa using hi
      have := ih (memPut_wf h a b) (a := a + 1) hi'
      rw [memPuts, show a + (i + 1) = a + 1 + i by omega, this]
      simp

@[simp] theorem tget_tset_same {α : Type} (t : Table α) (k : Nat) (v : α) : tget (tset t k v) k = some v := by
  induction t with
  | nil => simp [tset, tget]
  | cons e t ih =>
    unfold tset
    repeat' split
    · simp [tget]
    · simp [tget]
    · rename_i h1 h2
      simp only [tget, h2]
      exact ih

theorem tget_tset_other {α : Type} (t : Table α) {k x : Nat} (hx : x ≠ k) (v : α) : tget (tset t k v) x = tget t x := by
  have hk : (k == x) = false := by simp; omega
  induction t with
  | nil => simp [tset, tget, hk]
  | cons e t ih =>
    unfold tset
    repeat' split
    · simp [tget, hk]
    · rename_i h1 h2
      have he : e.1 = k := by simpa using h2
      simp [tget, he, hk]
    · simp only [tget]
      split
      · rfl
      · exact ih

@[simp] theorem tget_tdel_same {α : Type} (t : Table α) (k : Nat) : tget (tdel t k) k = none := by
  induction t with
  | nil => rfl
  | cons e t ih =>
    by_cases h : e.1 = k
    · simpa [tdel, h] using ih
    · simpa [tdel, h, tget] using ih

theorem tget_tdel_other {α : Type} (t : Table α) {k x : Nat} (hx : x ≠ k) : tget (tdel t k) x = tget t x := by
  induction t with
  | nil => rfl
  | cons e t ih =>
    by_cases h : e.1 = k
    · have hkx : ¬ k = x := fun e => hx e.symm
      simpa [tdel, h, tget, hkx] using ih
    · by_cases hj : e.1 = x
      · have h' : x ≠ k := hx
        simp [tdel, tget, hj, h']
      · simpa [tdel, h, tget, hj] using ih

/-- The entry changed. -/
@[simp] theorem tget_tmod_same {α : Type} (t : Table α) (k : Nat) (f : α → α) : tget (tmod t k f) k = (tget t k).map f := by
  unfold tmod
  split
  · simp [*]
  · rw [tget_tset_same, ‹tget t k = _›]; rfl

/-- Every other entry. -/
theorem tget_tmod_other {α : Type} (t : Table α) {k x : Nat} (hx : x ≠ k) (f : α → α) : tget (tmod t k f) x = tget t x := by
  unfold tmod
  split
  · rfl
  · exact tget_tset_other t hx _

/-! ### CRCs -/

/-- A CRC over bytes is the fold of its step. -/
theorem crcOver_eq_foldl (step : Nat → Byte → Nat) (c : Nat) (bs : List Byte) : crcOver step c bs = bs.foldl step c := by
  induction bs generalizing c with
  | nil => rfl
  | cons b bs ih =>
    simp only [crcOver, List.foldl_cons, ih]
    split <;> simp_all

theorem crcBit_lt {poly c : Nat} (hp : poly < 2 ^ 32) (hc : c < 2 ^ 32) : crcBit poly c < 2 ^ 32 := by
  unfold crcBit
  split
  · exact Nat.xor_lt_two_pow (by omega) hp
  · omega

theorem crcByte_lt {poly c : Nat} (hp : poly < 2 ^ 32) (hc : c < 2 ^ 32) (b : Byte) : crcByte poly c b < 2 ^ 32 := by
  have hb : b.toNat < 2 ^ 32 := Nat.lt_trans b.isLt (by norm_num)
  exact crcBit_lt hp (crcBit_lt hp (crcBit_lt hp (crcBit_lt hp (crcBit_lt hp (crcBit_lt hp (crcBit_lt hp (crcBit_lt hp
    (Nat.xor_lt_two_pow hc hb))))))))

/-- A CRC-32 has 32 bits. -/
theorem crc32_lt (bs : List Byte) : crc32 bs < 2 ^ 32 := by
  have h : ∀ (l : List Byte) (c : Nat), c < 2 ^ 32 → l.foldl (crcByte 0xEDB88320) c < 2 ^ 32 := by
    intro l
    induction l with
    | nil => exact fun c hc => hc
    | cons b l ih => exact fun c hc => ih _ (crcByte_lt (by norm_num) hc b)
  unfold crc32
  rw [crcOver_eq_foldl]
  exact Nat.xor_lt_two_pow (h bs _ (by norm_num)) (by norm_num)

end Sys2Proof.Machine
end

