-- ==== Sys2Proof/Laws/Reports.lean ====
section
/-! SUPPORT. What raising an event, counting, and writing a ring entry can change: `Reports` for each reporting operation. -/

namespace Sys2Proof

open Machine

theorem TenReports.rfl' (a : Ten) : TenReports a a := rfl

theorem TenReports.trans' {a b c : Ten} (h1 : TenReports a b) (h2 : TenReports b c) : TenReports a c := by
  unfold TenReports at *
  rw [h2, h1]

theorem Reports.refl (s : State) : Reports s s where
  dev := rfl
  cur := rfl
  staged := rfl
  stagedClk := rfl
  tm := rfl
  zx := rfl
  pic := rfl
  lan := rfl
  pat := rfl
  trn := rfl
  home := rfl
  heldLeases := rfl
  cc := rfl
  kee := rfl
  tens := List.forall₂_same.mpr fun _ _ => TenReports.rfl' _
  ten := rfl
  ram := id
  can := rfl
  pend := fun _ h => h
  hold := id
  buf := rfl
  out := List.suffix_rfl
  dbg := rfl
  int := rfl
  pending := rfl

theorem forall₂_trans {l m n : List Ten} (h1 : List.Forall₂ TenReports l m) (h2 : List.Forall₂ TenReports m n) :
    List.Forall₂ TenReports l n := by
  induction h1 generalizing n with
  | nil => exact h2
  | cons h _ ih =>
    cases h2 with
    | cons h' t' => exact .cons (h.trans' h') (ih t')

theorem Reports.trans {s t u : State} (h1 : Reports s t) (h2 : Reports t u) : Reports s u where
  dev := h2.dev.trans h1.dev
  cur := h2.cur.trans h1.cur
  staged := h2.staged.trans h1.staged
  stagedClk := h2.stagedClk.trans h1.stagedClk
  tm := h2.tm.trans h1.tm
  zx := h2.zx.trans h1.zx
  pic := h2.pic.trans h1.pic
  lan := h2.lan.trans h1.lan
  pat := h2.pat.trans h1.pat
  trn := h2.trn.trans h1.trn
  home := h2.home.trans h1.home
  heldLeases := h2.heldLeases.trans h1.heldLeases
  cc := h2.cc.trans h1.cc
  kee := h2.kee.trans h1.kee
  tens := forall₂_trans h1.tens h2.tens
  ten := by rw [h2.ten, h1.ten]
  ram := fun h => h2.ram (h1.ram h)
  can := h2.can.trans h1.can
  pend := fun e h => h2.pend e (h1.pend e h)
  hold := fun h => h2.hold (h1.hold h)
  buf := h2.buf.trans h1.buf
  out := h1.out.trans h2.out
  dbg := h2.dbg.trans h1.dbg
  int := h2.int.trans h1.int
  pending := h2.pending.trans h1.pending

theorem tens_same (l : List Ten) : List.Forall₂ TenReports l l := List.forall₂_same.mpr fun _ _ => TenReports.rfl' _

theorem tens_modify (l : List Ten) (n : Nat) (f : Ten → Ten) (hf : ∀ a, TenReports a (f a)) :
    List.Forall₂ TenReports l (l.modify n f) := by
  induction l generalizing n with
  | nil => simp
  | cons a l ih =>
    cases n with
    | zero => exact .cons (hf a) (tens_same l)
    | succ n => exact .cons (TenReports.rfl' a) (ih n)

theorem count_reports (off n : Nat) (s : State) : Reports s (count off n s) := { Reports.refl s with }

theorem modTen_reports (n : Nat) (f : Ten → Ten) (hf : ∀ a, TenReports a (f a)) (s : State) : Reports s (modTen n f s) :=
  { Reports.refl s with tens := tens_modify _ n f hf, ten := rfl }

theorem hostOut_reports (o : Out) (s : State) : Reports s (hostOut o s) := by
  unfold hostOut
  split
  · exact { Reports.refl s with ten := rfl }
  · exact { Reports.refl s with out := List.suffix_cons _ _ }

theorem foldl_ram_wf (bs : List Byte) (f : Nat → Nat) (p : Mem × Nat) (h : Memory.wf p.1 = true) :
    Memory.wf (bs.foldl (fun (p : Mem × Nat) b => (memPut p.1 (f p.2) b, p.2 + 1)) p).1 = true := by
  induction bs generalizing p with
  | nil => exact h
  | cons b bs ih => exact ih _ (memPut_wf h _ b)

theorem tenStore_reports (n a : Nat) (bs : List Byte) (s : State) : Reports s (tenStore n a bs s) := by
  unfold tenStore
  split
  · exact { Reports.refl s with ram := fun h => foldl_ram_wf bs (fun i => (n - 4) * 0x4000 + i % 0x4000) _ h, ten := rfl }
  · exact hostOut_reports _ s

theorem pmcAdd_reports (i n : Nat) (s : State) : Reports s (pmcAdd i n s).1 := { Reports.refl s with }

/-- An operation that only reports, applied over a list, only reports. -/
theorem foldl_reports {α : Type} (l : List α) (f : State → α → State) (h : ∀ s a, Reports s (f s a)) (s : State) :
    Reports s (l.foldl f s) := by
  induction l generalizing s with
  | nil => exact Reports.refl s
  | cons a l ih => exact (h s a).trans (ih _)

/-- A way to raise events that only reports. -/
def RaiseReports (r : Raise) : Prop := ∀ e d s, Reports s (r e d s)

theorem perfWith_reports {r : Raise} (hr : RaiseReports r) (e n : Nat) (ten : Option Nat) (s : State) :
    Reports s (perfWith r e n ten s) := by
  unfold perfWith
  split
  · exact Reports.refl s
  · refine foldl_reports _ _ (fun s i => ?_) s
    dsimp only
    split
    · exact (pmcAdd_reports i n s).trans (hr _ _ _)
    · exact pmcAdd_reports i n s

theorem msixMessage_reports (n vec : Nat) (s : State) : Reports s (msixMessage n vec s) := by
  unfold msixMessage
  dsimp only
  split
  · exact hostOut_reports _ s
  · exact (hostOut_reports _ s).trans (modTen_reports _ _ (by intro; exact rfl) _)

theorem msixSignal_reports (n vec : Nat) (s : State) : Reports s (msixSignal n vec s) := by
  unfold msixSignal
  dsimp only
  repeat' split
  · exact Reports.refl s
  · exact modTen_reports _ _ (by intro; exact rfl) _
  · exact modTen_reports _ _ (by intro; exact rfl) _
  · exact msixMessage_reports n vec s

theorem cqStore_reports (n : Nat) (item : CqItem) (ovf : Bool) (s : State) : Reports s (cqStore n item ovf s) := by
  unfold cqStore
  exact (tenStore_reports _ _ _ s).trans (modTen_reports _ _ (by intro; exact rfl) _)

theorem cqReady_reports {r : Raise} (hr : RaiseReports r) (n : Nat) (s : State) : Reports s (cqReady r n s) := by
  have h1 := modTen_reports n (fun t => { t with sinceReady := 0, oldest := none }) (by intro; exact rfl) s
  have h2 : ∀ u : State, Reports u { u with evt := { u.evt with cqCond := u.evt.cqCond ||| BitVec.ofNat 8 (2 ^ n) } } :=
    fun u => { Reports.refl u with }
  have h3 := (h1.trans (h2 _)).trans (hr (320 + 8 * n) detNone _)
  unfold cqReady
  dsimp only
  split
  · exact h3
  · split
    · exact h3.trans (msixSignal_reports _ _ _)
    · exact h3

theorem Reports.ite {s t u : State} {p : Prop} [Decidable p] (h1 : Reports s t) (h2 : Reports s u) :
    Reports s (if p then t else u) := by
  split
  · exact h1
  · exact h2

theorem cqEntry_reports {r : Raise} (hr : RaiseReports r) (n : Nat) (item : CqItem) (ovf : Bool) (s : State) :
    Reports s (cqEntry r n item ovf s) := by
  unfold cqEntry
  extract_lets a b
  have ha : Reports s a := cqStore_reports n item ovf s
  have hb : Reports s b := .ite ha (ha.trans (perfWith_reports hr _ _ _ _))
  exact .ite (hb.trans (cqReady_reports hr _ _)) hb

theorem cqPutWith_reports {r : Raise} (hr : RaiseReports r) (n : Nat) (item : CqItem) (s : State) :
    Reports s (cqPutWith r n item s).1 := by
  unfold cqPutWith
  extract_lets t a b c d
  have ha : Reports s a := modTen_reports n _ (by intro; exact rfl) s
  have hc : Reports s c := (ha.trans (count_reports _ 1 _)).trans (perfWith_reports hr _ _ _ _)
  have hd : Reports s d := .ite (hc.trans (hr _ _ _)) hc
  split
  · exact cqEntry_reports hr n item false s
  split
  · exact Reports.refl s
  split
  · exact ((hd.trans (modTen_reports n _ (by intro; exact rfl) _)).trans (count_reports _ 1 _)).trans (hr _ _ _)
  · exact hd

theorem recPut_reports {r : Raise} (hr : RaiseReports r) (ev : Nat) (d : List Byte) (n : Nat) (s : State) :
    Reports s (recPut r ev d n s).1 := by
  unfold recPut
  dsimp only
  split
  · exact Reports.refl s
  have h := cqPutWith_reports hr n { bytes := recBytes ev d (tenOf s n).lostEv s.tm.hoop, evt := some ev } s
  split
  · exact ((h.trans (count_reports _ 1 _)).trans (modTen_reports n (fun t => { t with lostEv := true }) (by intro; exact rfl) _)).trans (hr _ _ _)
  · exact h.trans (modTen_reports n (fun t => { t with lostEv := false }) (by intro; exact rfl) _)

theorem latch_pend (e : Nat) (s : State) (k : Nat) :
    (latch e s).evt.pend.getLsbD k = (s.evt.pend.getLsbD k || (decide (k < 512) && decide (k = e))) := by
  simp only [latch, BitVec.getLsbD_or, BitVec.getLsbD_ofNat, Nat.testBit_two_pow]
  congr 2
  simp only [decide_eq_decide]
  exact eq_comm

theorem latch_reports (e : Nat) (s : State) : Reports s (latch e s) :=
  { Reports.refl s with pend := fun k h => by rw [latch_pend, h]; rfl }

theorem recs_reports {r : Raise} (hr : RaiseReports r) (ev : Nat) (d : List Byte) (l : List Nat) (p : State × Bool) :
    Reports p.1 (l.foldl (fun (p : State × Bool) n =>
      let q := recPut r ev d n p.1
      (q.1, p.2 || q.2)) p).1 := by
  induction l generalizing p with
  | nil => exact Reports.refl p.1
  | cons n l ih => exact (recPut_reports hr ev d n p.1).trans (ih ((recPut r ev d n p.1).1, p.2 || (recPut r ev d n p.1).2))

theorem routeEvt_reports {r : Raise} (hr : RaiseReports r) (ev : Nat) (d : List Byte) (only : Option Nat) (s : State) :
    Reports s (routeEvt r ev d only s) := by
  have hl : ∀ u : State, Reports u { u with evt := { u.evt with lastRec := tset u.evt.lastRec ev u.tm.rows } } :=
    fun u => { Reports.refl u with }
  unfold routeEvt
  extract_lets ts route q src1 src2 u ready
  have hq : Reports s q.1 := recs_reports hr ev d ts (s, false)
  have hu : Reports s u := .ite (Reports.refl s) (.ite (count_reports _ 1 s) (.ite (hq.trans (hl _)) hq))
  exact .ite (hu.trans (msixSignal_reports _ _ _)) hu

theorem raiseF_reports (f : Nat) (only : Option Nat) : RaiseReports (raiseF f only) := by
  induction f generalizing only with
  | zero => exact fun e _ s => latch_reports e s
  | succ f ih =>
    intro e d s
    unfold raiseF
    dsimp only
    split
    · exact (latch_reports e s).trans (routeEvt_reports (ih none) e d only _)
    · exact latch_reports e s

theorem raiseBy_reports (only : Option Nat) (e : Nat) (d : List Byte) (s : State) : Reports s (raiseBy only e d s) := by
  unfold raiseBy
  split
  · exact raiseF_reports 4 only e d s
  · next h => exact { Reports.refl s with pend := (latch_reports e s).pend, hold := fun g => by rw [g] at h; cases h }

theorem raise_reports (e : Nat) (d : List Byte) (s : State) : Reports s (raise e d s) := raiseBy_reports none e d s

theorem raiseTo_reports (o e : Nat) (d : List Byte) (s : State) : Reports s (raiseTo o e d s) := raiseBy_reports (some o) e d s

theorem raiseF_pend (f : Nat) (only : Option Nat) {e : Nat} (he : e < 512) (d : List Byte) (s : State) :
    (raiseF f only e d s).evt.pend.getLsbD e = true := by
  have hl : (latch e s).evt.pend.getLsbD e = true := by rw [latch_pend]; simp [he]
  cases f with
  | zero => exact hl
  | succ f =>
    unfold raiseF
    dsimp only
    split
    · exact (routeEvt_reports (raiseF_reports f none) e d only _).pend e hl
    · exact hl

theorem raiseBy_pend (only : Option Nat) {e : Nat} (he : e < 512) (d : List Byte) (s : State) :
    (raiseBy only e d s).evt.pend.getLsbD e = true := by
  unfold raiseBy
  split
  · exact raiseF_pend 4 only he d s
  · exact (latch_pend e s e).trans (by simp [he])

/-- An instant does what `f` does, from a state that holds the instant's events back, and then only reports (12 R602). -/
theorem instant_reports (f : State → State) (s : State) :
    ∃ h, (s.evt.hold = none → h = some []) ∧ (s.evt.hold ≠ none → h = s.evt.hold)
      ∧ Reports (f { s with evt := { s.evt with hold := h } }) (instant f s) := by
  unfold instant
  split
  · next l hl => exact ⟨s.evt.hold, fun g => absurd (hl.symm.trans g) (by simp), fun _ => rfl, Reports.refl _⟩
  · next hl =>
    refine ⟨some [], fun _ => rfl, fun g => absurd hl g, ?_⟩
    extract_lets _ v l _
    have h : Reports v { v with evt := { v.evt with hold := none } } := { Reports.refl v with hold := fun _ => rfl }
    exact h.trans (foldl_reports l _ (fun u r => raiseF_reports 4 r.only r.ev r.detail u) _)

/-- A raised event is pending (12 R601). -/
theorem raise_pend {e : Nat} (he : e < 512) (d : List Byte) (s : State) : (raise e d s).evt.pend.getLsbD e = true :=
  raiseBy_pend none he d s

/-- Where no instant is open, an event is handled at once (12 R601). -/
theorem raise_settled {s : State} (h : s.evt.hold = none) (e : Nat) (d : List Byte) : raise e d s = raiseF 4 none e d s := by
  simp only [raise, raiseBy, h]

theorem perf_reports (e : Nat) (ten : Option Nat) (s : State) : Reports s (perf e ten s) :=
  perfWith_reports raise_reports e 1 ten s

theorem perfN_reports (e n : Nat) (ten : Option Nat) (s : State) : Reports s (perfN e n ten s) :=
  perfWith_reports raise_reports e n ten s

theorem cqPut_reports (n : Nat) (item : CqItem) (s : State) : Reports s (cqPut n item s).1 :=
  cqPutWith_reports raise_reports n item s

theorem raiseLane_reports (k l sd ctr : Nat) (s : State) : Reports s (raiseLane k l sd ctr s) := raise_reports _ _ s

theorem storeFrags_reports (n : Nat) (fs : List (Nat × Nat)) (bs : List Byte) (s : State) : Reports s (storeFrags n fs bs s) := by
  induction fs generalizing bs s with
  | nil => exact Reports.refl s
  | cons f fs ih =>
    unfold storeFrags
    split
    · exact Reports.refl s
    · exact (tenStore_reports _ _ _ s).trans (ih _ _)

theorem storeOut_reports (b : Bobbin) (bs : List Byte) (s : State) : Reports s (storeOut b bs s) := by
  unfold storeOut
  dsimp only
  repeat' split
  · exact Reports.refl s
  · exact storeFrags_reports _ _ _ s
  · exact tenStore_reports _ _ _ s

theorem countDone_reports (b : Bobbin) (d : Done) (s : State) : Reports s (countDone b d s) := by
  have hi : ∀ (p : Prop) [Decidable p] (u v : State), Reports u v → Reports u (if p then v else u) := by
    intro p _ u v h
    split
    · exact h
    · exact Reports.refl u
  unfold countDone
  dsimp only
  have h1 := count_reports (tenBase b.job.ten + 0x404) 1 s
  have h2 := h1.trans (hi (d.status = stDenied) _ _ (count_reports (tenBase b.job.ten + 0x414) 1 _))
  have h3 := h2.trans (perf_reports 4 (some b.job.ten) _)
  have h4 := h3.trans (hi (0x10 ≤ d.status) _ _ (perf_reports 5 (some b.job.ten) _))
  have h5 := h4.trans (hi (d.status = stAged) _ _ (perf_reports 31 (some b.job.ten) _))
  split
  · refine (h5.trans (hi (b.cls = .c0) _ _ (perf_reports 160 (some b.job.ten) _))).trans ?_
    exact hi _ _ _ (perf_reports 161 (some b.job.ten) _)
  · exact h5

end Sys2Proof
end

