-- ==== Sys2Proof/Laws/Kept.lean ====
section
/-! SUPPORT. What every command keeps (`Kept`): from a state with the invariant of the node the operation reaches another, and it leaves the
queue alone. Here the relation, the updates of State, and the reports; KeptLines, KeptPorts, KeptTrain and KeptNode hold one lemma for each
operation of the files of Machine. -/

set_option linter.all false

namespace Sys2Proof.Machine

/-- What `NodeInv` says of the node's storage: all but that no instant is open. -/
structure StoreInv (s : State) : Prop where
  mem : MemoriesWf s
  tens : s.ten.tens.length = 8
  lanes : s.lan.lanes.length = 3
  ports : s.can.ports.length = 2
  slots : s.pat.slots.length = 4

/-- From `s` to `t` the node's storage keeps its invariant, no instant is left open, and the queue is as it was. -/
structure Kept (s t : State) : Prop where
  inv : StoreInv s → StoreInv t
  hold : s.evt.hold = none → t.evt.hold = none
  pending : t.pending = s.pending

theorem Kept.refl (s : State) : Kept s s := ⟨id, id, rfl⟩
theorem Kept.trans {s t u : State} (h : Kept s t) (g : Kept t u) : Kept s u :=
  ⟨fun i => g.inv (h.inv i), fun i => g.hold (h.hold i), g.pending.trans h.pending⟩

/-- What is kept keeps the node's invariant whole. -/
theorem Kept.nodeInv {s t : State} (h : Kept s t) (i : NodeInv s) : NodeInv t :=
  have j := h.inv ⟨i.mem, i.tens, i.lanes, i.ports, i.slots⟩
  ⟨j.mem, j.tens, j.lanes, j.ports, j.slots, h.hold i.settled⟩

theorem Kept.reports {s t : State} (h : Reports s t) : Kept s t where
  hold := h.hold
  inv := fun i => by
    obtain ⟨⟨k, r, p, c⟩, a, b, d, e⟩ := i
    have ht : t.ten.tens.length = s.ten.tens.length := h.tens.length_eq.symm
    exact ⟨⟨by rw [h.kee]; exact k, h.ram r, by rw [h.ten]; exact p, by rw [h.can]; exact c⟩, by omega, by rw [h.lan]; exact b, by rw [h.can]; exact d,
      by rw [h.pat]; exact e⟩
  pending := h.pending

/-- The car-bus ports are as many, and their object memories keep the canonical form. -/
def PortsKept (a b : List CanPort) : Prop :=
  b.length = a.length ∧ ((∀ p ∈ a, Memory.wf p.mem = true) → ∀ p ∈ b, Memory.wf p.mem = true)

theorem PortsKept.refl (a : List CanPort) : PortsKept a a := ⟨rfl, id⟩

theorem PortsKept.modify (a : List CanPort) (i : Nat) (f : CanPort → CanPort)
    (hf : ∀ c, Memory.wf c.mem = true → Memory.wf (f c).mem = true) : PortsKept a (a.modify i f) := by
  refine ⟨List.length_modify .., fun c x hx => ?_⟩
  simp only [List.mem_iff_getElem?, List.getElem?_modify] at hx
  obtain ⟨j, hj⟩ := hx
  cases hq : a[j]? with
  | none => simp [hq] at hj
  | some y =>
    have hy := c y (List.mem_of_getElem? hq)
    rw [hq] at hj
    split at hj
    · obtain rfl : f y = x := by simpa using hj
      exact hf y hy
    · obtain rfl : y = x := by simpa using hj
      exact hy

theorem PortsKept.map (a : List CanPort) (f : CanPort → CanPort)
    (hf : ∀ c, Memory.wf c.mem = true → Memory.wf (f c).mem = true) : PortsKept a (a.map f) := by
  refine ⟨List.length_map .., fun c x hx => ?_⟩
  obtain ⟨y, hy, rfl⟩ := List.mem_map.mp hx
  exact hf y (c y hy)

/-- A state whose fields were set, each with its own reason, from one that was kept. -/
theorem flex_kept {s t : State} (h : Kept s t) (dev : DevSt) (reg : RegSt) (tm : TimeSt) (zx : ZxSt) (pic : Table PicotCh) (lan : LanSt)
    (pat : PatSt) (trn : TrnSt) (home : HomeSt) (held : List HeldLease) (cc : CacheSt) (kee : KeepSt) (ten : TenSt) (can : CanSt) (evt : EvtSt)
    (pmc : PmcSt) (dbg : DbgSt) (int : IntSt) (out : List Out)
    (h1 : lan.lanes.length = t.lan.lanes.length) (h2 : pat.slots.length = t.pat.slots.length)
    (h3 : Memory.wf t.kee.mem = true → Memory.wf kee.mem = true)
    (h4 : Memory.wf t.ten.ram = true → Memory.wf ten.ram = true) (h5 : Memory.wf t.ten.push = true → Memory.wf ten.push = true)
    (h6 : ten.tens.length = t.ten.tens.length) (h7 : PortsKept t.can.ports can.ports)
    (h8 : evt.hold = t.evt.hold := by rfl) :
    Kept s { dev := dev, reg := reg, tm := tm, zx := zx, pic := pic, lan := lan, pat := pat, trn := trn, home := home, heldLeases := held, cc := cc, kee := kee
             ten := ten, can := can, evt := evt, pmc := pmc, dbg := dbg, int := int, out := out, pending := t.pending } :=
  h.trans ⟨fun i => by
    obtain ⟨⟨k, r, p, c⟩, a, b, d, e⟩ := i
    exact ⟨⟨h3 k, h4 r, h5 p, h7.2 c⟩, h6.trans a, h1.trans b, h7.1.trans d, h2.trans e⟩, h8.trans, rfl⟩

theorem count_kept {s t : State} (h : Kept s t) (o n : Nat) : Kept s (count o n t) := h.trans (Kept.reports (count_reports o n t))
theorem perf_kept {s t : State} (h : Kept s t) (e : Nat) (n : Option Nat) : Kept s (perf e n t) := h.trans (Kept.reports (perf_reports e n t))
theorem perfN_kept {s t : State} (h : Kept s t) (e k : Nat) (n : Option Nat) : Kept s (perfN e k n t) := h.trans (Kept.reports (perfN_reports e k n t))
theorem raise_kept {s t : State} (h : Kept s t) (e : Nat) (d : List Byte) : Kept s (raise e d t) := h.trans (Kept.reports (raise_reports e d t))
theorem raiseTo_kept {s t : State} (h : Kept s t) (o e : Nat) (d : List Byte) : Kept s (raiseTo o e d t) := h.trans (Kept.reports (raiseTo_reports o e d t))
theorem raiseLane_kept {s t : State} (h : Kept s t) (a b c d : Nat) : Kept s (raiseLane a b c d t) := h.trans (Kept.reports (raiseLane_reports a b c d t))
theorem cqPut_kept {s t : State} (h : Kept s t) (n : Nat) (i : CqItem) : Kept s (cqPut n i t).1 := h.trans (Kept.reports (cqPut_reports n i t))
theorem hostOut_kept {s t : State} (h : Kept s t) (o : Out) : Kept s (hostOut o t) := h.trans (Kept.reports (hostOut_reports o t))
theorem tenStore_kept {s t : State} (h : Kept s t) (n a : Nat) (b : List Byte) : Kept s (tenStore n a b t) := h.trans (Kept.reports (tenStore_reports n a b t))
theorem msixMessage_kept {s t : State} (h : Kept s t) (n a : Nat) : Kept s (msixMessage n a t) := h.trans (Kept.reports (msixMessage_reports n a t))
theorem msixSignal_kept {s t : State} (h : Kept s t) (n a : Nat) : Kept s (msixSignal n a t) := h.trans (Kept.reports (msixSignal_reports n a t))
theorem latch_kept {s t : State} (h : Kept s t) (n : Nat) : Kept s (latch n t) := h.trans (Kept.reports (latch_reports n t))
theorem pmcAdd_kept {s t : State} (h : Kept s t) (i n : Nat) : Kept s (pmcAdd i n t).1 := h.trans (Kept.reports (pmcAdd_reports i n t))
theorem storeOut_kept {s t : State} (h : Kept s t) (b : Bobbin) (bs : List Byte) : Kept s (storeOut b bs t) := h.trans (Kept.reports (storeOut_reports b bs t))
theorem countDone_kept {s t : State} (h : Kept s t) (b : Bobbin) (d : Done) : Kept s (countDone b d t) := h.trans (Kept.reports (countDone_reports b d t))
theorem each_kept {α : Type} {s t : State} (h : Kept s t) (l : List α) (f : State → α → State)
    (hf : ∀ u a, Kept s u → Kept s (f u a)) : Kept s (each l f t) := by
  induction l generalizing t with
  | nil => exact h
  | cons a l ih => exact ih (hf t a h)
theorem foldl_kept {α : Type} {s t : State} (h : Kept s t) (l : List α) (f : State → α → State)
    (hf : ∀ u a, Kept s u → Kept s (f u a)) : Kept s (l.foldl f t) := each_kept h l f hf

theorem modPort_kept {s t : State} (h : Kept s t) (p : Nat) (f : CanPort → CanPort)
    (hf : ∀ c, Memory.wf c.mem = true → Memory.wf (f c).mem = true) : Kept s (modPort p f t) :=
  flex_kept h _ _ _ _ _ _ _ _ _ _ _ _ _ _ _ _ _ _ _ rfl rfl id id id rfl (PortsKept.modify _ _ _ hf) rfl

/-- What an instant holds back keeps what its handling keeps (12 R602). -/
theorem instant_kept {s t : State} (h : Kept s t) (f : State → State) (hf : ∀ σ u, Kept σ u → Kept σ (f u)) : Kept s (instant f t) := by
  unfold instant
  split
  · exact hf s t h
  · extract_lets _ v l
    have k : Kept { t with evt := { t.evt with hold := some [] } } v := hf _ _ (Kept.refl _)
    have k' : Kept t { v with evt := { v.evt with hold := none } } := by
      refine ⟨fun i => ?_, fun _ => rfl, k.pending⟩
      obtain ⟨m, a, b, d, e⟩ := k.inv ⟨i.mem, i.tens, i.lanes, i.ports, i.slots⟩
      exact ⟨m, a, b, d, e⟩
    exact h.trans (foldl_kept k' _ _ fun u r g => g.trans (Kept.reports (raiseF_reports 4 r.only _ _ u)))

end Sys2Proof.Machine
end

