-- ==== Sys2Proof/Laws/KeptLines.lean ====
section
/-! SUPPORT. The invariant of the node is kept: one lemma for each operation of the engine of lines: registers, reports, bobbins, homes and requesters. -/

set_option linter.all false

namespace Sys2Proof.Machine

/-! ### Regs -/

theorem regSet_kept {σ τ : State} (hw : Kept σ τ) (off v : Nat) : Kept σ (regSet off v τ) := by
  unfold regSet
  repeat' (first
    | (extract_lets +onlyGivenNames x; try (refine (fun hx : Kept σ x => ?_) ?_; on_goal 1 => clear_value x; on_goal 2 => subst x))
    | with_reducible assumption | with_reducible rfl | with_reducible exact (fun h => h) | (rename State => x; subst x)
    | with_reducible apply flex_kept | with_reducible exact PortsKept.refl _)

theorem fldSet_kept {σ τ : State} (hw : Kept σ τ) (off lo w x : Nat) : Kept σ (fldSet off lo w x τ) := by
  unfold fldSet
  repeat' (first | with_reducible assumption | with_reducible apply regSet_kept)

theorem ctrClear_kept {σ τ : State} (hw : Kept σ τ) (off : Nat) : Kept σ (ctrClear off τ) := by
  unfold ctrClear
  repeat' (first
    | (extract_lets +onlyGivenNames x; try (refine (fun hx : Kept σ x => ?_) ?_; on_goal 1 => clear_value x; on_goal 2 => subst x))
    | with_reducible assumption | with_reducible rfl | with_reducible exact (fun h => h) | (rename State => x; subst x)
    | with_reducible apply flex_kept | with_reducible exact PortsKept.refl _)

theorem ungate_kept {σ τ : State} (hw : Kept σ τ)  : Kept σ (ungate τ) := by
  unfold ungate
  repeat' (first | with_reducible assumption | with_reducible apply foldl_kept | intro _ _ _ | with_reducible apply fldSet_kept)

theorem gatedWrite_kept {σ τ : State} (hw : Kept σ τ) (off : Nat) (f : State → State) (hf : ∀ u, Kept σ u → Kept σ (f u)) :
    Kept σ (gatedWrite off f τ) := by
  unfold gatedWrite
  extract_lets t
  split
  · exact hw
  · exact ungate_kept (hf _ hw)

theorem setStaged_kept {σ τ : State} (hw : Kept σ τ) (off : Nat) (l : List (Word × Nat)) : Kept σ (setStaged off l τ) := by
  unfold setStaged
  repeat' (first
    | (extract_lets +onlyGivenNames x; try (refine (fun hx : Kept σ x => ?_) ?_; on_goal 1 => clear_value x; on_goal 2 => subst x))
    | with_reducible assumption | with_reducible rfl | with_reducible exact (fun h => h) | split | (rename State => x; subst x)
    | with_reducible apply flex_kept | with_reducible exact PortsKept.refl _
    | (simp only [List.length_modify, List.length_map, List.length_set, lmod]; done))

theorem regStore_kept {σ τ : State} (hw : Kept σ τ) (off : Nat) (v : Nat) : Kept σ (regStore off v τ) := by
  unfold regStore
  repeat' (first
    | (extract_lets +onlyGivenNames x; try (refine (fun hx : Kept σ x => ?_) ?_; on_goal 1 => clear_value x; on_goal 2 => subst x))
    | with_reducible assumption | with_reducible rfl | with_reducible exact (fun h => h) | with_reducible apply setStaged_kept
    | with_reducible apply regSet_kept | split | (rename State => x; subst x) | with_reducible apply flex_kept | with_reducible exact PortsKept.refl _
    | (simp only [List.length_modify, List.length_map, List.length_set, lmod]; done))

/-! ### Flags -/

theorem modTen_kept {σ τ : State} (hw : Kept σ τ) (n : Nat) (f : Ten → Ten) : Kept σ (modTen n f τ) := by
  unfold modTen
  repeat' (first
    | (extract_lets +onlyGivenNames x; try (refine (fun hx : Kept σ x => ?_) ?_; on_goal 1 => clear_value x; on_goal 2 => subst x))
    | with_reducible assumption | with_reducible rfl | with_reducible exact (fun h => h) | (rename State => x; subst x)
    | with_reducible apply flex_kept | with_reducible exact PortsKept.refl _
    | (simp only [List.length_modify, List.length_map, List.length_set, lmod]; done))

theorem cqStore_kept {σ τ : State} (hw : Kept σ τ) (n : Nat) (item : CqItem) (ovf : Bool) : Kept σ (cqStore n item ovf τ) := by
  unfold cqStore
  repeat' (first
    | (extract_lets +onlyGivenNames x; try (refine (fun hx : Kept σ x => ?_) ?_; on_goal 1 => clear_value x; on_goal 2 => subst x))
    | with_reducible assumption | with_reducible rfl | with_reducible exact (fun h => h) | with_reducible apply tenStore_kept
    | with_reducible apply modTen_kept | split | (rename State => x; subst x) | with_reducible apply flex_kept
    | with_reducible exact PortsKept.refl _)

theorem cqReady_kept {σ τ : State} (hw : Kept σ τ) (n : Nat) : Kept σ (cqReady raise n τ) :=
  hw.trans (Kept.reports (cqReady_reports (fun e d s => raise_reports e d s) n τ))

theorem cqEntry_kept {σ τ : State} (hw : Kept σ τ) (n : Nat) (item : CqItem) (ovf : Bool) : Kept σ (cqEntry raise n item ovf τ) :=
  hw.trans (Kept.reports (cqEntry_reports (fun e d s => raise_reports e d s) n item ovf τ))

theorem raiseNoRec_kept {σ τ : State} (hw : Kept σ τ) (ev : Nat) : Kept σ (raiseNoRec ev τ) := by
  unfold raiseNoRec
  repeat' (first | with_reducible assumption | with_reducible apply raise_kept)

theorem ovfDrain_kept {σ τ : State} (hw : Kept σ τ) (n k : Nat) : Kept σ (ovfDrain n k τ) := by
  induction k generalizing τ with
  | zero => exact hw
  | succ k ih =>
    unfold ovfDrain
    split
    · exact hw
    · split
      · exact hw
      · exact ih (cqEntry_kept (modTen_kept hw _ _) _ _ _)

theorem logClamp_kept {σ τ : State} (hw : Kept σ τ) (c : ClampRec) : Kept σ (logClamp c τ) := by
  unfold logClamp
  repeat' (first
    | (extract_lets +onlyGivenNames x; try (refine (fun hx : Kept σ x => ?_) ?_; on_goal 1 => clear_value x; on_goal 2 => subst x))
    | with_reducible assumption | with_reducible rfl | with_reducible exact (fun h => h) | with_reducible apply raise_kept | split
    | (rename State => x; subst x) | with_reducible apply flex_kept | with_reducible exact PortsKept.refl _)

theorem logClamps_kept {σ τ : State} (hw : Kept σ τ) (cause : ClampBy) (loc : Nat) (cs : List Clamped) : Kept σ (logClamps cause loc cs τ) := by
  unfold logClamps
  repeat' (first | with_reducible assumption | with_reducible apply each_kept | intro _ _ _ | with_reducible apply logClamp_kept)

theorem ownClamp_kept {σ τ : State} (hw : Kept σ τ) (off lo w written stored : Nat) : Kept σ (ownClamp off lo w written stored τ) := by
  unfold ownClamp
  repeat' (first | with_reducible assumption | with_reducible apply logClamps_kept)

theorem regPutChecked_kept {σ τ : State} (hw : Kept σ τ) (cause : ClampBy) (off v : Nat) : Kept σ (regPutChecked cause off v τ) := by
  unfold regPutChecked
  repeat' (first
    | (extract_lets +onlyGivenNames x; try (refine (fun hx : Kept σ x => ?_) ?_; on_goal 1 => clear_value x; on_goal 2 => subst x))
    | with_reducible assumption | with_reducible apply regStore_kept | with_reducible apply logClamps_kept | (rename State => x; subst x))

theorem dmaRead_kept {σ τ : State} (hw : Kept σ τ) (fn addr len : Nat) (use : DmaUse) : Kept σ (dmaRead fn addr len use τ) := by
  unfold dmaRead
  repeat' (first
    | (extract_lets +onlyGivenNames x; try (refine (fun hx : Kept σ x => ?_) ?_; on_goal 1 => clear_value x; on_goal 2 => subst x))
    | with_reducible assumption | with_reducible rfl | with_reducible exact (fun h => h) | with_reducible apply perf_kept
    | (rename State => x; subst x) | with_reducible apply flex_kept | with_reducible exact PortsKept.refl _)

/-! ### Lines -/

theorem setLine_kept {σ τ : State} (hw : Kept σ τ) (la : Nat) (h : HomeLine) : Kept σ (setLine la h τ) := by
  unfold setLine
  repeat' (first
    | (extract_lets +onlyGivenNames x; try (refine (fun hx : Kept σ x => ?_) ?_; on_goal 1 => clear_value x; on_goal 2 => subst x))
    | with_reducible assumption | with_reducible rfl | with_reducible exact (fun h => h) | (rename State => x; subst x)
    | with_reducible apply flex_kept | with_reducible exact PortsKept.refl _)

theorem setEntry_kept {σ τ : State} (hw : Kept σ τ) (la : Nat) (e : Option FEntry) : Kept σ (setEntry la e τ) := by
  unfold setEntry
  repeat' (first
    | (extract_lets +onlyGivenNames x; try (refine (fun hx : Kept σ x => ?_) ?_; on_goal 1 => clear_value x; on_goal 2 => subst x))
    | with_reducible assumption | with_reducible rfl | with_reducible exact (fun h => h) | split | (rename State => x; subst x)
    | with_reducible apply flex_kept | with_reducible exact PortsKept.refl _)

theorem setTrks_kept {σ τ : State} (hw : Kept σ τ) (l : List Tracker) : Kept σ (setTrks l τ) := by
  unfold setTrks
  repeat' (first
    | (extract_lets +onlyGivenNames x; try (refine (fun hx : Kept σ x => ?_) ?_; on_goal 1 => clear_value x; on_goal 2 => subst x))
    | with_reducible assumption | with_reducible rfl | with_reducible exact (fun h => h) | (rename State => x; subst x)
    | with_reducible apply flex_kept | with_reducible exact PortsKept.refl _)

theorem modTrk_kept {σ τ : State} (hw : Kept σ τ) (ix : Nat) (f : Tracker → Tracker) : Kept σ (modTrk ix f τ) := by
  unfold modTrk
  repeat' (first | with_reducible assumption | with_reducible apply setTrks_kept | split)

theorem freeTrk_kept {σ τ : State} (hw : Kept σ τ) (ix : Nat) : Kept σ (freeTrk ix τ) := by
  unfold freeTrk
  repeat' (first | with_reducible assumption | with_reducible apply setTrks_kept)

theorem setBob_kept {σ τ : State} (hw : Kept σ τ) (b : Nat) (v : Bobbin) : Kept σ (setBob b v τ) := by
  unfold setBob
  repeat' (first
    | (extract_lets +onlyGivenNames x; try (refine (fun hx : Kept σ x => ?_) ?_; on_goal 1 => clear_value x; on_goal 2 => subst x))
    | with_reducible assumption | with_reducible rfl | with_reducible exact (fun h => h) | (rename State => x; subst x)
    | with_reducible apply flex_kept | with_reducible exact PortsKept.refl _)

theorem modBob_kept {σ τ : State} (hw : Kept σ τ) (b : Nat) (f : Bobbin → Bobbin) : Kept σ (modBob b f τ) := by
  unfold modBob
  repeat' (first
    | (extract_lets +onlyGivenNames x; try (refine (fun hx : Kept σ x => ?_) ?_; on_goal 1 => clear_value x; on_goal 2 => subst x))
    | with_reducible assumption | with_reducible rfl | with_reducible exact (fun h => h) | (rename State => x; subst x)
    | with_reducible apply flex_kept | with_reducible exact PortsKept.refl _)

theorem freeBob_kept {σ τ : State} (hw : Kept σ τ) (b : Nat) : Kept σ (freeBob b τ) := by
  unfold freeBob
  repeat' (first
    | (extract_lets +onlyGivenNames x; try (refine (fun hx : Kept σ x => ?_) ?_; on_goal 1 => clear_value x; on_goal 2 => subst x))
    | with_reducible assumption | with_reducible rfl | with_reducible exact (fun h => h) | (rename State => x; subst x)
    | with_reducible apply flex_kept | with_reducible exact PortsKept.refl _)

theorem queueMsg_kept {σ τ : State} (hw : Kept σ τ) (m : LineMsg) (bob : Option Nat) : Kept σ (queueMsg m bob τ) := by
  unfold queueMsg
  repeat' (first
    | (extract_lets +onlyGivenNames x; try (refine (fun hx : Kept σ x => ?_) ?_; on_goal 1 => clear_value x; on_goal 2 => subst x))
    | with_reducible assumption | with_reducible rfl | with_reducible exact (fun h => h) | (rename State => x; subst x)
    | with_reducible apply flex_kept | with_reducible exact PortsKept.refl _)

theorem queueProbe_kept {σ τ : State} (hw : Kept σ τ) (k : Nat) (m : LineMsg) : Kept σ (queueProbe k m τ) := by
  unfold queueProbe
  repeat' (first
    | (extract_lets +onlyGivenNames x; try (refine (fun hx : Kept σ x => ?_) ?_; on_goal 1 => clear_value x; on_goal 2 => subst x))
    | with_reducible assumption | with_reducible rfl | with_reducible exact (fun h => h) | with_reducible apply queueMsg_kept | split
    | (rename State => x; subst x) | with_reducible apply flex_kept | with_reducible exact PortsKept.refl _)

theorem returnCredit_kept {σ τ : State} (hw : Kept σ τ) (k : Nat) : Kept σ (returnCredit k τ) := by
  unfold returnCredit
  repeat' (first
    | (extract_lets +onlyGivenNames x; try (refine (fun hx : Kept σ x => ?_) ?_; on_goal 1 => clear_value x; on_goal 2 => subst x))
    | with_reducible assumption | with_reducible rfl | with_reducible exact (fun h => h) | split | (rename State => x; subst x)
    | with_reducible apply flex_kept | with_reducible exact PortsKept.refl _)

theorem queueWrote_kept {σ τ : State} (hw : Kept σ τ) (m : LineMsg) (k : Option WKey) : Kept σ (queueWrote m k τ) := by
  unfold queueWrote
  repeat' (first
    | (extract_lets +onlyGivenNames x; try (refine (fun hx : Kept σ x => ?_) ?_; on_goal 1 => clear_value x; on_goal 2 => subst x))
    | with_reducible assumption | with_reducible rfl | with_reducible exact (fun h => h) | split | (rename State => x; subst x)
    | with_reducible apply flex_kept | with_reducible exact PortsKept.refl _
    | (simp only [List.length_modify, List.length_map, List.length_set, lmod]; done))

theorem queueUpdate_kept {σ τ : State} (hw : Kept σ τ) (m : LineMsg) : Kept σ (queueUpdate m τ) := by
  unfold queueUpdate
  repeat' (first
    | (extract_lets +onlyGivenNames x; try (refine (fun hx : Kept σ x => ?_) ?_; on_goal 1 => clear_value x; on_goal 2 => subst x))
    | with_reducible assumption | with_reducible rfl | with_reducible exact (fun h => h) | with_reducible apply queueMsg_kept | split
    | (rename State => x; subst x) | with_reducible apply flex_kept | with_reducible exact PortsKept.refl _
    | (simp only [List.length_modify, List.length_map, List.length_set, lmod]; done) | dsimp only)

theorem setCopy_kept {σ τ : State} (hw : Kept σ τ) (k : Nat) (c : Copy) : Kept σ (setCopy k c τ) := by
  unfold setCopy
  repeat' (first
    | (extract_lets +onlyGivenNames x; try (refine (fun hx : Kept σ x => ?_) ?_; on_goal 1 => clear_value x; on_goal 2 => subst x))
    | with_reducible assumption | with_reducible rfl | with_reducible exact (fun h => h) | (rename State => x; subst x)
    | with_reducible apply flex_kept | with_reducible exact PortsKept.refl _)

theorem dropWay_kept {σ τ : State} (hw : Kept σ τ) (k : Nat) : Kept σ (dropWay k τ) := by
  unfold dropWay
  repeat' (first
    | (extract_lets +onlyGivenNames x; try (refine (fun hx : Kept σ x => ?_) ?_; on_goal 1 => clear_value x; on_goal 2 => subst x))
    | with_reducible assumption | with_reducible rfl | with_reducible exact (fun h => h) | (rename State => x; subst x)
    | with_reducible apply flex_kept | with_reducible exact PortsKept.refl _)

theorem modCopy_kept {σ τ : State} (hw : Kept σ τ) (la : Nat) (f : Copy → Copy) : Kept σ (modCopy la f τ) := by
  unfold modCopy
  repeat' (first
    | (extract_lets +onlyGivenNames x; try (refine (fun hx : Kept σ x => ?_) ?_; on_goal 1 => clear_value x; on_goal 2 => subst x))
    | with_reducible assumption | with_reducible rfl | with_reducible exact (fun h => h) | with_reducible apply setCopy_kept | split
    | (rename State => x; subst x) | with_reducible apply flex_kept | with_reducible exact PortsKept.refl _)

theorem dropCopy_kept {σ τ : State} (hw : Kept σ τ) (la : Nat) : Kept σ (dropCopy la τ) := by
  unfold dropCopy
  repeat' (first
    | (extract_lets +onlyGivenNames x; try (refine (fun hx : Kept σ x => ?_) ?_; on_goal 1 => clear_value x; on_goal 2 => subst x))
    | with_reducible assumption | with_reducible rfl | with_reducible exact (fun h => h) | with_reducible apply dropWay_kept | split
    | (rename State => x; subst x) | with_reducible apply flex_kept | with_reducible exact PortsKept.refl _)

theorem touch_kept {σ τ : State} (hw : Kept σ τ) (la : Nat) : Kept σ (touch la τ) := by
  unfold touch
  repeat' (first
    | (extract_lets +onlyGivenNames x; try (refine (fun hx : Kept σ x => ?_) ?_; on_goal 1 => clear_value x; on_goal 2 => subst x))
    | with_reducible assumption | with_reducible rfl | with_reducible exact (fun h => h) | with_reducible apply modCopy_kept
    | (rename State => x; subst x) | with_reducible apply flex_kept | with_reducible exact PortsKept.refl _)

theorem sampleChoose_kept {σ τ : State} (hw : Kept σ τ) (b : Nat) (ten op : Nat) (intern : Bool) : Kept σ (sampleChoose b ten op intern τ) := by
  unfold sampleChoose
  repeat' (first
    | (extract_lets +onlyGivenNames x; try (refine (fun hx : Kept σ x => ?_) ?_; on_goal 1 => clear_value x; on_goal 2 => subst x))
    | with_reducible assumption | with_reducible rfl | with_reducible exact (fun h => h) | with_reducible apply modBob_kept | split
    | (rename State => x; subst x) | with_reducible apply flex_kept | with_reducible exact PortsKept.refl _)

theorem acceptBob_kept {σ τ : State} (hw : Kept σ τ) (b : Nat) (v : Bobbin) : Kept σ (acceptBob b v τ) := by
  unfold acceptBob
  repeat' (first
    | (extract_lets +onlyGivenNames x; try (refine (fun hx : Kept σ x => ?_) ?_; on_goal 1 => clear_value x; on_goal 2 => subst x))
    | with_reducible assumption | with_reducible rfl | with_reducible exact (fun h => h) | with_reducible apply setBob_kept
    | with_reducible apply sampleChoose_kept | (rename State => x; subst x) | with_reducible apply flex_kept
    | with_reducible exact PortsKept.refl _)

theorem bindSubStart_kept {σ τ : State} (hw : Kept σ τ) (i : Nat) (e : Bind) : Kept σ (bindSubStart i e τ) := by
  unfold bindSubStart
  repeat' (first
    | (extract_lets +onlyGivenNames x; try (refine (fun hx : Kept σ x => ?_) ?_; on_goal 1 => clear_value x; on_goal 2 => subst x))
    | with_reducible assumption | with_reducible rfl | with_reducible exact (fun h => h) | with_reducible apply acceptBob_kept | split
    | (rename State => x; subst x) | with_reducible apply flex_kept | with_reducible exact PortsKept.refl _)

theorem addSub_kept {σ τ : State} (hw : Kept σ τ) (la t : Nat) : Kept σ (addSub la t τ) := by
  unfold addSub
  repeat' (first
    | (extract_lets +onlyGivenNames x; try (refine (fun hx : Kept σ x => ?_) ?_; on_goal 1 => clear_value x; on_goal 2 => subst x))
    | with_reducible assumption | with_reducible rfl | with_reducible exact (fun h => h) | split | (rename State => x; subst x)
    | with_reducible apply flex_kept | with_reducible exact PortsKept.refl _)

theorem delSub_kept {σ τ : State} (hw : Kept σ τ) (la t : Nat) : Kept σ (delSub la t τ) := by
  unfold delSub
  repeat' (first
    | (extract_lets +onlyGivenNames x; try (refine (fun hx : Kept σ x => ?_) ?_; on_goal 1 => clear_value x; on_goal 2 => subst x))
    | with_reducible assumption | with_reducible rfl | with_reducible exact (fun h => h) | (rename State => x; subst x)
    | with_reducible apply flex_kept | with_reducible exact PortsKept.refl _)

theorem subLost_kept {σ τ : State} (hw : Kept σ τ) (la : Nat) : Kept σ (subLost la τ) := by
  unfold subLost
  repeat' (first
    | (extract_lets +onlyGivenNames x; try (refine (fun hx : Kept σ x => ?_) ?_; on_goal 1 => clear_value x; on_goal 2 => subst x))
    | with_reducible assumption | with_reducible rfl | with_reducible exact (fun h => h) | with_reducible apply each_kept | intro _ _ _
    | with_reducible apply raise_kept | with_reducible apply bindSubStart_kept | with_reducible apply delSub_kept | split
    | (rename State => x; subst x) | with_reducible apply flex_kept | with_reducible exact PortsKept.refl _)

theorem bindPend_kept {σ τ : State} (hw : Kept σ τ) (la : Nat) : Kept σ (bindPend la τ) := by
  unfold bindPend
  repeat' (first
    | (extract_lets +onlyGivenNames x; try (refine (fun hx : Kept σ x => ?_) ?_; on_goal 1 => clear_value x; on_goal 2 => subst x))
    | with_reducible assumption | with_reducible rfl | with_reducible exact (fun h => h) | with_reducible apply each_kept | intro _ _ _
    | with_reducible apply count_kept | with_reducible apply perf_kept | split | (rename State => x; subst x) | with_reducible apply flex_kept
    | with_reducible exact PortsKept.refl _)

/-! ### Complete -/

theorem storeFrags_kept {σ τ : State} (hw : Kept σ τ) (n : Nat) (fs : List (Nat × Nat)) (bs : List Byte) : Kept σ (storeFrags n fs bs τ) :=
  hw.trans (Kept.reports (storeFrags_reports n fs bs τ))

theorem sampleEnd_kept {σ τ : State} (hw : Kept σ τ) (b : Bobbin) (d : Done) : Kept σ (sampleEnd b d τ) := by
  unfold sampleEnd
  repeat' (first
    | (extract_lets +onlyGivenNames x; try (refine (fun hx : Kept σ x => ?_) ?_; on_goal 1 => clear_value x; on_goal 2 => subst x))
    | with_reducible assumption | with_reducible rfl | with_reducible exact (fun h => h) | with_reducible apply raise_kept | split
    | (rename State => x; subst x) | with_reducible apply flex_kept | with_reducible exact PortsKept.refl _)

theorem foldl_memPuts_wf (l : List Nat) (bs : List Byte) (m : Mem) (h : Memory.wf m = true) :
    Memory.wf (l.foldl (fun m o => memPuts m (64 * o + 4) bs) m) = true := by
  induction l generalizing m with
  | nil => exact h
  | cons a l ih => exact ih _ (memPuts_wf h _ _)

theorem releaseBind_kept {σ τ : State} (hw : Kept σ τ) (i : Nat) : Kept σ (releaseBind i τ) := by
  unfold releaseBind
  split
  · exact hw
  · extract_lets x0 x last queue gone y0 y
    have hx : Kept σ x := flex_kept hw _ _ _ _ _ _ _ _ _ _ _ _ _ _ _ _ _ _ _ rfl rfl id id id rfl (PortsKept.refl _)
    have hy : Kept σ y := flex_kept hx _ _ _ _ _ _ _ _ _ _ _ _ _ _ _ _ _ _ _ rfl rfl id id id rfl
      (PortsKept.modify _ _ _ fun c hc => by
        show Memory.wf (if _ then _ else _) = true
        split
        · exact hc
        · exact foldl_memPuts_wf _ _ _ hc)
    split
    · exact flex_kept hy _ _ _ _ _ _ _ _ _ _ _ _ _ _ _ _ _ _ _ rfl rfl id id id rfl (PortsKept.refl _)
    · exact hy

theorem bindWriteDone_kept {σ τ : State} (hw : Kept σ τ) (i : Nat) (d : Done) : Kept σ (bindWriteDone i d τ) := by
  unfold bindWriteDone
  repeat' (first
    | (extract_lets +onlyGivenNames x; try (refine (fun hx : Kept σ x => ?_) ?_; on_goal 1 => clear_value x; on_goal 2 => subst x))
    | with_reducible assumption | with_reducible rfl | with_reducible exact (fun h => h) | with_reducible apply count_kept
    | with_reducible apply perf_kept | with_reducible apply raise_kept | split | (rename State => x; subst x) | with_reducible apply flex_kept
    | with_reducible exact PortsKept.refl _)

theorem completeJob_kept {σ τ : State} (hw : Kept σ τ) (b : Nat) (v : Bobbin) (d : Done) : Kept σ (completeJob b v d τ) := by
  unfold completeJob
  repeat' (first
    | (extract_lets +onlyGivenNames x; try (refine (fun hx : Kept σ x => ?_) ?_; on_goal 1 => clear_value x; on_goal 2 => subst x))
    | with_reducible assumption | with_reducible rfl | with_reducible exact (fun h => h) | with_reducible apply raise_kept
    | with_reducible apply cqPut_kept | with_reducible apply storeOut_kept | with_reducible apply countDone_kept
    | with_reducible apply setBob_kept | with_reducible apply freeBob_kept | with_reducible apply sampleEnd_kept | split
    | (rename State => x; subst x) | with_reducible apply flex_kept | with_reducible exact PortsKept.refl _)

theorem bindSubDone_kept {σ τ : State} (hw : Kept σ τ) (i : Nat) (d : Done) : Kept σ (bindSubDone i d τ) := by
  unfold bindSubDone
  repeat' (first
    | (extract_lets +onlyGivenNames x; try (refine (fun hx : Kept σ x => ?_) ?_; on_goal 1 => clear_value x; on_goal 2 => subst x))
    | with_reducible assumption | with_reducible rfl | with_reducible exact (fun h => h) | with_reducible apply releaseBind_kept
    | with_reducible apply completeJob_kept | split | (rename State => x; subst x) | with_reducible apply flex_kept
    | with_reducible exact PortsKept.refl _)

theorem complete_kept {σ τ : State} (hw : Kept σ τ) (b : Nat) (d : Done) : Kept σ (complete b d τ) := by
  unfold complete
  repeat' (first
    | (extract_lets +onlyGivenNames x; try (refine (fun hx : Kept σ x => ?_) ?_; on_goal 1 => clear_value x; on_goal 2 => subst x))
    | with_reducible assumption | with_reducible rfl | with_reducible exact (fun h => h) | with_reducible apply freeBob_kept
    | with_reducible apply sampleEnd_kept | with_reducible apply bindWriteDone_kept | with_reducible apply completeJob_kept
    | with_reducible apply bindSubDone_kept | split | (rename State => x; subst x) | with_reducible apply flex_kept
    | with_reducible exact PortsKept.refl _)

theorem keptDrain_kept {σ τ : State} (hw : Kept σ τ) (n : Nat) (fu : Nat) : Kept σ (keptDrain n fu τ) := by
  induction fu generalizing τ n with
  | zero => unfold keptDrain; first | exact hw | exact flex_kept hw _ _ _ _ _ _ _ _ _ _ _ _ _ _ _ _ _ _ _ rfl rfl id id id rfl (PortsKept.refl _)
  | succ n ih =>
    unfold keptDrain
    repeat' (first
    | (extract_lets +onlyGivenNames x; try (refine (fun hx : Kept σ x => ?_) ?_; on_goal 1 => clear_value x; on_goal 2 => subst x))
    | with_reducible assumption | with_reducible rfl | with_reducible exact (fun h => h) | with_reducible apply ih
    | with_reducible apply cqPut_kept | with_reducible apply freeBob_kept | split | (rename State => x; subst x) | with_reducible apply flex_kept
    | with_reducible exact PortsKept.refl _)

theorem cqAdvance_kept {σ τ : State} (hw : Kept σ τ) (n : Nat) : Kept σ (cqAdvance n τ) := by
  unfold cqAdvance
  repeat' (first
    | (extract_lets +onlyGivenNames x; try (refine (fun hx : Kept σ x => ?_) ?_; on_goal 1 => clear_value x; on_goal 2 => subst x))
    | with_reducible assumption | with_reducible rfl | with_reducible exact (fun h => h) | with_reducible apply ovfDrain_kept
    | with_reducible apply keptDrain_kept | split | (rename State => x; subst x) | with_reducible apply flex_kept
    | with_reducible exact PortsKept.refl _)

theorem finishLine_kept {σ τ : State} (hw : Kept σ τ) (b : Nat) (r : LineRes) : Kept σ (finishLine b r τ) := by
  unfold finishLine
  repeat' (first
    | (extract_lets +onlyGivenNames x; try (refine (fun hx : Kept σ x => ?_) ?_; on_goal 1 => clear_value x; on_goal 2 => subst x))
    | with_reducible assumption | with_reducible rfl | with_reducible exact (fun h => h) | with_reducible apply freeBob_kept
    | with_reducible apply complete_kept | with_reducible apply setBob_kept | split | (rename State => x; subst x) | with_reducible apply flex_kept
    | with_reducible exact PortsKept.refl _ | (simp only [List.length_modify, List.length_map, List.length_set, lmod]; done))

theorem withIntern_kept {σ τ : State} (hw : Kept σ τ) (job : Job) (cls : Cls) (m : LineMsg) : Kept σ (withIntern job cls m τ).1 := by
  unfold withIntern
  repeat' (first
    | (extract_lets +onlyGivenNames x; try (refine (fun hx : Kept σ x => ?_) ?_; on_goal 1 => clear_value x; on_goal 2 => subst x))
    | with_reducible assumption | with_reducible rfl | with_reducible exact (fun h => h) | with_reducible apply setBob_kept
    | with_reducible apply queueMsg_kept | split | (rename State => x; subst x) | with_reducible apply flex_kept
    | with_reducible exact PortsKept.refl _)

/-! ### Home -/

theorem cohCount_kept {σ τ : State} (hw : Kept σ τ) (i : Nat) : Kept σ (cohCount i τ) := by
  unfold cohCount
  repeat' (first | with_reducible assumption | with_reducible apply count_kept)

theorem finishTrk_kept {σ τ : State} (hw : Kept σ τ) (t : Tracker) (b : Nat) (r : LineRes) : Kept σ (finishTrk t b r τ) := by
  unfold finishTrk
  repeat' (first
    | (extract_lets +onlyGivenNames x; try (refine (fun hx : Kept σ x => ?_) ?_; on_goal 1 => clear_value x; on_goal 2 => subst x))
    | with_reducible assumption | with_reducible rfl | with_reducible exact (fun h => h) | with_reducible apply finishLine_kept | split
    | (rename State => x; subst x) | with_reducible apply flex_kept | with_reducible exact PortsKept.refl _
    | (simp only [List.length_modify, List.length_map, List.length_set, lmod]; done))

theorem ackTrk_kept {σ τ : State} (hw : Kept σ τ) (t : Tracker) (status : Nat) : Kept σ (ackTrk t status τ) := by
  unfold ackTrk
  repeat' (first
    | (extract_lets +onlyGivenNames x; try (refine (fun hx : Kept σ x => ?_) ?_; on_goal 1 => clear_value x; on_goal 2 => subst x))
    | with_reducible assumption | with_reducible rfl | with_reducible exact (fun h => h) | with_reducible apply freeTrk_kept
    | with_reducible apply finishTrk_kept | with_reducible apply queueMsg_kept | split | (rename State => x; subst x) | with_reducible apply flex_kept
    | with_reducible exact PortsKept.refl _ | (simp only [List.length_modify, List.length_map, List.length_set, lmod]; done))

theorem ackWrite_kept {σ τ : State} (hw : Kept σ τ) (t : Tracker) (status : Nat) : Kept σ (ackWrite t status τ) := by
  unfold ackWrite
  repeat' (first
    | (extract_lets +onlyGivenNames x; try (refine (fun hx : Kept σ x => ?_) ?_; on_goal 1 => clear_value x; on_goal 2 => subst x))
    | with_reducible assumption | with_reducible rfl | with_reducible exact (fun h => h) | with_reducible apply ackTrk_kept
    | with_reducible apply queueWrote_kept | with_reducible apply freeTrk_kept | split | (rename State => x; subst x) | with_reducible apply flex_kept
    | with_reducible exact PortsKept.refl _ | (simp only [List.length_modify, List.length_map, List.length_set, lmod]; done))

theorem dataTrk_kept {σ τ : State} (hw : Kept σ τ) (t : Tracker) (typ : MsgType) (flg : BitVec 3) : Kept σ (dataTrk t typ flg τ) := by
  unfold dataTrk
  repeat' (first
    | (extract_lets +onlyGivenNames x; try (refine (fun hx : Kept σ x => ?_) ?_; on_goal 1 => clear_value x; on_goal 2 => subst x))
    | with_reducible assumption | with_reducible rfl | with_reducible exact (fun h => h) | with_reducible apply each_kept | intro _ _ _
    | with_reducible apply freeTrk_kept | with_reducible apply cohCount_kept | with_reducible apply setLine_kept | with_reducible apply finishTrk_kept
    | with_reducible apply queueMsg_kept | split | (rename State => x; subst x) | with_reducible apply flex_kept
    | with_reducible exact PortsKept.refl _ | (simp only [List.length_modify, List.length_map, List.length_set, lmod]; done))

theorem replayAdd_kept {σ τ : State} (hw : Kept σ τ) (la : Nat) (key : WKey) (version : Word) (c0 : Bool) : Kept σ (replayAdd la key version c0 τ) := by
  unfold replayAdd
  repeat' (first
    | (extract_lets +onlyGivenNames x; try (refine (fun hx : Kept σ x => ?_) ?_; on_goal 1 => clear_value x; on_goal 2 => subst x))
    | with_reducible assumption | with_reducible rfl | with_reducible exact (fun h => h) | split | (rename State => x; subst x)
    | with_reducible apply flex_kept | with_reducible exact PortsKept.refl _
    | (simp only [List.length_modify, List.length_map, List.length_set, lmod]; done))

theorem mirrorOut_kept {σ τ : State} (hw : Kept σ τ) (la : Nat) : Kept σ (mirrorOut la τ) := by
  unfold mirrorOut
  repeat' (first
    | (extract_lets +onlyGivenNames x; try (refine (fun hx : Kept σ x => ?_) ?_; on_goal 1 => clear_value x; on_goal 2 => subst x))
    | with_reducible assumption | with_reducible rfl | with_reducible exact (fun h => h) | with_reducible apply setTrks_kept | split
    | (rename State => x; subst x) | with_reducible apply flex_kept | with_reducible exact PortsKept.refl _
    | (simp only [List.length_modify, List.length_map, List.length_set, lmod]; done))

theorem mirrorRetry_kept {σ τ : State} (hw : Kept σ τ)  : Kept σ (mirrorRetry τ) := by
  unfold mirrorRetry
  repeat' (first
    | (extract_lets +onlyGivenNames x; try (refine (fun hx : Kept σ x => ?_) ?_; on_goal 1 => clear_value x; on_goal 2 => subst x))
    | with_reducible assumption | with_reducible rfl | with_reducible exact (fun h => h) | with_reducible apply each_kept | intro _ _ _
    | with_reducible apply mirrorOut_kept | split | (rename State => x; subst x) | with_reducible apply flex_kept
    | with_reducible exact PortsKept.refl _ | (simp only [List.length_modify, List.length_map, List.length_set, lmod]; done))

theorem mirrorSend_kept {σ τ : State} (hw : Kept σ τ) (la : Nat) : Kept σ (mirrorSend la τ).1 := by
  unfold mirrorSend
  repeat' (first
    | (extract_lets +onlyGivenNames x; try (refine (fun hx : Kept σ x => ?_) ?_; on_goal 1 => clear_value x; on_goal 2 => subst x))
    | with_reducible assumption | with_reducible rfl | with_reducible exact (fun h => h) | with_reducible apply raise_kept
    | with_reducible apply mirrorOut_kept | split | (rename State => x; subst x) | with_reducible apply flex_kept
    | with_reducible exact PortsKept.refl _ | (simp only [List.length_modify, List.length_map, List.length_set, lmod]; done))

theorem movingSend_kept {σ τ : State} (hw : Kept σ τ) (la : Nat) : Kept σ (movingSend la τ) := by
  unfold movingSend
  repeat' (first
    | (extract_lets +onlyGivenNames x; try (refine (fun hx : Kept σ x => ?_) ?_; on_goal 1 => clear_value x; on_goal 2 => subst x))
    | with_reducible assumption | with_reducible rfl | with_reducible exact (fun h => h) | with_reducible apply queueMsg_kept | split
    | (rename State => x; subst x) | with_reducible apply flex_kept | with_reducible exact PortsKept.refl _)

theorem homeCommit_kept {σ τ : State} (hw : Kept σ τ) (la : Nat) (data : Line) (key : Option WKey) (ten : Option Nat) :
    Kept σ (homeCommit la data key ten τ) := by
  unfold homeCommit
  repeat' (first
    | (extract_lets +onlyGivenNames x; try (refine (fun hx : Kept σ x => ?_) ?_; on_goal 1 => clear_value x; on_goal 2 => subst x))
    | with_reducible assumption | with_reducible rfl | with_reducible exact (fun h => h) | with_reducible apply perf_kept
    | with_reducible apply setLine_kept | with_reducible apply queueUpdate_kept | with_reducible apply bindPend_kept
    | with_reducible apply replayAdd_kept | with_reducible apply movingSend_kept | split | (rename State => x; subst x)
    | with_reducible apply flex_kept | with_reducible exact PortsKept.refl _)

theorem writeDone_kept {σ τ : State} (hw : Kept σ τ) (t : Tracker) : Kept σ (writeDone t τ) := by
  unfold writeDone
  repeat' (first
    | (extract_lets +onlyGivenNames x; try (refine (fun hx : Kept σ x => ?_) ?_; on_goal 1 => clear_value x; on_goal 2 => subst x))
    | with_reducible assumption | with_reducible rfl | with_reducible exact (fun h => h) | with_reducible apply finishTrk_kept
    | with_reducible apply freeTrk_kept | with_reducible apply perf_kept | with_reducible apply queueMsg_kept | with_reducible apply queueWrote_kept
    | with_reducible apply ackWrite_kept | split | (rename State => x; subst x) | with_reducible apply flex_kept
    | with_reducible exact PortsKept.refl _ | (simp only [List.length_modify, List.length_map, List.length_set, lmod]; done))

theorem afterCommit_kept {σ τ : State} (hw : Kept σ τ) (t : Tracker) : Kept σ (afterCommit t τ) := by
  unfold afterCommit
  repeat' (first
    | (extract_lets +onlyGivenNames x; try (refine (fun hx : Kept σ x => ?_) ?_; on_goal 1 => clear_value x; on_goal 2 => subst x))
    | with_reducible assumption | with_reducible rfl | with_reducible exact (fun h => h) | with_reducible apply mirrorSend_kept
    | with_reducible apply modTrk_kept | with_reducible apply writeDone_kept | split | (rename State => x; subst x) | with_reducible apply flex_kept
    | with_reducible exact PortsKept.refl _ | (simp only [List.length_modify, List.length_map, List.length_set, lmod]; done))

theorem writeTrk_kept {σ τ : State} (hw : Kept σ τ) (t : Tracker) : Kept σ (writeTrk t τ) := by
  unfold writeTrk
  repeat' (first
    | (extract_lets +onlyGivenNames x; try (refine (fun hx : Kept σ x => ?_) ?_; on_goal 1 => clear_value x; on_goal 2 => subst x))
    | with_reducible assumption | with_reducible rfl | with_reducible exact (fun h => h) | with_reducible apply commit_kept
    | with_reducible apply afterCommit_kept | with_reducible apply homeCommit_kept | with_reducible apply modBob_kept
    | with_reducible apply freeTrk_kept | with_reducible apply writeDone_kept | split | (rename State => x; subst x) | with_reducible apply flex_kept
    | with_reducible exact PortsKept.refl _ | (simp only [List.length_modify, List.length_map, List.length_set, lmod]; done) | dsimp only)

theorem sendProbes_kept {σ τ : State} (hw : Kept σ τ) (t : Tracker) (nodes : List Nat) : Kept σ (sendProbes t nodes τ) := by
  unfold sendProbes
  repeat' (first
    | (extract_lets +onlyGivenNames x; try (refine (fun hx : Kept σ x => ?_) ?_; on_goal 1 => clear_value x; on_goal 2 => subst x))
    | with_reducible assumption | with_reducible rfl | with_reducible exact (fun h => h) | with_reducible apply each_kept | intro _ _ _
    | with_reducible apply perf_kept | with_reducible apply queueProbe_kept | with_reducible apply cohCount_kept | split
    | (rename State => x; subst x) | with_reducible apply flex_kept | with_reducible exact PortsKept.refl _)

theorem startProbe_kept {σ τ : State} (hw : Kept σ τ) (t : Tracker) (vec : Sharers) : Kept σ (startProbe t vec τ) := by
  unfold startProbe
  repeat' (first
    | (extract_lets +onlyGivenNames x; try (refine (fun hx : Kept σ x => ?_) ?_; on_goal 1 => clear_value x; on_goal 2 => subst x))
    | with_reducible assumption | with_reducible rfl | with_reducible exact (fun h => h) | with_reducible apply modTrk_kept
    | with_reducible apply sendProbes_kept | (rename State => x; subst x) | with_reducible apply flex_kept
    | with_reducible exact PortsKept.refl _)

theorem ownProbe_kept {σ τ : State} (hw : Kept σ τ) (la : Nat) (p : Purpose) (isRecall keepS victim : Bool) (vec : Sharers) :
    Kept σ (ownProbe la p isRecall keepS victim vec τ).1 := by
  unfold ownProbe
  repeat' (first
    | (extract_lets +onlyGivenNames x; try (refine (fun hx : Kept σ x => ?_) ?_; on_goal 1 => clear_value x; on_goal 2 => subst x))
    | with_reducible assumption | with_reducible rfl | with_reducible exact (fun h => h) | with_reducible apply startProbe_kept | split
    | (rename State => x; subst x) | with_reducible apply flex_kept | with_reducible exact PortsKept.refl _)

theorem recallVictim_kept {σ τ : State} (hw : Kept σ τ) (set : Nat) : Kept σ (recallVictim set τ) := by
  unfold recallVictim
  repeat' (first
    | (extract_lets +onlyGivenNames x; try (refine (fun hx : Kept σ x => ?_) ?_; on_goal 1 => clear_value x; on_goal 2 => subst x))
    | with_reducible assumption | with_reducible rfl | with_reducible exact (fun h => h) | with_reducible apply perf_kept
    | with_reducible apply setEntry_kept | with_reducible apply cohCount_kept | with_reducible apply ownProbe_kept | split
    | (rename State => x; subst x) | with_reducible apply flex_kept | with_reducible exact PortsKept.refl _)

theorem recallFor_kept {σ τ : State} (hw : Kept σ τ) (set : Nat) (n : Nat) : Kept σ (recallFor set n τ) := by
  unfold recallFor
  repeat' (first
    | (extract_lets +onlyGivenNames x; try (refine (fun hx : Kept σ x => ?_) ?_; on_goal 1 => clear_value x; on_goal 2 => subst x))
    | with_reducible assumption | with_reducible rfl | with_reducible exact (fun h => h) | with_reducible apply recallVictim_kept | split
    | (rename State => x; subst x) | with_reducible apply flex_kept | with_reducible exact PortsKept.refl _
    | (simp only [List.length_modify, List.length_map, List.length_set, lmod]; done))

theorem putEntry_kept {σ τ : State} (hw : Kept σ τ) (la : Nat) (st : FState) (vec : Sharers) : Kept σ (putEntry la st vec τ) := by
  unfold putEntry
  repeat' (first
    | (extract_lets +onlyGivenNames x; try (refine (fun hx : Kept σ x => ?_) ?_; on_goal 1 => clear_value x; on_goal 2 => subst x))
    | with_reducible assumption | with_reducible rfl | with_reducible exact (fun h => h) | with_reducible apply setEntry_kept | split
    | (rename State => x; subst x) | with_reducible apply flex_kept | with_reducible exact PortsKept.refl _)

theorem withWay_kept {σ τ : State} (hw : Kept σ τ) (t : Tracker) (go : State → State) (hg : ∀ u, Kept σ u → Kept σ (go u)) :
    Kept σ (withWay t go τ) := by
  unfold withWay
  split
  · exact hg _ hw
  · extract_lets _ x
    have hx : Kept σ x := recallFor_kept hw _ _
    split
    · exact hg _ hx
    · exact modTrk_kept hx _ _

theorem dirTrk_kept {σ τ : State} (hw : Kept σ τ) (t : Tracker) (e : FEntry) : Kept σ (dirTrk t e τ) := by
  unfold dirTrk
  repeat' (first
    | (extract_lets +onlyGivenNames x; try (refine (fun hx : Kept σ x => ?_) ?_; on_goal 1 => clear_value x; on_goal 2 => subst x))
    | with_reducible assumption | with_reducible rfl | with_reducible exact (fun h => h) | intro _ _ _ _ _ | intro _ _ _ _ | intro _ _ _ | intro _ _
    | with_reducible apply withWay_kept | with_reducible apply freeTrk_kept | with_reducible apply setEntry_kept | split
    | (rename State => x; subst x) | with_reducible apply flex_kept | with_reducible exact PortsKept.refl _
    | (simp only [List.length_modify, List.length_map, List.length_set, lmod]; done))

theorem clearEntry_kept {σ τ : State} (hw : Kept σ τ) (la : Nat) : Kept σ (clearEntry la τ) := by
  unfold clearEntry
  repeat' (first
    | (extract_lets +onlyGivenNames x; try (refine (fun hx : Kept σ x => ?_) ?_; on_goal 1 => clear_value x; on_goal 2 => subst x))
    | with_reducible assumption | with_reducible rfl | with_reducible exact (fun h => h) | with_reducible apply setEntry_kept | split
    | (rename State => x; subst x) | with_reducible apply flex_kept | with_reducible exact PortsKept.refl _)

theorem lockTrk_kept {σ τ : State} (hw : Kept σ τ) (t : Tracker) : Kept σ (lockTrk t τ) := by
  unfold lockTrk
  repeat' (first
    | (extract_lets +onlyGivenNames x; try (refine (fun hx : Kept σ x => ?_) ?_; on_goal 1 => clear_value x; on_goal 2 => subst x))
    | with_reducible assumption | with_reducible rfl | with_reducible exact (fun h => h) | with_reducible apply ackTrk_kept
    | with_reducible apply finishTrk_kept | with_reducible apply freeTrk_kept | with_reducible apply queueMsg_kept | split
    | (rename State => x; subst x) | with_reducible apply flex_kept | with_reducible exact PortsKept.refl _
    | (simp only [List.length_modify, List.length_map, List.length_set, lmod]; done))

theorem unlockTrk_kept {σ τ : State} (hw : Kept σ τ) (t : Tracker) : Kept σ (unlockTrk t τ) := by
  unfold unlockTrk
  repeat' (first
    | (extract_lets +onlyGivenNames x; try (refine (fun hx : Kept σ x => ?_) ?_; on_goal 1 => clear_value x; on_goal 2 => subst x))
    | with_reducible assumption | with_reducible rfl | with_reducible exact (fun h => h) | with_reducible apply freeTrk_kept
    | with_reducible apply queueMsg_kept | with_reducible apply cohCount_kept | with_reducible apply ackTrk_kept | split
    | (rename State => x; subst x) | with_reducible apply flex_kept | with_reducible exact PortsKept.refl _)

theorem workPublish_kept {σ τ : State} (hw : Kept σ τ) (t : Tracker) : Kept σ (workPublish t τ) := by
  unfold workPublish
  repeat' (first
    | (extract_lets +onlyGivenNames x; try (refine (fun hx : Kept σ x => ?_) ?_; on_goal 1 => clear_value x; on_goal 2 => subst x))
    | with_reducible assumption | with_reducible rfl | with_reducible exact (fun h => h) | intro _ _ _ _ | intro _ _ _ | intro _ _
    | with_reducible apply setEntry_kept | with_reducible apply freeTrk_kept | with_reducible apply queueMsg_kept
    | with_reducible apply ackTrk_kept | with_reducible apply dataTrk_kept | with_reducible apply writeTrk_kept
    | with_reducible apply putEntry_kept | with_reducible apply withWay_kept | with_reducible apply lockTrk_kept
    | with_reducible apply unlockTrk_kept | split | (rename State => x; subst x) | with_reducible apply flex_kept
    | with_reducible exact PortsKept.refl _)

theorem shareTrk_kept {σ τ : State} (hw : Kept σ τ) (t : Tracker) (vec : Sharers) : Kept σ (shareTrk t vec τ) := by
  unfold shareTrk
  repeat' (first
    | (extract_lets +onlyGivenNames x; try (refine (fun hx : Kept σ x => ?_) ?_; on_goal 1 => clear_value x; on_goal 2 => subst x))
    | with_reducible assumption | with_reducible rfl | with_reducible exact (fun h => h) | with_reducible apply foldl_kept | intro _ _ _
    | with_reducible apply foldl_kept | with_reducible apply dataTrk_kept | with_reducible apply putEntry_kept | split | (rename State => x; subst x)
    | with_reducible apply flex_kept | with_reducible exact PortsKept.refl _
    | (simp only [List.length_modify, List.length_map, List.length_set, lmod]; done))

theorem finishClaim_kept {σ τ : State} (hw : Kept σ τ) (t : Tracker) : Kept σ (finishClaim t τ) := by
  unfold finishClaim
  repeat' (first
    | (extract_lets +onlyGivenNames x; try (refine (fun hx : Kept σ x => ?_) ?_; on_goal 1 => clear_value x; on_goal 2 => subst x))
    | with_reducible assumption | with_reducible rfl | with_reducible exact (fun h => h) | with_reducible apply freeTrk_kept
    | with_reducible apply putEntry_kept | with_reducible apply dataTrk_kept | with_reducible apply clearEntry_kept
    | with_reducible apply shareTrk_kept | with_reducible apply ackTrk_kept | with_reducible apply writeTrk_kept | split
    | (rename State => x; subst x) | with_reducible apply flex_kept | with_reducible exact PortsKept.refl _
    | (simp only [List.length_modify, List.length_map, List.length_set, lmod]; done))

theorem workClaim_kept {σ τ : State} (hw : Kept σ τ) (t : Tracker) : Kept σ (workClaim t τ) := by
  unfold workClaim
  repeat' (first
    | (extract_lets +onlyGivenNames x; try (refine (fun hx : Kept σ x => ?_) ?_; on_goal 1 => clear_value x; on_goal 2 => subst x))
    | with_reducible assumption | with_reducible rfl | with_reducible exact (fun h => h) | intro _ _ _ _ _ | intro _ _ _ _ | intro _ _ _ | intro _ _
    | with_reducible apply shareTrk_kept | with_reducible apply dataTrk_kept | with_reducible apply startProbe_kept
    | with_reducible apply withWay_kept | with_reducible apply putEntry_kept | with_reducible apply finishClaim_kept
    | with_reducible apply afterCommit_kept | with_reducible apply homeCommit_kept | with_reducible apply clearEntry_kept
    | with_reducible apply ackTrk_kept | with_reducible apply evictClean_kept | with_reducible apply lockTrk_kept
    | with_reducible apply unlockTrk_kept | split | (rename State => x; subst x) | with_reducible apply flex_kept
    | with_reducible exact PortsKept.refl _ | (simp only [List.length_modify, List.length_map, List.length_set, lmod]; done) | dsimp only)

theorem replayTrk_kept {σ τ : State} (hw : Kept σ τ) (t : Tracker) (ver : Word) : Kept σ (replayTrk t ver τ) := by
  unfold replayTrk
  repeat' (first
    | (extract_lets +onlyGivenNames x; try (refine (fun hx : Kept σ x => ?_) ?_; on_goal 1 => clear_value x; on_goal 2 => subst x))
    | with_reducible assumption | with_reducible rfl | with_reducible exact (fun h => h) | with_reducible apply mirrorSend_kept
    | with_reducible apply modTrk_kept | with_reducible apply writeDone_kept | split | (rename State => x; subst x) | with_reducible apply flex_kept
    | with_reducible exact PortsKept.refl _ | (simp only [List.length_modify, List.length_map, List.length_set, lmod]; done))

theorem workTrk_kept {σ τ : State} (hw : Kept σ τ) (t : Tracker) : Kept σ (workTrk t τ) := by
  unfold workTrk
  repeat' (first
    | (extract_lets +onlyGivenNames x; try (refine (fun hx : Kept σ x => ?_) ?_; on_goal 1 => clear_value x; on_goal 2 => subst x))
    | with_reducible assumption | with_reducible rfl | with_reducible exact (fun h => h) | with_reducible apply replayTrk_kept
    | with_reducible apply ackTrk_kept | with_reducible apply workClaim_kept | with_reducible apply workPublish_kept | split
    | (rename State => x; subst x) | with_reducible apply flex_kept | with_reducible exact PortsKept.refl _
    | (simp only [List.length_modify, List.length_map, List.length_set, lmod]; done))

theorem startNext_kept {σ τ : State} (hw : Kept σ τ) (la : Nat) : Kept σ (startNext la τ) := by
  unfold startNext
  repeat' (first
    | (extract_lets +onlyGivenNames x; try (refine (fun hx : Kept σ x => ?_) ?_; on_goal 1 => clear_value x; on_goal 2 => subst x))
    | with_reducible assumption | with_reducible rfl | with_reducible exact (fun h => h) | with_reducible apply dirTrk_kept
    | with_reducible apply workTrk_kept | with_reducible apply modTrk_kept | split | (rename State => x; subst x) | with_reducible apply flex_kept
    | with_reducible exact PortsKept.refl _ | (simp only [List.length_modify, List.length_map, List.length_set, lmod]; done))

theorem nakReq_kept {σ τ : State} (hw : Kept σ τ) (t : Tracker) : Kept σ (nakReq t τ) := by
  unfold nakReq
  repeat' (first
    | (extract_lets +onlyGivenNames x; try (refine (fun hx : Kept σ x => ?_) ?_; on_goal 1 => clear_value x; on_goal 2 => subst x))
    | with_reducible assumption | with_reducible rfl | with_reducible exact (fun h => h) | with_reducible apply raise_kept
    | with_reducible apply perf_kept | with_reducible apply cohCount_kept | with_reducible apply queueMsg_kept | split | (rename State => x; subst x)
    | with_reducible apply flex_kept | with_reducible exact PortsKept.refl _
    | (simp only [List.length_modify, List.length_map, List.length_set, lmod]; done))

theorem joinFifo_kept {σ τ : State} (hw : Kept σ τ) (t : Tracker) : Kept σ (joinFifo t τ) := by
  unfold joinFifo
  repeat' (first
    | (extract_lets +onlyGivenNames x; try (refine (fun hx : Kept σ x => ?_) ?_; on_goal 1 => clear_value x; on_goal 2 => subst x))
    | with_reducible assumption | with_reducible rfl | with_reducible exact (fun h => h) | with_reducible apply perf_kept
    | with_reducible apply workTrk_kept | split | (rename State => x; subst x) | with_reducible apply flex_kept
    | with_reducible exact PortsKept.refl _ | (simp only [List.length_modify, List.length_map, List.length_set, lmod]; done))

theorem homeRequest_kept {σ τ : State} (hw : Kept σ τ) (r : Rx) : Kept σ (homeRequest r τ) := by
  unfold homeRequest
  repeat' (first
    | (extract_lets +onlyGivenNames x; try (refine (fun hx : Kept σ x => ?_) ?_; on_goal 1 => clear_value x; on_goal 2 => subst x))
    | with_reducible assumption | with_reducible rfl | with_reducible exact (fun h => h) | with_reducible apply queueMsg_kept
    | with_reducible apply nakReq_kept | with_reducible apply perf_kept | with_reducible apply cohCount_kept | with_reducible apply joinFifo_kept
    | split | (rename State => x; subst x) | with_reducible apply flex_kept | with_reducible exact PortsKept.refl _
    | (simp only [List.length_modify, List.length_map, List.length_set, lmod]; done))

theorem homeLocal_kept {σ τ : State} (hw : Kept σ τ) (b : Nat) (m : LineMsg) (claim : Bool) : Kept σ (homeLocal b m claim τ).1 := by
  unfold homeLocal
  repeat' (first
    | (extract_lets +onlyGivenNames x; try (refine (fun hx : Kept σ x => ?_) ?_; on_goal 1 => clear_value x; on_goal 2 => subst x))
    | with_reducible assumption | with_reducible rfl | with_reducible exact (fun h => h) | with_reducible apply joinFifo_kept | split
    | (rename State => x; subst x) | with_reducible apply flex_kept | with_reducible exact PortsKept.refl _
    | (simp only [List.length_modify, List.length_map, List.length_set, lmod]; done))

theorem probesIn_kept {σ τ : State} (hw : Kept σ τ) (t : Tracker) : Kept σ (probesIn t τ) := by
  unfold probesIn
  repeat' (first
    | (extract_lets +onlyGivenNames x; try (refine (fun hx : Kept σ x => ?_) ?_; on_goal 1 => clear_value x; on_goal 2 => subst x))
    | with_reducible assumption | with_reducible rfl | with_reducible exact (fun h => h) | with_reducible apply setLine_kept
    | with_reducible apply setEntry_kept | with_reducible apply freeTrk_kept | with_reducible apply startProbe_kept
    | with_reducible apply putEntry_kept | with_reducible apply clearEntry_kept | with_reducible apply finishClaim_kept | split
    | (rename State => x; subst x) | with_reducible apply flex_kept | with_reducible exact PortsKept.refl _)

theorem answered_kept {σ τ : State} (hw : Kept σ τ) (ix k : Nat) (f : Tracker → Tracker) : Kept σ (answered ix k f τ) := by
  unfold answered
  repeat' (first
    | (extract_lets +onlyGivenNames x; try (refine (fun hx : Kept σ x => ?_) ?_; on_goal 1 => clear_value x; on_goal 2 => subst x))
    | with_reducible assumption | with_reducible rfl | with_reducible exact (fun h => h) | with_reducible apply modTrk_kept
    | with_reducible apply probesIn_kept | split | (rename State => x; subst x) | with_reducible apply flex_kept
    | with_reducible exact PortsKept.refl _)

theorem takeInvAck_kept {σ τ : State} (hw : Kept σ τ) (r : Rx) : Kept σ (takeInvAck r τ) := by
  unfold takeInvAck
  repeat' (first
    | (extract_lets +onlyGivenNames x; try (refine (fun hx : Kept σ x => ?_) ?_; on_goal 1 => clear_value x; on_goal 2 => subst x))
    | with_reducible assumption | with_reducible rfl | with_reducible exact (fun h => h) | with_reducible apply returnCredit_kept
    | with_reducible apply answered_kept | split | (rename State => x; subst x) | with_reducible apply flex_kept
    | with_reducible exact PortsKept.refl _)

theorem commitRecall_kept {σ τ : State} (hw : Kept σ τ) (la : Nat) (data : Line) (key : Option WKey) : Kept σ (commitRecall la data key τ) := by
  unfold commitRecall
  repeat' (first | with_reducible assumption | with_reducible apply mirrorSend_kept | with_reducible apply homeCommit_kept)

theorem takeRecallData_kept {σ τ : State} (hw : Kept σ τ) (r : Rx) : Kept σ (takeRecallData r τ) := by
  unfold takeRecallData
  repeat' (first
    | (extract_lets +onlyGivenNames x; try (refine (fun hx : Kept σ x => ?_) ?_; on_goal 1 => clear_value x; on_goal 2 => subst x))
    | with_reducible assumption | with_reducible rfl | with_reducible exact (fun h => h) | with_reducible apply raise_kept
    | with_reducible apply setLine_kept | with_reducible apply returnCredit_kept | with_reducible apply answered_kept
    | with_reducible apply commitRecall_kept | split | (rename State => x; subst x) | with_reducible apply flex_kept
    | with_reducible exact PortsKept.refl _)

theorem takeWriteback_kept {σ τ : State} (hw : Kept σ τ) (t : Tracker) (r : Rx) : Kept σ (takeWriteback t r τ) := by
  unfold takeWriteback
  repeat' (first
    | (extract_lets +onlyGivenNames x; try (refine (fun hx : Kept σ x => ?_) ?_; on_goal 1 => clear_value x; on_goal 2 => subst x))
    | with_reducible assumption | with_reducible rfl | with_reducible exact (fun h => h) | with_reducible apply queueMsg_kept
    | with_reducible apply homeCommit_kept | with_reducible apply mirrorSend_kept | with_reducible apply queueWrote_kept
    | with_reducible apply returnCredit_kept | with_reducible apply answered_kept | split | (rename State => x; subst x)
    | with_reducible apply flex_kept | with_reducible exact PortsKept.refl _
    | (simp only [List.length_modify, List.length_map, List.length_set, lmod]; done))

theorem homeWriteback_kept {σ τ : State} (hw : Kept σ τ) (r : Rx) : Kept σ (homeWriteback r τ) := by
  unfold homeWriteback
  repeat' (first
    | (extract_lets +onlyGivenNames x; try (refine (fun hx : Kept σ x => ?_) ?_; on_goal 1 => clear_value x; on_goal 2 => subst x))
    | with_reducible assumption | with_reducible rfl | with_reducible exact (fun h => h) | with_reducible apply takeWriteback_kept
    | with_reducible apply homeRequest_kept | split | (rename State => x; subst x) | with_reducible apply flex_kept
    | with_reducible exact PortsKept.refl _ | (simp only [List.length_modify, List.length_map, List.length_set, lmod]; done))

theorem takeRecallNodata_kept {σ τ : State} (hw : Kept σ τ) (r : Rx) : Kept σ (takeRecallNodata r τ) := by
  unfold takeRecallNodata
  repeat' (first
    | (extract_lets +onlyGivenNames x; try (refine (fun hx : Kept σ x => ?_) ?_; on_goal 1 => clear_value x; on_goal 2 => subst x))
    | with_reducible assumption | with_reducible rfl | with_reducible exact (fun h => h) | with_reducible apply answered_kept
    | with_reducible apply returnCredit_kept | with_reducible apply takeWriteback_kept | with_reducible apply freeTrk_kept
    | with_reducible apply modTrk_kept | split | (rename State => x; subst x) | with_reducible apply flex_kept | with_reducible exact PortsKept.refl _
    | (simp only [List.length_modify, List.length_map, List.length_set, lmod]; done))

theorem mirrorAnswer_kept {σ τ : State} (hw : Kept σ τ) (la : Nat) (version : Word) : Kept σ (mirrorAnswer la version τ) := by
  unfold mirrorAnswer
  repeat' (first
    | (extract_lets +onlyGivenNames x; try (refine (fun hx : Kept σ x => ?_) ?_; on_goal 1 => clear_value x; on_goal 2 => subst x))
    | with_reducible assumption | with_reducible rfl | with_reducible exact (fun h => h) | with_reducible apply each_kept | intro _ _ _
    | with_reducible apply freeTrk_kept | with_reducible apply writeDone_kept | with_reducible apply queueWrote_kept | split
    | (rename State => x; subst x) | with_reducible apply flex_kept | with_reducible exact PortsKept.refl _
    | (simp only [List.length_modify, List.length_map, List.length_set, lmod]; done) | dsimp only)

theorem homeResendOp_kept {σ τ : State} (hw : Kept σ τ) (ix : Nat) : Kept σ (homeResendOp ix τ) := by
  unfold homeResendOp
  repeat' (first
    | (extract_lets +onlyGivenNames x; try (refine (fun hx : Kept σ x => ?_) ?_; on_goal 1 => clear_value x; on_goal 2 => subst x))
    | with_reducible assumption | with_reducible rfl | with_reducible exact (fun h => h) | with_reducible apply each_kept | intro _ _ _
    | with_reducible apply modTrk_kept | with_reducible apply cohCount_kept | with_reducible apply queueMsg_kept | split
    | (rename State => x; subst x) | with_reducible apply flex_kept | with_reducible exact PortsKept.refl _
    | (simp only [List.length_modify, List.length_map, List.length_set, lmod]; done))

theorem leaseEnd_kept {σ τ : State} (hw : Kept σ τ) (l : Lease) : Kept σ (leaseEnd l τ) := by
  unfold leaseEnd
  repeat' (first
    | (extract_lets +onlyGivenNames x; try (refine (fun hx : Kept σ x => ?_) ?_; on_goal 1 => clear_value x; on_goal 2 => subst x))
    | with_reducible assumption | with_reducible rfl | with_reducible exact (fun h => h) | with_reducible apply queueMsg_kept
    | with_reducible apply cohCount_kept | split | (rename State => x; subst x) | with_reducible apply flex_kept
    | with_reducible exact PortsKept.refl _)

/-! ### Operands -/

theorem learnCls_kept {σ τ : State} (hw : Kept σ τ) (la : Nat) (c : Cls) : Kept σ (learnCls la c τ) := by
  unfold learnCls
  repeat' (first
    | (extract_lets +onlyGivenNames x; try (refine (fun hx : Kept σ x => ?_) ?_; on_goal 1 => clear_value x; on_goal 2 => subst x))
    | with_reducible assumption | with_reducible rfl | with_reducible exact (fun h => h) | split | (rename State => x; subst x)
    | with_reducible apply flex_kept | with_reducible exact PortsKept.refl _)

/-! ### Requester -/

theorem waitAs_kept {σ τ : State} (hw : Kept σ τ) (b : Nat) (w : BWait) : Kept σ (waitAs b w τ) := by
  unfold waitAs
  repeat' (first
    | (extract_lets +onlyGivenNames x; try (refine (fun hx : Kept σ x => ?_) ?_; on_goal 1 => clear_value x; on_goal 2 => subst x))
    | with_reducible assumption | with_reducible rfl | with_reducible exact (fun h => h) | with_reducible apply modBob_kept
    | (rename State => x; subst x) | with_reducible apply flex_kept | with_reducible exact PortsKept.refl _)

theorem sendReq_kept {σ τ : State} (hw : Kept σ τ) (b : Nat) (m : LineMsg) : Kept σ (sendReq b m τ) := by
  unfold sendReq
  repeat' (first
    | (extract_lets +onlyGivenNames x; try (refine (fun hx : Kept σ x => ?_) ?_; on_goal 1 => clear_value x; on_goal 2 => subst x))
    | with_reducible assumption | with_reducible rfl | with_reducible exact (fun h => h) | with_reducible apply setBob_kept
    | with_reducible apply queueMsg_kept | split | (rename State => x; subst x) | with_reducible apply flex_kept
    | with_reducible exact PortsKept.refl _)

theorem sendOwn_kept {σ τ : State} (hw : Kept σ τ) (ten op la : Nat) (d : Cls) (m : LineMsg) : Kept σ (sendOwn ten op la d m τ).1 := by
  unfold sendOwn
  repeat' (first
    | (extract_lets +onlyGivenNames x; try (refine (fun hx : Kept σ x => ?_) ?_; on_goal 1 => clear_value x; on_goal 2 => subst x))
    | with_reducible assumption | with_reducible rfl | with_reducible exact (fun h => h) | with_reducible apply withIntern_kept
    | (rename State => x; subst x) | with_reducible apply flex_kept | with_reducible exact PortsKept.refl _)

theorem ownSent_kept {σ τ : State} (hw : Kept σ τ) (op : Nat) : Kept σ (ownSent op τ) := by
  unfold ownSent
  repeat' (first
    | (extract_lets +onlyGivenNames x; try (refine (fun hx : Kept σ x => ?_) ?_; on_goal 1 => clear_value x; on_goal 2 => subst x))
    | with_reducible assumption | with_reducible rfl | with_reducible exact (fun h => h) | with_reducible apply perf_kept
    | with_reducible apply cohCount_kept | split | (rename State => x; subst x) | with_reducible apply flex_kept
    | with_reducible exact PortsKept.refl _ | (simp only [List.length_modify, List.length_map, List.length_set, lmod]; done))

theorem sendOwed_kept {σ τ : State} (hw : Kept σ τ) (ten : Nat) (op : Nat) (la : Nat) (d : Cls) (m : LineMsg) : Kept σ (sendOwed ten op la d m τ) := by
  unfold sendOwed
  repeat' (first
    | (extract_lets +onlyGivenNames x; try (refine (fun hx : Kept σ x => ?_) ?_; on_goal 1 => clear_value x; on_goal 2 => subst x))
    | with_reducible assumption | with_reducible rfl | with_reducible exact (fun h => h) | with_reducible apply sendOwn_kept
    | with_reducible apply ownSent_kept | split | (rename State => x; subst x) | with_reducible apply flex_kept
    | with_reducible exact PortsKept.refl _ | (simp only [List.length_modify, List.length_map, List.length_set, lmod]; done))

theorem refreshLine_kept {σ τ : State} (hw : Kept σ τ) (la : Nat) : Kept σ (refreshLine la τ) := by
  unfold refreshLine
  repeat' (first
    | (extract_lets +onlyGivenNames x; try (refine (fun hx : Kept σ x => ?_) ?_; on_goal 1 => clear_value x; on_goal 2 => subst x))
    | with_reducible assumption | with_reducible rfl | with_reducible exact (fun h => h) | with_reducible apply sendOwed_kept | split
    | (rename State => x; subst x) | with_reducible apply flex_kept | with_reducible exact PortsKept.refl _
    | (simp only [List.length_modify, List.length_map, List.length_set, lmod]; done))

theorem relyLease_kept {σ τ : State} (hw : Kept σ τ) (b la : Nat) : Kept σ (relyLease b la τ) := by
  unfold relyLease
  repeat' (first
    | (extract_lets +onlyGivenNames x; try (refine (fun hx : Kept σ x => ?_) ?_; on_goal 1 => clear_value x; on_goal 2 => subst x))
    | with_reducible assumption | with_reducible rfl | with_reducible exact (fun h => h) | with_reducible apply setBob_kept | split
    | (rename State => x; subst x) | with_reducible apply flex_kept | with_reducible exact PortsKept.refl _)

theorem startWriteback_kept {σ τ : State} (hw : Kept σ τ) (b : Nat) (k : Nat) (c : Copy) (keep : Bool) : Kept σ (startWriteback b k c keep τ) := by
  unfold startWriteback
  repeat' (first
    | (extract_lets +onlyGivenNames x; try (refine (fun hx : Kept σ x => ?_) ?_; on_goal 1 => clear_value x; on_goal 2 => subst x))
    | with_reducible assumption | with_reducible rfl | with_reducible exact (fun h => h) | with_reducible apply setCopy_kept
    | (rename State => x; subst x) | with_reducible apply flex_kept | with_reducible exact PortsKept.refl _)

theorem evictM_kept {σ τ : State} (hw : Kept σ τ) (k : Nat) (c : Copy) (keep : Bool) : Kept σ (evictM k c keep τ) := by
  unfold evictM
  repeat' (first
    | (extract_lets +onlyGivenNames x; try (refine (fun hx : Kept σ x => ?_) ?_; on_goal 1 => clear_value x; on_goal 2 => subst x))
    | with_reducible assumption | with_reducible rfl | with_reducible exact (fun h => h) | with_reducible apply perf_kept
    | with_reducible apply sendOwn_kept | with_reducible apply startWriteback_kept | split | (rename State => x; subst x)
    | with_reducible apply flex_kept | with_reducible exact PortsKept.refl _)

theorem evictP_kept {σ τ : State} (hw : Kept σ τ) (k : Nat) (c : Copy) : Kept σ (evictP k c τ) := by
  unfold evictP
  repeat' (first
    | (extract_lets +onlyGivenNames x; try (refine (fun hx : Kept σ x => ?_) ?_; on_goal 1 => clear_value x; on_goal 2 => subst x))
    | with_reducible assumption | with_reducible rfl | with_reducible exact (fun h => h) | with_reducible apply subLost_kept
    | with_reducible apply dropWay_kept | with_reducible apply sendOwed_kept | split | (rename State => x; subst x) | with_reducible apply flex_kept
    | with_reducible exact PortsKept.refl _ | (simp only [List.length_modify, List.length_map, List.length_set, lmod]; done))

theorem takeWay_kept {σ τ : State} (hw : Kept σ τ) (b la : Nat) : Kept σ (takeWay b la τ).1 := by
  unfold takeWay
  repeat' (first
    | (extract_lets +onlyGivenNames x; try (refine (fun hx : Kept σ x => ?_) ?_; on_goal 1 => clear_value x; on_goal 2 => subst x))
    | with_reducible assumption | with_reducible rfl | with_reducible exact (fun h => h) | with_reducible apply raise_kept
    | with_reducible apply setCopy_kept | with_reducible apply evictM_kept | with_reducible apply evictP_kept | split
    | (rename State => x; subst x) | with_reducible apply flex_kept | with_reducible exact PortsKept.refl _)

theorem wayFor_kept {σ τ : State} (hw : Kept σ τ) (b la : Nat) : Kept σ (wayFor b la τ).1 := by
  unfold wayFor
  repeat' (first
    | (extract_lets +onlyGivenNames x; try (refine (fun hx : Kept σ x => ?_) ?_; on_goal 1 => clear_value x; on_goal 2 => subst x))
    | with_reducible assumption | with_reducible rfl | with_reducible exact (fun h => h) | with_reducible apply takeWay_kept | split
    | (rename State => x; subst x) | with_reducible apply flex_kept | with_reducible exact PortsKept.refl _)

theorem startFill_kept {σ τ : State} (hw : Kept σ τ) (b k la : Nat) (st : CState) (m : LineMsg) : Kept σ (startFill b k la st m τ) := by
  unfold startFill
  repeat' (first | with_reducible assumption | with_reducible apply setCopy_kept | with_reducible apply sendReq_kept)

theorem lineJob_kept {σ τ : State} (hw : Kept σ τ) (op b : Nat) (home remote : Bobbin → Nat → State → State)
    (hh : ∀ v la u, Kept σ u → Kept σ (home v la u)) (hr : ∀ v la u, Kept σ u → Kept σ (remote v la u)) :
    Kept σ (lineJob op b home remote τ) := by
  unfold lineJob
  repeat' first | with_reducible assumption | apply hh | apply hr | apply waitAs_kept | split | extract_lets

theorem onLanes_kept {σ τ : State} (hw : Kept σ τ) (b : Nat) (v : Bobbin) (write : Bool) (go : State → State)
    (hg : ∀ u, Kept σ u → Kept σ (go u)) : Kept σ (onLanes b v write go τ) := by
  unfold onLanes
  repeat' (first
    | with_reducible assumption | apply hg | with_reducible apply waitAs_kept | with_reducible apply finishLine_kept | split | extract_lets)

theorem atHome_kept {σ τ : State} (hw : Kept σ τ) (b : Nat) (v : Bobbin) (write : Bool) (m : LineMsg) : Kept σ (atHome b v write m τ) := by
  unfold atHome
  repeat' (first
    | (extract_lets +onlyGivenNames x; try (refine (fun hx : Kept σ x => ?_) ?_; on_goal 1 => clear_value x; on_goal 2 => subst x))
    | with_reducible assumption | with_reducible rfl | with_reducible exact (fun h => h) | with_reducible apply homeLocal_kept
    | with_reducible apply waitAs_kept | split | (rename State => x; subst x) | with_reducible apply flex_kept
    | with_reducible exact PortsKept.refl _)

theorem readCopy_kept {σ τ : State} (hw : Kept σ τ) (b : Nat) (v : Bobbin) (c : Copy) : Kept σ (readCopy b v c τ) := by
  unfold readCopy
  repeat' (first
    | (extract_lets +onlyGivenNames x; try (refine (fun hx : Kept σ x => ?_) ?_; on_goal 1 => clear_value x; on_goal 2 => subst x))
    | with_reducible assumption | with_reducible apply perf_kept | with_reducible apply touch_kept | with_reducible apply finishLine_kept
    | (rename State => x; subst x))

theorem readHomeReq_kept {σ τ : State} (hw : Kept σ τ) (b la : Nat) : Kept σ (readHomeReq b la τ) := by
  unfold readHomeReq
  repeat' (first | with_reducible assumption | with_reducible apply sendReq_kept)

theorem readRemote_kept {σ τ : State} (hw : Kept σ τ) (b : Nat) (v : Bobbin) (la : Nat) : Kept σ (readRemote b v la τ) := by
  unfold readRemote
  repeat' (first
    | (extract_lets +onlyGivenNames x; try (refine (fun hx : Kept σ x => ?_) ?_; on_goal 1 => clear_value x; on_goal 2 => subst x))
    | with_reducible assumption | with_reducible rfl | with_reducible exact (fun h => h) | intro _ _ _ _ | intro _ _ _ | intro _ _
    | with_reducible apply perf_kept | with_reducible apply finishLine_kept | with_reducible apply waitAs_kept | with_reducible apply wayFor_kept
    | with_reducible apply startFill_kept | with_reducible apply onLanes_kept | with_reducible apply readCopy_kept
    | with_reducible apply readHomeReq_kept | split | (rename State => x; subst x) | with_reducible apply flex_kept
    | with_reducible exact PortsKept.refl _)

theorem readJob_kept {σ τ : State} (hw : Kept σ τ) (op b : Nat) : Kept σ (readJob op b τ) := by
  unfold readJob
  repeat' (first
    | with_reducible assumption | intro _ _ _ _ | intro _ _ _ | intro _ _ | with_reducible apply lineJob_kept | with_reducible apply atHome_kept
    | with_reducible apply readRemote_kept)

theorem readFreshJob_kept {σ τ : State} (hw : Kept σ τ) (b : Nat) : Kept σ (readFreshJob b τ) := by
  unfold readFreshJob
  repeat' (first
    | (extract_lets +onlyGivenNames x; try (refine (fun hx : Kept σ x => ?_) ?_; on_goal 1 => clear_value x; on_goal 2 => subst x))
    | with_reducible assumption | with_reducible rfl | with_reducible exact (fun h => h) | intro _ _ _ _ | intro _ _ _ | intro _ _
    | with_reducible apply lineJob_kept | with_reducible apply onLanes_kept | with_reducible apply atHome_kept
    | with_reducible apply readCopy_kept | with_reducible apply readHomeReq_kept | split | (rename State => x; subst x)
    | with_reducible apply flex_kept | with_reducible exact PortsKept.refl _)

theorem writeCopy_kept {σ τ : State} (hw : Kept σ τ) (b : Nat) (v : Bobbin) (k : Nat) (c : Copy) : Kept σ (writeCopy b v k c τ) := by
  unfold writeCopy
  repeat' (first
    | (extract_lets +onlyGivenNames x; try (refine (fun hx : Kept σ x => ?_) ?_; on_goal 1 => clear_value x; on_goal 2 => subst x))
    | with_reducible assumption | with_reducible rfl | with_reducible exact (fun h => h) | with_reducible apply setCopy_kept
    | with_reducible apply touch_kept | with_reducible apply finishLine_kept | (rename State => x; subst x) | with_reducible apply flex_kept
    | with_reducible exact PortsKept.refl _)

theorem claimRemote_kept {σ τ : State} (hw : Kept σ τ) (b : Nat) (v : Bobbin) (la : Nat) : Kept σ (claimRemote b v la τ) := by
  unfold claimRemote
  repeat' (first
    | (extract_lets +onlyGivenNames x; try (refine (fun hx : Kept σ x => ?_) ?_; on_goal 1 => clear_value x; on_goal 2 => subst x))
    | with_reducible assumption | with_reducible rfl | with_reducible exact (fun h => h) | with_reducible apply perf_kept
    | with_reducible apply setCopy_kept | with_reducible apply waitAs_kept | with_reducible apply sendReq_kept | with_reducible apply wayFor_kept
    | with_reducible apply startFill_kept | with_reducible apply writeCopy_kept | split | (rename State => x; subst x)
    | with_reducible apply flex_kept | with_reducible exact PortsKept.refl _)

theorem writeJob_kept {σ τ : State} (hw : Kept σ τ) (op b : Nat) : Kept σ (writeJob op b τ) := by
  unfold writeJob
  repeat' (first
    | (extract_lets +onlyGivenNames x; try (refine (fun hx : Kept σ x => ?_) ?_; on_goal 1 => clear_value x; on_goal 2 => subst x))
    | with_reducible assumption | intro _ _ _ _ | intro _ _ _ | intro _ _ | with_reducible apply sendReq_kept
    | with_reducible apply relyLease_kept | with_reducible apply lineJob_kept | with_reducible apply onLanes_kept
    | with_reducible apply atHome_kept | with_reducible apply claimRemote_kept | split | (rename State => x; subst x))

theorem atomicJob_kept {σ τ : State} (hw : Kept σ τ) (b : Nat) : Kept σ (atomicJob b τ) := by
  unfold atomicJob
  repeat' (first
    | (extract_lets +onlyGivenNames x; try (refine (fun hx : Kept σ x => ?_) ?_; on_goal 1 => clear_value x; on_goal 2 => subst x))
    | with_reducible assumption | with_reducible rfl | with_reducible exact (fun h => h) | intro _ _ _ _ | intro _ _ _ | intro _ _
    | with_reducible apply perf_kept | with_reducible apply dropWay_kept | with_reducible apply sendReq_kept
    | with_reducible apply relyLease_kept | with_reducible apply evictM_kept | with_reducible apply lineJob_kept
    | with_reducible apply onLanes_kept | with_reducible apply atHome_kept | split | (rename State => x; subst x)
    | with_reducible apply flex_kept | with_reducible exact PortsKept.refl _)

theorem lockJob_kept {σ τ : State} (hw : Kept σ τ) (b : Nat) : Kept σ (lockJob b τ) := by
  unfold lockJob
  repeat' (first
    | (extract_lets +onlyGivenNames x; try (refine (fun hx : Kept σ x => ?_) ?_; on_goal 1 => clear_value x; on_goal 2 => subst x))
    | with_reducible assumption | intro _ _ _ _ | intro _ _ _ | intro _ _ | with_reducible apply sendReq_kept | with_reducible apply lineJob_kept
    | with_reducible apply onLanes_kept | with_reducible apply atHome_kept | (rename State => x; subst x))

theorem unlockJob_kept {σ τ : State} (hw : Kept σ τ) (b : Nat) : Kept σ (unlockJob b τ) := by
  unfold unlockJob
  repeat' (first
    | (extract_lets +onlyGivenNames x; try (refine (fun hx : Kept σ x => ?_) ?_; on_goal 1 => clear_value x; on_goal 2 => subst x))
    | with_reducible assumption | intro _ _ _ _ | intro _ _ _ | intro _ _ | with_reducible apply sendReq_kept
    | with_reducible apply relyLease_kept | with_reducible apply lineJob_kept | with_reducible apply onLanes_kept
    | with_reducible apply atHome_kept | (rename State => x; subst x))

theorem subscribeJob_kept {σ τ : State} (hw : Kept σ τ) (b : Nat) : Kept σ (subscribeJob b τ) := by
  unfold subscribeJob
  repeat' (first
    | (extract_lets +onlyGivenNames x; try (refine (fun hx : Kept σ x => ?_) ?_; on_goal 1 => clear_value x; on_goal 2 => subst x))
    | with_reducible assumption | with_reducible rfl | with_reducible exact (fun h => h) | intro _ _ _ _ | intro _ _ _ | intro _ _
    | with_reducible apply addSub_kept | with_reducible apply finishLine_kept | with_reducible apply waitAs_kept
    | with_reducible apply wayFor_kept | with_reducible apply startFill_kept | with_reducible apply lineJob_kept
    | with_reducible apply onLanes_kept | split | (rename State => x; subst x) | with_reducible apply flex_kept
    | with_reducible exact PortsKept.refl _)

theorem unsubscribeJob_kept {σ τ : State} (hw : Kept σ τ) (b : Nat) : Kept σ (unsubscribeJob b τ) := by
  unfold unsubscribeJob
  repeat' (first
    | (extract_lets +onlyGivenNames x; try (refine (fun hx : Kept σ x => ?_) ?_; on_goal 1 => clear_value x; on_goal 2 => subst x))
    | with_reducible assumption | with_reducible rfl | with_reducible exact (fun h => h) | intro _ _ _ _ _ | intro _ _ _ _ | intro _ _ _ | intro _ _
    | with_reducible apply finishLine_kept | with_reducible apply lineJob_kept | with_reducible apply delSub_kept | with_reducible apply waitAs_kept
    | with_reducible apply onLanes_kept | with_reducible apply sendReq_kept | with_reducible apply dropWay_kept | split | (rename State => x; subst x)
    | with_reducible apply flex_kept | with_reducible exact PortsKept.refl _
    | (simp only [List.length_modify, List.length_map, List.length_set, lmod]; done) | dsimp only)

theorem evictClean_kept {σ τ : State} (hw : Kept σ τ) (b k : Nat) (c : Copy) : Kept σ (evictClean b k c τ) := by
  unfold evictClean
  repeat' (first
    | (extract_lets +onlyGivenNames x; try (refine (fun hx : Kept σ x => ?_) ?_; on_goal 1 => clear_value x; on_goal 2 => subst x))
    | with_reducible assumption | with_reducible rfl | with_reducible exact (fun h => h) | with_reducible apply setCopy_kept
    | with_reducible apply sendReq_kept | (rename State => x; subst x) | with_reducible apply flex_kept | with_reducible exact PortsKept.refl _)

theorem writeBack_kept {σ τ : State} (hw : Kept σ τ) (b k : Nat) (c : Copy) (keep : Bool) : Kept σ (writeBack b k c keep τ) := by
  unfold writeBack
  repeat' (first | with_reducible assumption | with_reducible apply sendReq_kept | with_reducible apply startWriteback_kept)

theorem maintain_kept {σ τ : State} (hw : Kept σ τ) (op b : Nat) (v : Bobbin) (la : Nat) : Kept σ (maintain op b v la τ) := by
  unfold maintain
  repeat' (first
    | (extract_lets +onlyGivenNames x; try (refine (fun hx : Kept σ x => ?_) ?_; on_goal 1 => clear_value x; on_goal 2 => subst x))
    | with_reducible assumption | with_reducible rfl | with_reducible exact (fun h => h) | intro _ _ _ _ | intro _ _ _ | intro _ _
    | with_reducible apply count_kept | with_reducible apply perf_kept | with_reducible apply setCopy_kept | with_reducible apply finishLine_kept
    | with_reducible apply waitAs_kept | with_reducible apply sendReq_kept | with_reducible apply onLanes_kept
    | with_reducible apply evictClean_kept | with_reducible apply writeBack_kept | split | (rename State => x; subst x)
    | with_reducible apply flex_kept | with_reducible exact PortsKept.refl _)

theorem maintainJob_kept {σ τ : State} (hw : Kept σ τ) (op : Nat) (b : Nat) : Kept σ (maintainJob op b τ) := by
  unfold maintainJob
  repeat' (first
    | (extract_lets +onlyGivenNames x; try (refine (fun hx : Kept σ x => ?_) ?_; on_goal 1 => clear_value x; on_goal 2 => subst x))
    | with_reducible assumption | with_reducible rfl | with_reducible exact (fun h => h) | with_reducible apply finishLine_kept
    | with_reducible apply release_kept | with_reducible apply waitAs_kept | with_reducible apply maintain_kept | split | (rename State => x; subst x)
    | with_reducible apply flex_kept | with_reducible exact PortsKept.refl _
    | (simp only [List.length_modify, List.length_map, List.length_set, lmod]; done) | dsimp only)

theorem attachedApply_kept {σ τ : State} (hw : Kept σ τ) (b : Nat) (filled : Bool) : Kept σ (attachedApply b filled τ) := by
  unfold attachedApply
  repeat' (first
    | (extract_lets +onlyGivenNames x; try (refine (fun hx : Kept σ x => ?_) ?_; on_goal 1 => clear_value x; on_goal 2 => subst x))
    | with_reducible assumption | with_reducible apply each_kept | intro _ _ _ | with_reducible apply finishLine_kept
    | with_reducible apply waitAs_kept | with_reducible apply maintain_kept | split | (rename State => x; subst x))

theorem prefetchJob_kept {σ τ : State} (hw : Kept σ τ) (b : Nat) : Kept σ (prefetchJob b τ) := by
  unfold prefetchJob
  repeat' (first
    | (extract_lets +onlyGivenNames x; try (refine (fun hx : Kept σ x => ?_) ?_; on_goal 1 => clear_value x; on_goal 2 => subst x))
    | with_reducible assumption | with_reducible rfl | with_reducible exact (fun h => h) | intro _ _ _ _ _ | intro _ _ _ _ | intro _ _ _ | intro _ _
    | with_reducible apply finishLine_kept | with_reducible apply onLanes_kept | with_reducible apply wayFor_kept
    | with_reducible apply startFill_kept | with_reducible apply waitAs_kept | split | (rename State => x; subst x) | with_reducible apply flex_kept
    | with_reducible exact PortsKept.refl _ | (simp only [List.length_modify, List.length_map, List.length_set, lmod]; done) | dsimp only)

theorem pinJob_kept {σ τ : State} (hw : Kept σ τ) (b : Nat) : Kept σ (pinJob b τ) := by
  unfold pinJob
  repeat' (first
    | (extract_lets +onlyGivenNames x; try (refine (fun hx : Kept σ x => ?_) ?_; on_goal 1 => clear_value x; on_goal 2 => subst x))
    | with_reducible assumption | with_reducible rfl | with_reducible exact (fun h => h) | with_reducible apply finishLine_kept | split
    | (rename State => x; subst x) | with_reducible apply flex_kept | with_reducible exact PortsKept.refl _
    | (simp only [List.length_modify, List.length_map, List.length_set, lmod]; done) | dsimp only)

theorem unpinJob_kept {σ τ : State} (hw : Kept σ τ) (b : Nat) : Kept σ (unpinJob b τ) := by
  unfold unpinJob
  repeat' (first
    | (extract_lets +onlyGivenNames x; try (refine (fun hx : Kept σ x => ?_) ?_; on_goal 1 => clear_value x; on_goal 2 => subst x))
    | with_reducible assumption | with_reducible rfl | with_reducible exact (fun h => h) | with_reducible apply finishLine_kept | split
    | (rename State => x; subst x) | with_reducible apply flex_kept | with_reducible exact PortsKept.refl _
    | (simp only [List.length_modify, List.length_map, List.length_set, lmod]; done) | dsimp only)

/-! ### Can -/

theorem portEvent_kept {σ τ : State} (hw : Kept σ τ) (p k i v : Nat) : Kept σ (portEvent p k i v τ) := by
  unfold portEvent
  repeat' (first | with_reducible assumption | with_reducible apply raise_kept)

theorem portCount_kept {σ τ : State} (hw : Kept σ τ) (p i : Nat) : Kept σ (portCount p i τ) := by
  unfold portCount
  repeat' (first | with_reducible assumption | with_reducible apply count_kept)

theorem objFlag_kept {σ τ : State} (hw : Kept σ τ) (p k i : Nat) (on : Bool) : Kept σ (objFlag p k i on τ) := by
  unfold objFlag
  repeat' (first
    | (focus (intro c hm; (try extract_lets); (try dsimp only); with_reducible (repeat' first | exact hm | apply memPuts_wf | apply memPut_wf | split); done))
    | (focus (intro hm; (try extract_lets); (try dsimp only); with_reducible (repeat' first | exact hm | apply memPuts_wf | apply memPut_wf | split); done)) | (extract_lets +onlyGivenNames x; try (refine (fun hx : Kept σ x => ?_) ?_; on_goal 1 => clear_value x; on_goal 2 => subst x))
    | with_reducible assumption | with_reducible rfl | with_reducible exact (fun h => h) | with_reducible apply modPort_kept | split
    | (rename State => x; subst x) | with_reducible apply flex_kept | with_reducible exact PortsKept.refl _)

theorem settleBus_kept {σ τ : State} (hw : Kept σ τ) (p : Nat) : Kept σ (settleBus p τ) := by
  unfold settleBus
  repeat' (first
    | (focus (intro c hm; (try extract_lets); (try dsimp only); with_reducible (repeat' first | exact hm | apply memPuts_wf | apply memPut_wf | split); done))
    | (focus (intro hm; (try extract_lets); (try dsimp only); with_reducible (repeat' first | exact hm | apply memPuts_wf | apply memPut_wf | split); done)) | (extract_lets +onlyGivenNames x; try (refine (fun hx : Kept σ x => ?_) ?_; on_goal 1 => clear_value x; on_goal 2 => subst x))
    | with_reducible assumption | with_reducible rfl | with_reducible exact (fun h => h) | with_reducible apply modPort_kept | split
    | (rename State => x; subst x) | with_reducible apply flex_kept | with_reducible exact PortsKept.refl _)

theorem arbitrate_kept {σ τ : State} (hw : Kept σ τ) (p : Nat) : Kept σ (arbitrate p τ) := by
  unfold arbitrate
  repeat' (first
    | (focus (intro c hm; (try extract_lets); (try dsimp only); with_reducible (repeat' first | exact hm | apply memPuts_wf | apply memPut_wf | split); done))
    | (focus (intro hm; (try extract_lets); (try dsimp only); with_reducible (repeat' first | exact hm | apply memPuts_wf | apply memPut_wf | split); done)) | (extract_lets +onlyGivenNames x; try (refine (fun hx : Kept σ x => ?_) ?_; on_goal 1 => clear_value x; on_goal 2 => subst x))
    | with_reducible assumption | with_reducible rfl | with_reducible exact (fun h => h) | with_reducible apply modPort_kept | split
    | (rename State => x; subst x) | with_reducible apply flex_kept | with_reducible exact PortsKept.refl _)

theorem endAttempt_kept {σ τ : State} (hw : Kept σ τ) (p k : Nat) : Kept σ (endAttempt p k τ) := by
  unfold endAttempt
  repeat' (first
    | (focus (intro c hm; (try extract_lets); (try dsimp only); with_reducible (repeat' first | exact hm | apply memPuts_wf | apply memPut_wf | split); done))
    | (focus (intro hm; (try extract_lets); (try dsimp only); with_reducible (repeat' first | exact hm | apply memPuts_wf | apply memPut_wf | split); done)) | (extract_lets +onlyGivenNames x; try (refine (fun hx : Kept σ x => ?_) ?_; on_goal 1 => clear_value x; on_goal 2 => subst x))
    | with_reducible assumption | with_reducible rfl | with_reducible exact (fun h => h) | with_reducible apply modPort_kept
    | with_reducible apply objFlag_kept | with_reducible apply arbitrate_kept | split | (rename State => x; subst x)
    | with_reducible apply flex_kept | with_reducible exact PortsKept.refl _)

theorem setQtx_kept {σ τ : State} (hw : Kept σ τ) (p b v : Nat) : Kept σ (setQtx p b v τ) := by
  unfold setQtx
  repeat' (first
    | (focus (intro c hm; (try extract_lets); (try dsimp only); with_reducible (repeat' first | exact hm | apply memPuts_wf | apply memPut_wf | split); done))
    | (focus (intro hm; (try extract_lets); (try dsimp only); with_reducible (repeat' first | exact hm | apply memPuts_wf | apply memPut_wf | split); done)) | (extract_lets +onlyGivenNames x; try (refine (fun hx : Kept σ x => ?_) ?_; on_goal 1 => clear_value x; on_goal 2 => subst x))
    | with_reducible assumption | with_reducible rfl | with_reducible exact (fun h => h) | with_reducible apply modPort_kept | split
    | (rename State => x; subst x) | with_reducible apply flex_kept | with_reducible exact PortsKept.refl _)

theorem txRequest_kept {σ τ : State} (hw : Kept σ τ) (p k : Nat) : Kept σ (txRequest p k τ) := by
  unfold txRequest
  repeat' (first | with_reducible assumption | with_reducible apply objFlag_kept | with_reducible apply arbitrate_kept | split)

theorem txCancel_kept {σ τ : State} (hw : Kept σ τ) (p k : Nat) : Kept σ (txCancel p k τ) := by
  unfold txCancel
  repeat' (first
    | (focus (intro c hm; (try extract_lets); (try dsimp only); with_reducible (repeat' first | exact hm | apply memPuts_wf | apply memPut_wf | split); done))
    | (focus (intro hm; (try extract_lets); (try dsimp only); with_reducible (repeat' first | exact hm | apply memPuts_wf | apply memPut_wf | split); done)) | (extract_lets +onlyGivenNames x; try (refine (fun hx : Kept σ x => ?_) ?_; on_goal 1 => clear_value x; on_goal 2 => subst x))
    | with_reducible assumption | with_reducible rfl | with_reducible exact (fun h => h) | with_reducible apply modPort_kept
    | with_reducible apply objFlag_kept | split | (rename State => x; subst x) | with_reducible apply flex_kept
    | with_reducible exact PortsKept.refl _)

theorem qtxRequest_kept {σ τ : State} (hw : Kept σ τ) (p b : Nat) : Kept σ (qtxRequest p b τ) := by
  unfold qtxRequest
  repeat' (first | with_reducible assumption | with_reducible apply arbitrate_kept | with_reducible apply setQtx_kept | split)

theorem qtxCancel_kept {σ τ : State} (hw : Kept σ τ) (p b : Nat) : Kept σ (qtxCancel p b τ) := by
  unfold qtxCancel
  repeat' (first
    | (focus (intro c hm; (try extract_lets); (try dsimp only); with_reducible (repeat' first | exact hm | apply memPuts_wf | apply memPut_wf | split); done))
    | (focus (intro hm; (try extract_lets); (try dsimp only); with_reducible (repeat' first | exact hm | apply memPuts_wf | apply memPut_wf | split); done)) | (extract_lets +onlyGivenNames x; try (refine (fun hx : Kept σ x => ?_) ?_; on_goal 1 => clear_value x; on_goal 2 => subst x))
    | with_reducible assumption | with_reducible rfl | with_reducible exact (fun h => h) | with_reducible apply modPort_kept
    | with_reducible apply setQtx_kept | split | (rename State => x; subst x) | with_reducible apply flex_kept
    | with_reducible exact PortsKept.refl _)

theorem storeObj_kept {σ τ : State} (hw : Kept σ τ) (p k : Nat) (x : CanRx) : Kept σ (storeObj p k x τ) := by
  unfold storeObj
  repeat' (first
    | (focus (intro c hm; (try extract_lets); (try dsimp only); with_reducible (repeat' first | exact hm | apply memPuts_wf | apply memPut_wf | split); done))
    | (focus (intro hm; (try extract_lets); (try dsimp only); with_reducible (repeat' first | exact hm | apply memPuts_wf | apply memPut_wf | split); done)) | (extract_lets +onlyGivenNames x; try (refine (fun hx : Kept σ x => ?_) ?_; on_goal 1 => clear_value x; on_goal 2 => subst x))
    | with_reducible assumption | with_reducible rfl | with_reducible exact (fun h => h) | with_reducible apply modPort_kept
    | with_reducible apply objFlag_kept | split | (rename State => x; subst x) | with_reducible apply flex_kept
    | with_reducible exact PortsKept.refl _)

theorem newData_kept {σ τ : State} (hw : Kept σ τ) (p k : Nat) (x : CanRx) : Kept σ (newData p k x τ) := by
  unfold newData
  repeat' (first
    | (extract_lets +onlyGivenNames x; try (refine (fun hx : Kept σ x => ?_) ?_; on_goal 1 => clear_value x; on_goal 2 => subst x))
    | with_reducible assumption | with_reducible apply portEvent_kept | with_reducible apply objFlag_kept | with_reducible apply storeObj_kept
    | split | (rename State => x; subst x))

theorem overrun_kept {σ τ : State} (hw : Kept σ τ) (p k : Nat) : Kept σ (overrun p k τ) := by
  unfold overrun
  repeat' (first
    | with_reducible assumption | with_reducible apply perf_kept | with_reducible apply portEvent_kept | with_reducible apply portCount_kept)

theorem deliverObj_kept {σ τ : State} (hw : Kept σ τ) (p k : Nat) (x : CanRx) : Kept σ (deliverObj p k x τ) := by
  unfold deliverObj
  repeat' (first
    | (focus (intro c hm; (try extract_lets); (try dsimp only); with_reducible (repeat' first | exact hm | apply memPuts_wf | apply memPut_wf | split); done))
    | (focus (intro hm; (try extract_lets); (try dsimp only); with_reducible (repeat' first | exact hm | apply memPuts_wf | apply memPut_wf | split); done)) | (extract_lets +onlyGivenNames x; try (refine (fun hx : Kept σ x => ?_) ?_; on_goal 1 => clear_value x; on_goal 2 => subst x))
    | with_reducible assumption | with_reducible rfl | with_reducible exact (fun h => h) | with_reducible apply modPort_kept
    | with_reducible apply objFlag_kept | with_reducible apply newData_kept | with_reducible apply overrun_kept | split
    | (rename State => x; subst x) | with_reducible apply flex_kept | with_reducible exact PortsKept.refl _)

theorem deliverBind_kept {σ τ : State} (hw : Kept σ τ) (p : Nat) (x : CanRx) (e : Nat × Bind) : Kept σ (deliverBind p x τ e) := by
  unfold deliverBind
  repeat' (first
    | (focus (intro c hm; (try extract_lets); (try dsimp only); with_reducible (repeat' first | exact hm | apply memPuts_wf | apply memPut_wf | split); done))
    | (focus (intro hm; (try extract_lets); (try dsimp only); with_reducible (repeat' first | exact hm | apply memPuts_wf | apply memPut_wf | split); done)) | (extract_lets +onlyGivenNames x; try (refine (fun hx : Kept σ x => ?_) ?_; on_goal 1 => clear_value x; on_goal 2 => subst x))
    | with_reducible assumption | with_reducible rfl | with_reducible exact (fun h => h) | with_reducible apply modPort_kept
    | with_reducible apply perf_kept | with_reducible apply portEvent_kept | with_reducible apply portCount_kept | split
    | (rename State => x; subst x) | with_reducible apply flex_kept | with_reducible exact PortsKept.refl _)

theorem queueFrame_kept {σ τ : State} (hw : Kept σ τ) (p q : Nat) (pair : Nat) (x : CanRx) : Kept σ (queueFrame p q pair x τ) := by
  unfold queueFrame
  repeat' (first
    | (focus (intro c hm; (try extract_lets); (try dsimp only); with_reducible (repeat' first | exact hm | apply memPuts_wf | apply memPut_wf | split); done))
    | (focus (intro hm; (try extract_lets); (try dsimp only); with_reducible (repeat' first | exact hm | apply memPuts_wf | apply memPut_wf | split); done)) | (extract_lets +onlyGivenNames x; try (refine (fun hx : Kept σ x => ?_) ?_; on_goal 1 => clear_value x; on_goal 2 => subst x))
    | with_reducible assumption | with_reducible rfl | with_reducible exact (fun h => h) | with_reducible apply modPort_kept
    | with_reducible apply portEvent_kept | with_reducible apply overrun_kept | split | (rename State => x; subst x)
    | with_reducible apply flex_kept | with_reducible exact PortsKept.refl _)

theorem noMatch_kept {σ τ : State} (hw : Kept σ τ) (p : Nat) : Kept σ (noMatch p τ) := by
  unfold noMatch
  repeat' (first | with_reducible assumption | with_reducible apply portEvent_kept | with_reducible apply portCount_kept)

theorem deliverObjects_kept {σ τ : State} (hw : Kept σ τ) (p : Nat) (x : CanRx) : Kept σ (deliverObjects p x τ) := by
  unfold deliverObjects
  repeat' (first
    | (extract_lets +onlyGivenNames x; try (refine (fun hx : Kept σ x => ?_) ?_; on_goal 1 => clear_value x; on_goal 2 => subst x))
    | with_reducible assumption | with_reducible rfl | with_reducible exact (fun h => h) | with_reducible apply each_kept | intro _ _ _
    | with_reducible apply storeObj_kept | with_reducible apply deliverObj_kept | with_reducible apply deliverBind_kept
    | with_reducible apply noMatch_kept | split | (rename State => x; subst x) | with_reducible apply flex_kept
    | with_reducible exact PortsKept.refl _)

theorem deliverQueues_kept {σ τ : State} (hw : Kept σ τ) (p : Nat) (x : CanRx) : Kept σ (deliverQueues p x τ) := by
  unfold deliverQueues
  repeat' (first
    | (extract_lets +onlyGivenNames x; try (refine (fun hx : Kept σ x => ?_) ?_; on_goal 1 => clear_value x; on_goal 2 => subst x))
    | with_reducible assumption | with_reducible rfl | with_reducible exact (fun h => h) | with_reducible apply each_kept | intro _ _ _
    | with_reducible apply portCount_kept | with_reducible apply deliverBind_kept | with_reducible apply queueFrame_kept | split
    | (rename State => x; subst x) | with_reducible apply flex_kept | with_reducible exact PortsKept.refl _)

theorem canError_kept {σ τ : State} (hw : Kept σ τ) (p code tec rec' : Nat) : Kept σ (canError p code tec rec' τ) := by
  unfold canError
  repeat' (first
    | (focus (intro c hm; (try extract_lets); (try dsimp only); with_reducible (repeat' first | exact hm | apply memPuts_wf | apply memPut_wf | split); done))
    | (focus (intro hm; (try extract_lets); (try dsimp only); with_reducible (repeat' first | exact hm | apply memPuts_wf | apply memPut_wf | split); done)) | (extract_lets +onlyGivenNames x; try (refine (fun hx : Kept σ x => ?_) ?_; on_goal 1 => clear_value x; on_goal 2 => subst x))
    | with_reducible assumption | with_reducible rfl | with_reducible exact (fun h => h) | with_reducible apply modPort_kept
    | with_reducible apply perf_kept | with_reducible apply portEvent_kept | with_reducible apply portCount_kept
    | with_reducible apply settleBus_kept | split | (rename State => x; subst x) | with_reducible apply flex_kept
    | with_reducible exact PortsKept.refl _)

theorem canReceive_kept {σ τ : State} (hw : Kept σ τ) (p : Nat) (f : CanFrame) (tsc : Word) (excRes : Bool) :
    Kept σ (canReceive p f tsc excRes τ) := by
  unfold canReceive
  repeat' (first
    | (focus (intro c hm; (try extract_lets); (try dsimp only); with_reducible (repeat' first | exact hm | apply memPuts_wf | apply memPut_wf | split); done))
    | (focus (intro hm; (try extract_lets); (try dsimp only); with_reducible (repeat' first | exact hm | apply memPuts_wf | apply memPut_wf | split); done)) | (extract_lets +onlyGivenNames x; try (refine (fun hx : Kept σ x => ?_) ?_; on_goal 1 => clear_value x; on_goal 2 => subst x))
    | with_reducible assumption | with_reducible rfl | with_reducible exact (fun h => h) | with_reducible apply modPort_kept
    | with_reducible apply perf_kept | with_reducible apply portEvent_kept | with_reducible apply portCount_kept
    | with_reducible apply settleBus_kept | with_reducible apply deliverObjects_kept | with_reducible apply deliverQueues_kept
    | with_reducible apply canError_kept | split | (rename State => x; subst x) | with_reducible apply flex_kept
    | with_reducible exact PortsKept.refl _)

theorem canSent_kept {σ τ : State} (hw : Kept σ τ) (p : Nat) (tsc : Word) : Kept σ (canSent p tsc τ) := by
  unfold canSent
  repeat' (first
    | (focus (intro c hm; (try extract_lets); (try dsimp only); with_reducible (repeat' first | exact hm | apply memPuts_wf | apply memPut_wf | split); done))
    | (focus (intro hm; (try extract_lets); (try dsimp only); with_reducible (repeat' first | exact hm | apply memPuts_wf | apply memPut_wf | split); done)) | (extract_lets +onlyGivenNames x; try (refine (fun hx : Kept σ x => ?_) ?_; on_goal 1 => clear_value x; on_goal 2 => subst x))
    | with_reducible assumption | with_reducible rfl | with_reducible exact (fun h => h) | with_reducible apply modPort_kept
    | with_reducible apply perf_kept | with_reducible apply portEvent_kept | with_reducible apply portCount_kept
    | with_reducible apply settleBus_kept | with_reducible apply endAttempt_kept | with_reducible apply setQtx_kept | split
    | (rename State => x; subst x) | with_reducible apply flex_kept | with_reducible exact PortsKept.refl _)

theorem canAborted_kept {σ τ : State} (hw : Kept σ τ) (p : Nat) : Kept σ (canAborted p τ) := by
  unfold canAborted
  repeat' (first
    | (focus (intro c hm; (try extract_lets); (try dsimp only); with_reducible (repeat' first | exact hm | apply memPuts_wf | apply memPut_wf | split); done))
    | (focus (intro hm; (try extract_lets); (try dsimp only); with_reducible (repeat' first | exact hm | apply memPuts_wf | apply memPut_wf | split); done)) | (extract_lets +onlyGivenNames x; try (refine (fun hx : Kept σ x => ?_) ?_; on_goal 1 => clear_value x; on_goal 2 => subst x))
    | with_reducible assumption | with_reducible rfl | with_reducible exact (fun h => h) | with_reducible apply modPort_kept
    | with_reducible apply portEvent_kept | with_reducible apply arbitrate_kept | with_reducible apply endAttempt_kept
    | with_reducible apply setQtx_kept | split | (rename State => x; subst x) | with_reducible apply flex_kept
    | with_reducible exact PortsKept.refl _)

theorem recoverReq_kept {σ τ : State} (hw : Kept σ τ) (p : Nat) : Kept σ (recoverReq p τ) := by
  unfold recoverReq
  repeat' (first
    | (focus (intro c hm; (try extract_lets); (try dsimp only); with_reducible (repeat' first | exact hm | apply memPuts_wf | apply memPut_wf | split); done))
    | (focus (intro hm; (try extract_lets); (try dsimp only); with_reducible (repeat' first | exact hm | apply memPuts_wf | apply memPut_wf | split); done)) | (extract_lets +onlyGivenNames x; try (refine (fun hx : Kept σ x => ?_) ?_; on_goal 1 => clear_value x; on_goal 2 => subst x))
    | with_reducible assumption | with_reducible rfl | with_reducible exact (fun h => h) | with_reducible apply modPort_kept | split
    | (rename State => x; subst x) | with_reducible apply flex_kept | with_reducible exact PortsKept.refl _)

theorem enterConf_kept {σ τ : State} (hw : Kept σ τ) (p : Nat) : Kept σ (enterConf p τ) := by
  unfold enterConf
  repeat' (first
    | (focus (intro c hm; (try extract_lets); (try dsimp only); with_reducible (repeat' first | exact hm | apply memPuts_wf | apply memPut_wf | split); done))
    | (focus (intro hm; (try extract_lets); (try dsimp only); with_reducible (repeat' first | exact hm | apply memPuts_wf | apply memPut_wf | split); done)) | (extract_lets +onlyGivenNames x; try (refine (fun hx : Kept σ x => ?_) ?_; on_goal 1 => clear_value x; on_goal 2 => subst x))
    | with_reducible assumption | with_reducible rfl | with_reducible exact (fun h => h) | with_reducible apply modPort_kept
    | (rename State => x; subst x) | with_reducible apply flex_kept | with_reducible exact PortsKept.refl _)

theorem ctrlWrite_kept {σ τ : State} (hw : Kept σ τ) (cause : ClampBy) (p v : Nat) : Kept σ (ctrlWrite cause p v τ) := by
  unfold ctrlWrite
  repeat' (first
    | (focus (intro c hm; (try extract_lets); (try dsimp only); with_reducible (repeat' first | exact hm | apply memPuts_wf | apply memPut_wf | split); done))
    | (focus (intro hm; (try extract_lets); (try dsimp only); with_reducible (repeat' first | exact hm | apply memPuts_wf | apply memPut_wf | split); done)) | (extract_lets +onlyGivenNames x; try (refine (fun hx : Kept σ x => ?_) ?_; on_goal 1 => clear_value x; on_goal 2 => subst x))
    | with_reducible assumption | with_reducible rfl | with_reducible exact (fun h => h) | with_reducible apply modPort_kept
    | with_reducible apply regPutChecked_kept | with_reducible apply settleBus_kept | with_reducible apply arbitrate_kept
    | with_reducible apply recoverReq_kept | split | (rename State => x; subst x) | with_reducible apply flex_kept
    | with_reducible exact PortsKept.refl _)

theorem confRefused_kept {σ τ : State} (hw : Kept σ τ) (p off : Nat) : Kept σ (confRefused p off τ) := by
  unfold confRefused
  repeat' (first | with_reducible assumption | with_reducible apply portEvent_kept | split)

theorem stopPort_kept {σ τ : State} (hw : Kept σ τ) (p : Nat) : Kept σ (stopPort p τ) := by
  unfold stopPort
  repeat' (first
    | (focus (intro c hm; (try extract_lets); (try dsimp only); with_reducible (repeat' first | exact hm | apply memPuts_wf | apply memPut_wf | split); done))
    | (focus (intro hm; (try extract_lets); (try dsimp only); with_reducible (repeat' first | exact hm | apply memPuts_wf | apply memPut_wf | split); done)) | (extract_lets +onlyGivenNames x; try (refine (fun hx : Kept σ x => ?_) ?_; on_goal 1 => clear_value x; on_goal 2 => subst x))
    | with_reducible assumption | with_reducible rfl | with_reducible exact (fun h => h) | with_reducible apply modPort_kept
    | with_reducible apply regSet_kept | with_reducible apply enterConf_kept | split | (rename State => x; subst x)
    | with_reducible apply flex_kept | with_reducible exact PortsKept.refl _)

theorem objLock_kept {σ τ : State} (hw : Kept σ τ) (p k : Nat) : Kept σ (objLock p k τ) := by
  unfold objLock
  repeat' (first | with_reducible assumption | with_reducible apply objFlag_kept | split)

theorem objUnlock_kept {σ τ : State} (hw : Kept σ τ) (p k : Nat) : Kept σ (objUnlock p k τ) := by
  unfold objUnlock
  repeat' (first
    | (focus (intro c hm; (try extract_lets); (try dsimp only); with_reducible (repeat' first | exact hm | apply memPuts_wf | apply memPut_wf | split); done))
    | (focus (intro hm; (try extract_lets); (try dsimp only); with_reducible (repeat' first | exact hm | apply memPuts_wf | apply memPut_wf | split); done)) | (extract_lets +onlyGivenNames x; try (refine (fun hx : Kept σ x => ?_) ?_; on_goal 1 => clear_value x; on_goal 2 => subst x))
    | with_reducible assumption | with_reducible rfl | with_reducible exact (fun h => h) | with_reducible apply modPort_kept
    | with_reducible apply objFlag_kept | with_reducible apply newData_kept | split | (rename State => x; subst x)
    | with_reducible apply flex_kept | with_reducible exact PortsKept.refl _)

theorem objClear_kept {σ τ : State} (hw : Kept σ τ) (p k : Nat) : Kept σ (objClear p k τ) := by
  unfold objClear
  repeat' (first | with_reducible assumption | with_reducible apply objFlag_kept | split)

theorem rxqAck_kept {σ τ : State} (hw : Kept σ τ) (cause : ClampBy) (p q m : Nat) : Kept σ (rxqAck cause p q m τ) := by
  unfold rxqAck
  repeat' (first
    | (focus (intro c hm; (try extract_lets); (try dsimp only); with_reducible (repeat' first | exact hm | apply memPuts_wf | apply memPut_wf | split); done))
    | (focus (intro hm; (try extract_lets); (try dsimp only); with_reducible (repeat' first | exact hm | apply memPuts_wf | apply memPut_wf | split); done)) | (extract_lets +onlyGivenNames x; try (refine (fun hx : Kept σ x => ?_) ?_; on_goal 1 => clear_value x; on_goal 2 => subst x))
    | with_reducible assumption | with_reducible rfl | with_reducible exact (fun h => h) | with_reducible apply modPort_kept
    | with_reducible apply logClamps_kept | split | (rename State => x; subst x) | with_reducible apply flex_kept
    | with_reducible exact PortsKept.refl _)

theorem timingWrite_kept {σ τ : State} (hw : Kept σ τ) (p off v : Nat) : Kept σ (timingWrite p off v τ) := by
  unfold timingWrite
  repeat' (first | with_reducible assumption | with_reducible apply regPutChecked_kept | with_reducible apply confRefused_kept | split)

theorem cfgWrite_kept {σ τ : State} (hw : Kept σ τ) (cause : ClampBy) (p v : Nat) : Kept σ (cfgWrite cause p v τ) := by
  unfold cfgWrite
  repeat' (first
    | (extract_lets +onlyGivenNames x; try (refine (fun hx : Kept σ x => ?_) ?_; on_goal 1 => clear_value x; on_goal 2 => subst x))
    | with_reducible assumption | with_reducible apply logClamps_kept | with_reducible apply regPutChecked_kept | split
    | (rename State => x; subst x))

theorem objCmd_kept {σ τ : State} (hw : Kept σ τ) (p v : Nat) : Kept σ (objCmd p v τ) := by
  unfold objCmd
  repeat' (first
    | (extract_lets +onlyGivenNames x; try (refine (fun hx : Kept σ x => ?_) ?_; on_goal 1 => clear_value x; on_goal 2 => subst x))
    | with_reducible assumption | with_reducible rfl | with_reducible exact (fun h => h) | with_reducible apply txRequest_kept
    | with_reducible apply txCancel_kept | with_reducible apply objLock_kept | with_reducible apply objUnlock_kept
    | with_reducible apply objClear_kept | split | (rename State => x; subst x) | with_reducible apply flex_kept
    | with_reducible exact PortsKept.refl _)

theorem qtxCmd_kept {σ τ : State} (hw : Kept σ τ) (p v : Nat) : Kept σ (qtxCmd p v τ) := by
  unfold qtxCmd
  repeat' (first
    | (extract_lets +onlyGivenNames x; try (refine (fun hx : Kept σ x => ?_) ?_; on_goal 1 => clear_value x; on_goal 2 => subst x))
    | with_reducible assumption | with_reducible rfl | with_reducible exact (fun h => h) | with_reducible apply qtxRequest_kept
    | with_reducible apply qtxCancel_kept | split | (rename State => x; subst x) | with_reducible apply flex_kept
    | with_reducible exact PortsKept.refl _)

theorem objMemWrite_kept {σ τ : State} (hw : Kept σ τ) (p a v : Nat) : Kept σ (objMemWrite p a v τ) := by
  unfold objMemWrite
  repeat' (first
    | (focus (intro c hm; (try extract_lets); (try dsimp only); with_reducible (repeat' first | exact hm | apply memPuts_wf | apply memPut_wf | split); done))
    | (focus (intro hm; (try extract_lets); (try dsimp only); with_reducible (repeat' first | exact hm | apply memPuts_wf | apply memPut_wf | split); done)) | (extract_lets +onlyGivenNames x; try (refine (fun hx : Kept σ x => ?_) ?_; on_goal 1 => clear_value x; on_goal 2 => subst x))
    | with_reducible assumption | with_reducible rfl | with_reducible exact (fun h => h) | with_reducible apply modPort_kept | split
    | (rename State => x; subst x) | with_reducible apply flex_kept | with_reducible exact PortsKept.refl _)

/-! ### Answers -/

theorem answerLane_kept {σ τ : State} (hw : Kept σ τ) (b : Nat) (l : LaneId) : Kept σ (answerLane b l τ) := by
  unfold answerLane
  repeat' (first
    | (extract_lets +onlyGivenNames x; try (refine (fun hx : Kept σ x => ?_) ?_; on_goal 1 => clear_value x; on_goal 2 => subst x))
    | with_reducible assumption | with_reducible rfl | with_reducible exact (fun h => h) | with_reducible apply modBob_kept
    | (rename State => x; subst x) | with_reducible apply flex_kept | with_reducible exact PortsKept.refl _)

theorem relocate_kept {σ τ : State} (hw : Kept σ τ) (la : Nat) : Kept σ (relocate la τ) := by
  unfold relocate
  repeat' (first
    | (extract_lets +onlyGivenNames x; try (refine (fun hx : Kept σ x => ?_) ?_; on_goal 1 => clear_value x; on_goal 2 => subst x))
    | with_reducible assumption | with_reducible rfl | with_reducible exact (fun h => h) | with_reducible apply setCopy_kept
    | with_reducible apply dropWay_kept | split | (rename State => x; subst x) | with_reducible apply flex_kept
    | with_reducible exact PortsKept.refl _)

theorem vacate_kept {σ τ : State} (hw : Kept σ τ) (o : Nat × Option Copy) : Kept σ (vacate o τ) := by
  unfold vacate
  repeat' (first
    | (extract_lets +onlyGivenNames x; try (refine (fun hx : Kept σ x => ?_) ?_; on_goal 1 => clear_value x; on_goal 2 => subst x))
    | with_reducible assumption | with_reducible rfl | with_reducible exact (fun h => h) | with_reducible apply dropWay_kept
    | with_reducible apply evictP_kept | split | (rename State => x; subst x) | with_reducible apply flex_kept
    | with_reducible exact PortsKept.refl _)

theorem refill_kept {σ τ : State} (hw : Kept σ τ) (c : Copy) : Kept σ (refill c τ) := by
  unfold refill
  repeat' (first
    | (extract_lets +onlyGivenNames x; try (refine (fun hx : Kept σ x => ?_) ?_; on_goal 1 => clear_value x; on_goal 2 => subst x))
    | with_reducible assumption | with_reducible rfl | with_reducible exact (fun h => h) | with_reducible apply setCopy_kept
    | with_reducible apply vacate_kept | with_reducible apply sendOwed_kept | split | (rename State => x; subst x) | with_reducible apply flex_kept
    | with_reducible exact PortsKept.refl _ | (simp only [List.length_modify, List.length_map, List.length_set, lmod]; done))

theorem drainEntry_kept {σ τ : State} (hw : Kept σ τ) (k : Nat) : Kept σ (drainEntry k τ) := by
  unfold drainEntry
  repeat' (first
    | (extract_lets +onlyGivenNames x; try (refine (fun hx : Kept σ x => ?_) ?_; on_goal 1 => clear_value x; on_goal 2 => subst x))
    | with_reducible assumption | with_reducible rfl | with_reducible exact (fun h => h) | with_reducible apply setCopy_kept
    | with_reducible apply dropWay_kept | with_reducible apply evictM_kept | with_reducible apply evictP_kept | with_reducible apply vacate_kept
    | with_reducible apply refill_kept | split | (rename State => x; subst x) | with_reducible apply flex_kept
    | with_reducible exact PortsKept.refl _)

theorem drainLine_kept {σ τ : State} (hw : Kept σ τ) (la : Nat) : Kept σ (drainLine la τ) := by
  unfold drainLine
  repeat' (first
    | (extract_lets +onlyGivenNames x; try (refine (fun hx : Kept σ x => ?_) ?_; on_goal 1 => clear_value x; on_goal 2 => subst x))
    | with_reducible assumption | with_reducible rfl | with_reducible exact (fun h => h) | with_reducible apply drainEntry_kept | split
    | (rename State => x; subst x) | with_reducible apply flex_kept | with_reducible exact PortsKept.refl _)

theorem afterFill_kept {σ τ : State} (hw : Kept σ τ) (b la : Nat) (ok : Bool) : Kept σ (afterFill b la ok τ) := by
  unfold afterFill
  repeat' (first | with_reducible assumption | with_reducible apply attachedApply_kept | with_reducible apply drainLine_kept)

theorem fillShared_kept {σ τ : State} (hw : Kept σ τ) (b : Nat) (v : Bobbin) (k : Nat) (c : Copy) (st : CState) (m : LineMsg) :
    Kept σ (fillShared b v k c st m τ) := by
  unfold fillShared
  repeat' (first
    | (extract_lets +onlyGivenNames x; try (refine (fun hx : Kept σ x => ?_) ?_; on_goal 1 => clear_value x; on_goal 2 => subst x))
    | with_reducible assumption | with_reducible apply setCopy_kept | with_reducible apply dropWay_kept | with_reducible apply touch_kept
    | with_reducible apply finishLine_kept | with_reducible apply afterFill_kept | split | (rename State => x; subst x))

theorem readUncached_kept {σ τ : State} (hw : Kept σ τ) (b : Nat) (v : Bobbin) (m : LineMsg) : Kept σ (readUncached b v m τ) := by
  unfold readUncached
  repeat' (first
    | (extract_lets +onlyGivenNames x; try (refine (fun hx : Kept σ x => ?_) ?_; on_goal 1 => clear_value x; on_goal 2 => subst x))
    | with_reducible assumption | with_reducible rfl | with_reducible exact (fun h => h) | with_reducible apply setCopy_kept
    | with_reducible apply dropWay_kept | with_reducible apply finishLine_kept | with_reducible apply attachedApply_kept | split
    | (rename State => x; subst x) | with_reducible apply flex_kept | with_reducible exact PortsKept.refl _)

theorem takeValue_kept {σ τ : State} (hw : Kept σ τ) (m : LineMsg) : Kept σ (takeValue m τ) := by
  unfold takeValue
  repeat' (first
    | (extract_lets +onlyGivenNames x; try (refine (fun hx : Kept σ x => ?_) ?_; on_goal 1 => clear_value x; on_goal 2 => subst x))
    | with_reducible assumption | with_reducible rfl | with_reducible exact (fun h => h) | with_reducible apply perf_kept
    | with_reducible apply setCopy_kept | with_reducible apply touch_kept | with_reducible apply bindPend_kept
    | with_reducible apply relocate_kept | split | (rename State => x; subst x) | with_reducible apply flex_kept
    | with_reducible exact PortsKept.refl _)

theorem subDone_kept {σ τ : State} (hw : Kept σ τ) (m : LineMsg) (e : Nat × Bobbin) : Kept σ (subDone m τ e) := by
  unfold subDone
  repeat' (first
    | (extract_lets +onlyGivenNames x; try (refine (fun hx : Kept σ x => ?_) ?_; on_goal 1 => clear_value x; on_goal 2 => subst x))
    | with_reducible assumption | with_reducible apply addSub_kept | with_reducible apply finishLine_kept
    | with_reducible apply attachedApply_kept | split | (rename State => x; subst x))

theorem ownLine_kept {σ τ : State} (hw : Kept σ τ) (la : Nat) : Kept σ (ownLine la τ) := by
  unfold ownLine
  repeat' (first
    | (extract_lets +onlyGivenNames x; try (refine (fun hx : Kept σ x => ?_) ?_; on_goal 1 => clear_value x; on_goal 2 => subst x))
    | with_reducible assumption | with_reducible rfl | with_reducible exact (fun h => h) | with_reducible apply mirrorSend_kept
    | with_reducible apply homeCommit_kept | with_reducible apply dropWay_kept | split | (rename State => x; subst x) | with_reducible apply flex_kept
    | with_reducible exact PortsKept.refl _ | (simp only [List.length_modify, List.length_map, List.length_set, lmod]; done))

theorem takeUpdate_kept {σ τ : State} (hw : Kept σ τ) (r : Rx) : Kept σ (takeUpdate r τ) := by
  unfold takeUpdate
  repeat' (first
    | (extract_lets +onlyGivenNames x; try (refine (fun hx : Kept σ x => ?_) ?_; on_goal 1 => clear_value x; on_goal 2 => subst x))
    | with_reducible assumption | with_reducible rfl | with_reducible exact (fun h => h) | with_reducible apply each_kept | intro _ _ _
    | with_reducible apply learnCls_kept | with_reducible apply perf_kept | with_reducible apply takeValue_kept | with_reducible apply ownLine_kept
    | with_reducible apply drainLine_kept | with_reducible apply subDone_kept | split | (rename State => x; subst x) | with_reducible apply flex_kept
    | with_reducible exact PortsKept.refl _ | (simp only [List.length_modify, List.length_map, List.length_set, lmod]; done))

theorem sharedOne_kept {σ τ : State} (hw : Kept σ τ) (b : Nat) (m : LineMsg) (l : LaneId) : Kept σ (sharedOne b m l τ) := by
  unfold sharedOne
  repeat' (first
    | (extract_lets +onlyGivenNames x; try (refine (fun hx : Kept σ x => ?_) ?_; on_goal 1 => clear_value x; on_goal 2 => subst x))
    | with_reducible assumption | with_reducible rfl | with_reducible exact (fun h => h) | with_reducible apply answerLane_kept
    | with_reducible apply readUncached_kept | with_reducible apply fillShared_kept | with_reducible apply relocate_kept
    | with_reducible apply finishLine_kept | with_reducible apply setCopy_kept | split | (rename State => x; subst x) | with_reducible apply flex_kept
    | with_reducible exact PortsKept.refl _ | (simp only [List.length_modify, List.length_map, List.length_set, lmod]; done))

theorem takeShared_kept {σ τ : State} (hw : Kept σ τ) (r : Rx) : Kept σ (takeShared r τ) := by
  unfold takeShared
  repeat' (first
    | (extract_lets +onlyGivenNames x; try (refine (fun hx : Kept σ x => ?_) ?_; on_goal 1 => clear_value x; on_goal 2 => subst x))
    | with_reducible assumption | with_reducible rfl | with_reducible exact (fun h => h) | with_reducible apply each_kept | intro _ _ _
    | with_reducible apply learnCls_kept | with_reducible apply takeValue_kept | with_reducible apply ownLine_kept
    | with_reducible apply drainLine_kept | with_reducible apply subDone_kept | with_reducible apply answerLane_kept
    | with_reducible apply sharedOne_kept | split | (rename State => x; subst x) | with_reducible apply flex_kept
    | with_reducible exact PortsKept.refl _ | (simp only [List.length_modify, List.length_map, List.length_set, lmod]; done))

theorem fillOwn_kept {σ τ : State} (hw : Kept σ τ) (b : Nat) (v : Bobbin) (k : Nat) (c : Copy) : Kept σ (fillOwn b v k c τ) := by
  unfold fillOwn
  repeat' (first
    | (extract_lets +onlyGivenNames x; try (refine (fun hx : Kept σ x => ?_) ?_; on_goal 1 => clear_value x; on_goal 2 => subst x))
    | with_reducible assumption | with_reducible rfl | with_reducible exact (fun h => h) | with_reducible apply setCopy_kept
    | with_reducible apply touch_kept | with_reducible apply finishLine_kept | with_reducible apply afterFill_kept | split
    | (rename State => x; subst x) | with_reducible apply flex_kept | with_reducible exact PortsKept.refl _)

theorem takeOwn_kept {σ τ : State} (hw : Kept σ τ) (r : Rx) : Kept σ (takeOwn r τ) := by
  unfold takeOwn
  repeat' (first
    | (extract_lets +onlyGivenNames x; try (refine (fun hx : Kept σ x => ?_) ?_; on_goal 1 => clear_value x; on_goal 2 => subst x))
    | with_reducible assumption | with_reducible rfl | with_reducible exact (fun h => h) | with_reducible apply answerLane_kept
    | with_reducible apply learnCls_kept | with_reducible apply ownLine_kept | with_reducible apply fillOwn_kept | split
    | (rename State => x; subst x) | with_reducible apply flex_kept | with_reducible exact PortsKept.refl _
    | (simp only [List.length_modify, List.length_map, List.length_set, lmod]; done))

theorem takeGrant_kept {σ τ : State} (hw : Kept σ τ) (r : Rx) : Kept σ (takeGrant r τ) := by
  unfold takeGrant
  repeat' (first
    | (extract_lets +onlyGivenNames x; try (refine (fun hx : Kept σ x => ?_) ?_; on_goal 1 => clear_value x; on_goal 2 => subst x))
    | with_reducible assumption | with_reducible rfl | with_reducible exact (fun h => h) | with_reducible apply answerLane_kept
    | with_reducible apply learnCls_kept | with_reducible apply ownLine_kept | with_reducible apply fillOwn_kept
    | with_reducible apply attachedApply_kept | with_reducible apply finishLine_kept | with_reducible apply dropWay_kept | split
    | (rename State => x; subst x) | with_reducible apply flex_kept | with_reducible exact PortsKept.refl _
    | (simp only [List.length_modify, List.length_map, List.length_set, lmod]; done))

theorem probeAnswer_kept {σ τ : State} (hw : Kept σ τ) (r : Rx) (typ : MsgType) (flg : BitVec 3) (c : Option Copy) (all : Bool) :
    Kept σ (probeAnswer r typ flg c all τ) := by
  unfold probeAnswer
  repeat' (first
    | (extract_lets +onlyGivenNames x; try (refine (fun hx : Kept σ x => ?_) ?_; on_goal 1 => clear_value x; on_goal 2 => subst x))
    | with_reducible assumption | with_reducible rfl | with_reducible exact (fun h => h) | with_reducible apply queueMsg_kept | split
    | (rename State => x; subst x) | with_reducible apply flex_kept | with_reducible exact PortsKept.refl _)

theorem takeInvalidate_kept {σ τ : State} (hw : Kept σ τ) (r : Rx) : Kept σ (takeInvalidate r τ) := by
  unfold takeInvalidate
  repeat' (first
    | (extract_lets +onlyGivenNames x; try (refine (fun hx : Kept σ x => ?_) ?_; on_goal 1 => clear_value x; on_goal 2 => subst x))
    | with_reducible assumption | with_reducible rfl | with_reducible exact (fun h => h) | with_reducible apply perf_kept
    | with_reducible apply setCopy_kept | with_reducible apply dropWay_kept | with_reducible apply subLost_kept
    | with_reducible apply learnCls_kept | with_reducible apply relocate_kept | with_reducible apply probeAnswer_kept | split
    | (rename State => x; subst x) | with_reducible apply flex_kept | with_reducible exact PortsKept.refl _)

theorem takeRecall_kept {σ τ : State} (hw : Kept σ τ) (r : Rx) : Kept σ (takeRecall r τ) := by
  unfold takeRecall
  repeat' (first
    | (extract_lets +onlyGivenNames x; try (refine (fun hx : Kept σ x => ?_) ?_; on_goal 1 => clear_value x; on_goal 2 => subst x))
    | with_reducible assumption | with_reducible rfl | with_reducible exact (fun h => h) | with_reducible apply perf_kept
    | with_reducible apply setCopy_kept | with_reducible apply dropWay_kept | with_reducible apply learnCls_kept
    | with_reducible apply relocate_kept | with_reducible apply probeAnswer_kept | split | (rename State => x; subst x)
    | with_reducible apply flex_kept | with_reducible exact PortsKept.refl _)

theorem takeForwarded_kept {σ τ : State} (hw : Kept σ τ) (r : Rx) : Kept σ (takeForwarded r τ) := by
  unfold takeForwarded
  repeat' (first
    | (extract_lets +onlyGivenNames x; try (refine (fun hx : Kept σ x => ?_) ?_; on_goal 1 => clear_value x; on_goal 2 => subst x))
    | with_reducible assumption | with_reducible rfl | with_reducible exact (fun h => h) | with_reducible apply ownLine_kept
    | with_reducible apply fillShared_kept | with_reducible apply answerLane_kept | with_reducible apply learnCls_kept | split
    | (rename State => x; subst x) | with_reducible apply flex_kept | with_reducible exact PortsKept.refl _
    | (simp only [List.length_modify, List.length_map, List.length_set, lmod]; done))

theorem fillRefused_kept {σ τ : State} (hw : Kept σ τ) (b la : Nat) : Kept σ (fillRefused b la τ) := by
  unfold fillRefused
  repeat' (first
    | (extract_lets +onlyGivenNames x; try (refine (fun hx : Kept σ x => ?_) ?_; on_goal 1 => clear_value x; on_goal 2 => subst x))
    | with_reducible assumption | with_reducible rfl | with_reducible exact (fun h => h) | with_reducible apply setCopy_kept
    | with_reducible apply dropWay_kept | split | (rename State => x; subst x) | with_reducible apply flex_kept
    | with_reducible exact PortsKept.refl _)

theorem writebackAcked_kept {σ τ : State} (hw : Kept σ τ) (b : Nat) (m : LineMsg) (ok : Bool) : Kept σ (writebackAcked b m ok τ) := by
  unfold writebackAcked
  repeat' (first
    | (extract_lets +onlyGivenNames x; try (refine (fun hx : Kept σ x => ?_) ?_; on_goal 1 => clear_value x; on_goal 2 => subst x))
    | with_reducible assumption | with_reducible rfl | with_reducible exact (fun h => h) | with_reducible apply setCopy_kept
    | with_reducible apply dropWay_kept | with_reducible apply relocate_kept | split | (rename State => x; subst x)
    | with_reducible apply flex_kept | with_reducible exact PortsKept.refl _)

theorem takeAck_kept {σ τ : State} (hw : Kept σ τ) (r : Rx) : Kept σ (takeAck r τ) := by
  unfold takeAck
  repeat' (first
    | (extract_lets +onlyGivenNames x; try (refine (fun hx : Kept σ x => ?_) ?_; on_goal 1 => clear_value x; on_goal 2 => subst x))
    | with_reducible assumption | with_reducible rfl | with_reducible exact (fun h => h) | with_reducible apply answerLane_kept
    | with_reducible apply learnCls_kept | with_reducible apply ownLine_kept | with_reducible apply drainLine_kept
    | with_reducible apply attachedApply_kept | with_reducible apply finishLine_kept | with_reducible apply writebackAcked_kept
    | with_reducible apply evictClean_kept | with_reducible apply relocate_kept | with_reducible apply dropWay_kept | with_reducible apply modBob_kept
    | with_reducible apply fillRefused_kept | split | (rename State => x; subst x) | with_reducible apply flex_kept
    | with_reducible exact PortsKept.refl _ | (simp only [List.length_modify, List.length_map, List.length_set, lmod]; done) | dsimp only)

theorem abandon_kept {σ τ : State} (hw : Kept σ τ) (b : Nat) : Kept σ (abandon b τ) := by
  unfold abandon
  repeat' (first
    | (extract_lets +onlyGivenNames x; try (refine (fun hx : Kept σ x => ?_) ?_; on_goal 1 => clear_value x; on_goal 2 => subst x))
    | with_reducible assumption | with_reducible rfl | with_reducible exact (fun h => h) | with_reducible apply each_kept | intro _ _ _
    | with_reducible apply relocate_kept | with_reducible apply dropWay_kept | with_reducible apply setCopy_kept | split
    | (rename State => x; subst x) | with_reducible apply flex_kept | with_reducible exact PortsKept.refl _
    | (simp only [List.length_modify, List.length_map, List.length_set, lmod]; done))

theorem takeBack_kept {σ τ : State} (hw : Kept σ τ) (b : Nat) (la : Nat) : Kept σ (takeBack b la τ) := by
  unfold takeBack
  repeat' (first
    | (extract_lets +onlyGivenNames x; try (refine (fun hx : Kept σ x => ?_) ?_; on_goal 1 => clear_value x; on_goal 2 => subst x))
    | with_reducible assumption | with_reducible rfl | with_reducible exact (fun h => h) | with_reducible apply dropWay_kept
    | with_reducible apply mirrorSend_kept | with_reducible apply homeCommit_kept | split | (rename State => x; subst x)
    | with_reducible apply flex_kept | with_reducible exact PortsKept.refl _
    | (simp only [List.length_modify, List.length_map, List.length_set, lmod]; done))

theorem nowLocal_kept {σ τ : State} (hw : Kept σ τ) (b : Nat) (v : Bobbin) (la : Nat) : Kept σ (nowLocal b v la τ) := by
  unfold nowLocal
  repeat' (first
    | (extract_lets +onlyGivenNames x; try (refine (fun hx : Kept σ x => ?_) ?_; on_goal 1 => clear_value x; on_goal 2 => subst x))
    | with_reducible assumption | with_reducible rfl | with_reducible exact (fun h => h) | with_reducible apply takeBack_kept
    | with_reducible apply freeBob_kept | with_reducible apply abandon_kept | with_reducible apply setBob_kept | split | (rename State => x; subst x)
    | with_reducible apply flex_kept | with_reducible exact PortsKept.refl _
    | (simp only [List.length_modify, List.length_map, List.length_set, lmod]; done))

theorem retryReq_kept {σ τ : State} (hw : Kept σ τ) (b : Nat) (v : Bobbin) : Kept σ (retryReq b v τ) := by
  unfold retryReq
  repeat' (first
    | (extract_lets +onlyGivenNames x; try (refine (fun hx : Kept σ x => ?_) ?_; on_goal 1 => clear_value x; on_goal 2 => subst x))
    | with_reducible assumption | with_reducible rfl | with_reducible exact (fun h => h) | with_reducible apply nowLocal_kept
    | with_reducible apply perf_kept | with_reducible apply sendReq_kept | with_reducible apply setBob_kept | split | (rename State => x; subst x)
    | with_reducible apply flex_kept | with_reducible exact PortsKept.refl _
    | (simp only [List.length_modify, List.length_map, List.length_set, lmod]; done))

theorem takeNak_kept {σ τ : State} (hw : Kept σ τ) (r : Rx) : Kept σ (takeNak r τ) := by
  unfold takeNak
  repeat' (first
    | (extract_lets +onlyGivenNames x; try (refine (fun hx : Kept σ x => ?_) ?_; on_goal 1 => clear_value x; on_goal 2 => subst x))
    | with_reducible assumption | with_reducible rfl | with_reducible exact (fun h => h) | with_reducible apply retryReq_kept
    | with_reducible apply cohCount_kept | with_reducible apply perf_kept | with_reducible apply learnCls_kept | split | (rename State => x; subst x)
    | with_reducible apply flex_kept | with_reducible exact PortsKept.refl _
    | (simp only [List.length_modify, List.length_map, List.length_set, lmod]; done))

theorem takeAtomic_kept {σ τ : State} (hw : Kept σ τ) (r : Rx) : Kept σ (takeAtomic r τ) := by
  unfold takeAtomic
  repeat' (first
    | (extract_lets +onlyGivenNames x; try (refine (fun hx : Kept σ x => ?_) ?_; on_goal 1 => clear_value x; on_goal 2 => subst x))
    | with_reducible assumption | with_reducible rfl | with_reducible exact (fun h => h) | with_reducible apply finishLine_kept
    | with_reducible apply learnCls_kept | with_reducible apply answerLane_kept | split | (rename State => x; subst x)
    | with_reducible apply flex_kept | with_reducible exact PortsKept.refl _)

theorem takeGrantLease_kept {σ τ : State} (hw : Kept σ τ) (r : Rx) : Kept σ (takeGrantLease r τ) := by
  unfold takeGrantLease
  repeat' (first
    | (extract_lets +onlyGivenNames x; try (refine (fun hx : Kept σ x => ?_) ?_; on_goal 1 => clear_value x; on_goal 2 => subst x))
    | with_reducible assumption | with_reducible rfl | with_reducible exact (fun h => h) | with_reducible apply finishLine_kept
    | with_reducible apply answerLane_kept | with_reducible apply learnCls_kept | split | (rename State => x; subst x)
    | with_reducible apply flex_kept | with_reducible exact PortsKept.refl _
    | (simp only [List.length_modify, List.length_map, List.length_set, lmod]; done))

theorem takeBreak_kept {σ τ : State} (hw : Kept σ τ) (r : Rx) : Kept σ (takeBreak r τ) := by
  unfold takeBreak
  repeat' (first
    | (extract_lets +onlyGivenNames x; try (refine (fun hx : Kept σ x => ?_) ?_; on_goal 1 => clear_value x; on_goal 2 => subst x))
    | with_reducible assumption | with_reducible rfl | with_reducible exact (fun h => h) | with_reducible apply learnCls_kept
    | with_reducible apply finishLine_kept | split | (rename State => x; subst x) | with_reducible apply flex_kept
    | with_reducible exact PortsKept.refl _ | (simp only [List.length_modify, List.length_map, List.length_set, lmod]; done) | dsimp only)

theorem resendOp_kept {σ τ : State} (hw : Kept σ τ) (b : Nat) : Kept σ (resendOp b τ) := by
  unfold resendOp
  repeat' (first
    | (extract_lets +onlyGivenNames x; try (refine (fun hx : Kept σ x => ?_) ?_; on_goal 1 => clear_value x; on_goal 2 => subst x))
    | with_reducible assumption | with_reducible rfl | with_reducible exact (fun h => h) | with_reducible apply cohCount_kept
    | with_reducible apply retryReq_kept | split | (rename State => x; subst x) | with_reducible apply flex_kept
    | with_reducible exact PortsKept.refl _)

theorem cutOff_kept {σ τ : State} (hw : Kept σ τ) (b status : Nat) : Kept σ (cutOff b status τ) := by
  unfold cutOff
  repeat' (first
    | (extract_lets +onlyGivenNames x; try (refine (fun hx : Kept σ x => ?_) ?_; on_goal 1 => clear_value x; on_goal 2 => subst x))
    | with_reducible assumption | with_reducible rfl | with_reducible exact (fun h => h) | with_reducible apply setBob_kept
    | with_reducible apply freeBob_kept | with_reducible apply complete_kept | with_reducible apply attachedApply_kept
    | with_reducible apply abandon_kept | split | (rename State => x; subst x) | with_reducible apply flex_kept
    | with_reducible exact PortsKept.refl _)

theorem releaseHeld_kept {σ τ : State} (hw : Kept σ τ) (la : Nat) : Kept σ (releaseHeld la τ) := by
  unfold releaseHeld
  repeat' (first
    | (extract_lets +onlyGivenNames x; try (refine (fun hx : Kept σ x => ?_) ?_; on_goal 1 => clear_value x; on_goal 2 => subst x))
    | with_reducible assumption | with_reducible rfl | with_reducible exact (fun h => h) | with_reducible apply setCopy_kept
    | with_reducible apply dropWay_kept | split | (rename State => x; subst x) | with_reducible apply flex_kept
    | with_reducible exact PortsKept.refl _)

theorem staleMark_kept {σ τ : State} (hw : Kept σ τ) (src : Nat) (c : Cls) : Kept σ (staleMark src c τ) := by
  unfold staleMark
  repeat' (first
    | (extract_lets +onlyGivenNames x; try (refine (fun hx : Kept σ x => ?_) ?_; on_goal 1 => clear_value x; on_goal 2 => subst x))
    | with_reducible assumption | with_reducible rfl | with_reducible exact (fun h => h) | with_reducible apply each_kept | intro _ _ _
    | with_reducible apply setCopy_kept | with_reducible apply refreshLine_kept | split | (rename State => x; subst x)
    | with_reducible apply flex_kept | with_reducible exact PortsKept.refl _
    | (simp only [List.length_modify, List.length_map, List.length_set, lmod]; done))

end Sys2Proof.Machine
end

