-- ==== Sys2Proof/Laws/KeptPorts.lean ====
section
/-! SUPPORT. The invariant of the node is kept: one lemma for each operation of car-bus ports, bindings, regions, jobs and tenants. -/

set_option linter.all false

namespace Sys2Proof.Machine

/-! ### Pattern -/

theorem anchorLine_kept {σ τ : State} (hw : Kept σ τ) (r : Region) (a : Nat) : Kept σ (anchorLine r τ a) := by
  unfold anchorLine
  repeat' (first
    | (extract_lets +onlyGivenNames x; try (refine (fun hx : Kept σ x => ?_) ?_; on_goal 1 => clear_value x; on_goal 2 => subst x))
    | with_reducible assumption | with_reducible rfl | with_reducible exact (fun h => h) | with_reducible apply recallFor_kept
    | with_reducible apply setEntry_kept | split | (rename State => x; subst x) | with_reducible apply flex_kept
    | with_reducible exact PortsKept.refl _ | (simp only [List.length_modify, List.length_map, List.length_set, lmod]; done))

theorem anchorRegion_kept {σ τ : State} (hw : Kept σ τ) (r : Region) : Kept σ (anchorRegion r τ) := by
  unfold anchorRegion
  repeat' (first
    | (extract_lets +onlyGivenNames x; try (refine (fun hx : Kept σ x => ?_) ?_; on_goal 1 => clear_value x; on_goal 2 => subst x))
    | with_reducible assumption | with_reducible rfl | with_reducible exact (fun h => h) | with_reducible apply each_kept | intro _ _ _
    | with_reducible apply anchorLine_kept | split | (rename State => x; subst x) | with_reducible apply flex_kept
    | with_reducible exact PortsKept.refl _ | (simp only [List.length_modify, List.length_map, List.length_set, lmod]; done))

theorem anchorRest_kept {σ τ : State} (hw : Kept σ τ)  : Kept σ (anchorRest τ) := by
  unfold anchorRest
  repeat' (first
    | (extract_lets +onlyGivenNames x; try (refine (fun hx : Kept σ x => ?_) ?_; on_goal 1 => clear_value x; on_goal 2 => subst x))
    | with_reducible assumption | with_reducible rfl | with_reducible exact (fun h => h) | with_reducible apply each_kept | intro _ _ _
    | with_reducible apply anchorRegion_kept | split | (rename State => x; subst x) | with_reducible apply flex_kept
    | with_reducible exact PortsKept.refl _ | (simp only [List.length_modify, List.length_map, List.length_set, lmod]; done))

theorem releaseAnchors_kept {σ τ : State} (hw : Kept σ τ) (r : Region) : Kept σ (releaseAnchors r τ) := by
  unfold releaseAnchors
  repeat' (first
    | (extract_lets +onlyGivenNames x; try (refine (fun hx : Kept σ x => ?_) ?_; on_goal 1 => clear_value x; on_goal 2 => subst x))
    | with_reducible assumption | with_reducible rfl | with_reducible exact (fun h => h) | with_reducible apply each_kept | intro _ _ _
    | with_reducible apply setEntry_kept | split | (rename State => x; subst x) | with_reducible apply flex_kept
    | with_reducible exact PortsKept.refl _)

theorem pinRegion_kept {σ τ : State} (hw : Kept σ τ) (i : Nat) (r : Region) : Kept σ (pinRegion i r τ) := by
  unfold pinRegion
  repeat' (first
    | (extract_lets +onlyGivenNames x; try (refine (fun hx : Kept σ x => ?_) ?_; on_goal 1 => clear_value x; on_goal 2 => subst x))
    | with_reducible assumption | with_reducible rfl | with_reducible exact (fun h => h) | (rename State => x; subst x)
    | with_reducible apply flex_kept | with_reducible exact PortsKept.refl _)

theorem unpinRegion_kept {σ τ : State} (hw : Kept σ τ) (i : Nat) : Kept σ (unpinRegion i τ) := by
  unfold unpinRegion
  repeat' (first
    | (extract_lets +onlyGivenNames x; try (refine (fun hx : Kept σ x => ?_) ?_; on_goal 1 => clear_value x; on_goal 2 => subst x))
    | with_reducible assumption | with_reducible rfl | with_reducible exact (fun h => h) | (rename State => x; subst x)
    | with_reducible apply flex_kept | with_reducible exact PortsKept.refl _)

theorem setRegion_kept {σ τ : State} (hw : Kept σ τ) (i : Nat) (r : Region) : Kept σ (setRegion i r τ) := by
  unfold setRegion
  repeat' (first
    | (extract_lets +onlyGivenNames x; try (refine (fun hx : Kept σ x => ?_) ?_; on_goal 1 => clear_value x; on_goal 2 => subst x))
    | with_reducible assumption | with_reducible rfl | with_reducible exact (fun h => h) | (rename State => x; subst x)
    | with_reducible apply flex_kept | with_reducible exact PortsKept.refl _)

theorem demote_kept {σ τ : State} (hw : Kept σ τ) (i : Nat) (r : Region) : Kept σ (demote i r τ) := by
  unfold demote
  repeat' (first
    | (extract_lets +onlyGivenNames x; try (refine (fun hx : Kept σ x => ?_) ?_; on_goal 1 => clear_value x; on_goal 2 => subst x))
    | with_reducible assumption | with_reducible rfl | with_reducible exact (fun h => h) | with_reducible apply raise_kept
    | with_reducible apply releaseAnchors_kept | with_reducible apply unpinRegion_kept | with_reducible apply setRegion_kept | split
    | (rename State => x; subst x) | with_reducible apply flex_kept | with_reducible exact PortsKept.refl _)

theorem promote_kept {σ τ : State} (hw : Kept σ τ) (i : Nat) (r : Region) : Kept σ (promote i r τ) := by
  unfold promote
  repeat' (first
    | (extract_lets +onlyGivenNames x; try (refine (fun hx : Kept σ x => ?_) ?_; on_goal 1 => clear_value x; on_goal 2 => subst x))
    | with_reducible assumption | with_reducible rfl | with_reducible exact (fun h => h) | with_reducible apply raise_kept
    | with_reducible apply anchorRegion_kept | with_reducible apply pinRegion_kept | with_reducible apply setRegion_kept | split
    | (rename State => x; subst x) | with_reducible apply flex_kept | with_reducible exact PortsKept.refl _)

theorem fitDown_kept {σ τ : State} (hw : Kept σ τ) (l : List (Nat × Region)) : Kept σ (fitDown l τ) := by
  unfold fitDown
  repeat' (first
    | (extract_lets +onlyGivenNames x; try (refine (fun hx : Kept σ x => ?_) ?_; on_goal 1 => clear_value x; on_goal 2 => subst x))
    | with_reducible assumption | with_reducible rfl | with_reducible exact (fun h => h) | with_reducible apply each_kept | intro _ _ _
    | with_reducible apply demote_kept | split | (rename State => x; subst x) | with_reducible apply flex_kept
    | with_reducible exact PortsKept.refl _)

theorem fitUp_kept {σ τ : State} (hw : Kept σ τ) (l : List (Nat × Region)) : Kept σ (fitUp l τ) := by
  unfold fitUp
  repeat' (first
    | (extract_lets +onlyGivenNames x; try (refine (fun hx : Kept σ x => ?_) ?_; on_goal 1 => clear_value x; on_goal 2 => subst x))
    | with_reducible assumption | with_reducible rfl | with_reducible exact (fun h => h) | with_reducible apply each_kept | intro _ _ _
    | with_reducible apply promote_kept | split | (rename State => x; subst x) | with_reducible apply flex_kept
    | with_reducible exact PortsKept.refl _)

theorem refitRegions_kept {σ τ : State} (hw : Kept σ τ)  : Kept σ (refitRegions τ) := by
  unfold refitRegions
  repeat' (first
    | (extract_lets +onlyGivenNames x; try (refine (fun hx : Kept σ x => ?_) ?_; on_goal 1 => clear_value x; on_goal 2 => subst x))
    | with_reducible assumption | with_reducible rfl | with_reducible exact (fun h => h) | with_reducible apply fitDown_kept
    | with_reducible apply fitUp_kept | (rename State => x; subst x) | with_reducible apply flex_kept | with_reducible exact PortsKept.refl _)

/-! ### Regions -/

theorem jobDone_kept {σ τ : State} (hw : Kept σ τ) (b res0 res1 : Nat) (out : Option (List Byte)) : Kept σ (jobDone b res0 res1 out τ) := by
  unfold jobDone
  repeat' (first
    | (extract_lets +onlyGivenNames x; try (refine (fun hx : Kept σ x => ?_) ?_; on_goal 1 => clear_value x; on_goal 2 => subst x))
    | with_reducible assumption | with_reducible rfl | with_reducible exact (fun h => h) | with_reducible apply complete_kept | split
    | (rename State => x; subst x) | with_reducible apply flex_kept | with_reducible exact PortsKept.refl _)

theorem jobFail_kept {σ τ : State} (hw : Kept σ τ) (b status : Nat) : Kept σ (jobFail b status τ) := by
  unfold jobFail
  repeat' (first | with_reducible assumption | with_reducible apply complete_kept)

theorem pinAdmitted_kept {σ τ : State} (hw : Kept σ τ) (i : Nat) (r : Region) : Kept σ (pinAdmitted i r τ) := by
  unfold pinAdmitted
  repeat' (first | with_reducible assumption | with_reducible apply pinRegion_kept | split)

theorem mapJob_kept {σ τ : State} (hw : Kept σ τ) (b : Nat) : Kept σ (mapJob b τ) := by
  unfold mapJob
  repeat' (first
    | (extract_lets +onlyGivenNames x; try (refine (fun hx : Kept σ x => ?_) ?_; on_goal 1 => clear_value x; on_goal 2 => subst x))
    | with_reducible assumption | with_reducible rfl | with_reducible exact (fun h => h) | with_reducible apply count_kept
    | with_reducible apply modBob_kept | with_reducible apply waitAs_kept | with_reducible apply anchorRegion_kept
    | with_reducible apply setRegion_kept | with_reducible apply jobDone_kept | with_reducible apply jobFail_kept
    | with_reducible apply pinAdmitted_kept | split | (rename State => x; subst x) | with_reducible apply flex_kept
    | with_reducible exact PortsKept.refl _)

theorem dropBind_kept {σ τ : State} (hw : Kept σ τ) (i : Nat) : Kept σ (dropBind i τ) := by
  unfold dropBind
  repeat' (first
    | (extract_lets +onlyGivenNames x; try (refine (fun hx : Kept σ x => ?_) ?_; on_goal 1 => clear_value x; on_goal 2 => subst x))
    | with_reducible assumption | with_reducible rfl | with_reducible exact (fun h => h) | with_reducible apply raise_kept
    | with_reducible apply delSub_kept | with_reducible apply releaseBind_kept | split | (rename State => x; subst x)
    | with_reducible apply flex_kept | with_reducible exact PortsKept.refl _)

theorem unmapAccept_kept {σ τ : State} (hw : Kept σ τ) (b : Nat) : Kept σ (unmapAccept b τ) := by
  unfold unmapAccept
  repeat' (first
    | (extract_lets +onlyGivenNames x; try (refine (fun hx : Kept σ x => ?_) ?_; on_goal 1 => clear_value x; on_goal 2 => subst x))
    | with_reducible assumption | with_reducible rfl | with_reducible exact (fun h => h) | with_reducible apply each_kept | intro _ _ _
    | with_reducible apply count_kept | with_reducible apply setBob_kept | with_reducible apply releaseAnchors_kept
    | with_reducible apply unpinRegion_kept | with_reducible apply dropBind_kept | split | (rename State => x; subst x)
    | with_reducible apply flex_kept | with_reducible exact PortsKept.refl _)

theorem unmapHomeLine_kept {σ τ : State} (hw : Kept σ τ) (b la : Nat) : Kept σ (unmapHomeLine b la τ) := by
  unfold unmapHomeLine
  repeat' (first
    | (extract_lets +onlyGivenNames x; try (refine (fun hx : Kept σ x => ?_) ?_; on_goal 1 => clear_value x; on_goal 2 => subst x))
    | with_reducible assumption | with_reducible rfl | with_reducible exact (fun h => h) | with_reducible apply setEntry_kept
    | with_reducible apply ownProbe_kept | split | (rename State => x; subst x) | with_reducible apply flex_kept
    | with_reducible exact PortsKept.refl _)

theorem unmapCopy_kept {σ τ : State} (hw : Kept σ τ) (la : Nat) : Kept σ (unmapCopy la τ) := by
  unfold unmapCopy
  repeat' (first
    | (extract_lets +onlyGivenNames x; try (refine (fun hx : Kept σ x => ?_) ?_; on_goal 1 => clear_value x; on_goal 2 => subst x))
    | with_reducible assumption | with_reducible rfl | with_reducible exact (fun h => h) | with_reducible apply setCopy_kept
    | with_reducible apply sendOwn_kept | with_reducible apply evictM_kept | with_reducible apply evictP_kept
    | with_reducible apply evictClean_kept | split | (rename State => x; subst x) | with_reducible apply flex_kept
    | with_reducible exact PortsKept.refl _)

theorem unmapJob_kept {σ τ : State} (hw : Kept σ τ) (b : Nat) : Kept σ (unmapJob b τ) := by
  unfold unmapJob
  repeat' (first
    | (extract_lets +onlyGivenNames x; try (refine (fun hx : Kept σ x => ?_) ?_; on_goal 1 => clear_value x; on_goal 2 => subst x))
    | with_reducible assumption | with_reducible rfl | with_reducible exact (fun h => h) | with_reducible apply each_kept | intro _ _ _
    | with_reducible apply waitAs_kept | with_reducible apply jobDone_kept | with_reducible apply jobFail_kept
    | with_reducible apply unmapHomeLine_kept | with_reducible apply unmapCopy_kept | split | (rename State => x; subst x)
    | with_reducible apply flex_kept | with_reducible exact PortsKept.refl _)

theorem setAttrJob_kept {σ τ : State} (hw : Kept σ τ) (b : Nat) : Kept σ (setAttrJob b τ) := by
  unfold setAttrJob
  repeat' (first
    | (extract_lets +onlyGivenNames x; try (refine (fun hx : Kept σ x => ?_) ?_; on_goal 1 => clear_value x; on_goal 2 => subst x))
    | with_reducible assumption | with_reducible rfl | with_reducible exact (fun h => h) | with_reducible apply waitAs_kept | split
    | (rename State => x; subst x) | with_reducible apply flex_kept | with_reducible exact PortsKept.refl _)

theorem setAttrCommit_kept {σ τ : State} (hw : Kept σ τ) (b : Nat) : Kept σ (setAttrCommit b τ) := by
  unfold setAttrCommit
  repeat' (first
    | (extract_lets +onlyGivenNames x; try (refine (fun hx : Kept σ x => ?_) ?_; on_goal 1 => clear_value x; on_goal 2 => subst x))
    | with_reducible assumption | with_reducible rfl | with_reducible exact (fun h => h) | with_reducible apply modBob_kept
    | with_reducible apply anchorRegion_kept | with_reducible apply releaseAnchors_kept | with_reducible apply unpinRegion_kept
    | with_reducible apply setRegion_kept | with_reducible apply jobDone_kept | with_reducible apply jobFail_kept
    | with_reducible apply pinAdmitted_kept | split | (rename State => x; subst x) | with_reducible apply flex_kept
    | with_reducible exact PortsKept.refl _)

theorem queryRegionJob_kept {σ τ : State} (hw : Kept σ τ) (b : Nat) : Kept σ (queryRegionJob b τ) := by
  unfold queryRegionJob
  repeat' (first
    | (extract_lets +onlyGivenNames x; try (refine (fun hx : Kept σ x => ?_) ?_; on_goal 1 => clear_value x; on_goal 2 => subst x))
    | with_reducible assumption | with_reducible rfl | with_reducible exact (fun h => h) | with_reducible apply jobDone_kept
    | with_reducible apply jobFail_kept | split | (rename State => x; subst x) | with_reducible apply flex_kept
    | with_reducible exact PortsKept.refl _)

/-! ### Bind -/

theorem bindSetup_kept {σ τ : State} (hw : Kept σ τ) (e : Bind) (taken : List Nat) : Kept σ (bindSetup e taken τ) := by
  unfold bindSetup
  repeat' (first
    | (focus (intro c hm; (try extract_lets); (try dsimp only); with_reducible (repeat' first | exact hm | apply memPuts_wf | apply memPut_wf | split); done))
    | (focus (intro hm; (try extract_lets); (try dsimp only); with_reducible (repeat' first | exact hm | apply memPuts_wf | apply memPut_wf | split); done)) | (extract_lets +onlyGivenNames x; try (refine (fun hx : Kept σ x => ?_) ?_; on_goal 1 => clear_value x; on_goal 2 => subst x))
    | with_reducible assumption | with_reducible rfl | with_reducible exact (fun h => h) | with_reducible apply modPort_kept
    | with_reducible apply regSet_kept | split | (rename State => x; subst x) | with_reducible apply flex_kept
    | with_reducible exact PortsKept.refl _)

theorem bindCanJob_kept {σ τ : State} (hw : Kept σ τ) (b : Nat) : Kept σ (bindCanJob b τ) := by
  unfold bindCanJob
  repeat' (first
    | (extract_lets +onlyGivenNames x; try (refine (fun hx : Kept σ x => ?_) ?_; on_goal 1 => clear_value x; on_goal 2 => subst x))
    | with_reducible assumption | with_reducible rfl | with_reducible exact (fun h => h) | with_reducible apply ungate_kept
    | with_reducible apply modBob_kept | with_reducible apply bindSubStart_kept | with_reducible apply jobDone_kept
    | with_reducible apply jobFail_kept | with_reducible apply bindSetup_kept | split | (rename State => x; subst x)
    | with_reducible apply flex_kept | with_reducible exact PortsKept.refl _)

theorem unbindCanJob_kept {σ τ : State} (hw : Kept σ τ) (b : Nat) : Kept σ (unbindCanJob b τ) := by
  unfold unbindCanJob
  repeat' (first
    | (extract_lets +onlyGivenNames x; try (refine (fun hx : Kept σ x => ?_) ?_; on_goal 1 => clear_value x; on_goal 2 => subst x))
    | with_reducible assumption | with_reducible rfl | with_reducible exact (fun h => h) | with_reducible apply jobFail_kept
    | with_reducible apply dropBind_kept | with_reducible apply dropWay_kept | with_reducible apply sendOwed_kept | with_reducible apply jobDone_kept
    | split | (rename State => x; subst x) | with_reducible apply flex_kept | with_reducible exact PortsKept.refl _
    | (simp only [List.length_modify, List.length_map, List.length_set, lmod]; done))

theorem dropWaiting_kept {σ τ : State} (hw : Kept σ τ) (i : Nat) (e : Bind) : Kept σ (dropWaiting i e τ) := by
  unfold dropWaiting
  repeat' (first
    | (focus (intro c hm; (try extract_lets); (try dsimp only); with_reducible (repeat' first | exact hm | apply memPuts_wf | apply memPut_wf | split); done))
    | (focus (intro hm; (try extract_lets); (try dsimp only); with_reducible (repeat' first | exact hm | apply memPuts_wf | apply memPut_wf | split); done)) | (extract_lets +onlyGivenNames x; try (refine (fun hx : Kept σ x => ?_) ?_; on_goal 1 => clear_value x; on_goal 2 => subst x))
    | with_reducible assumption | with_reducible rfl | with_reducible exact (fun h => h) | with_reducible apply modPort_kept
    | (rename State => x; subst x) | with_reducible apply flex_kept | with_reducible exact PortsKept.refl _)

theorem loadFrame_kept {σ τ : State} (hw : Kept σ τ) (i : Nat) (e : Bind) (f : CanFrame) : Kept σ (loadFrame i e f τ) := by
  unfold loadFrame
  repeat' (first
    | (focus (intro c hm; (try extract_lets); (try dsimp only); with_reducible (repeat' first | exact hm | apply memPuts_wf | apply memPut_wf | split); done))
    | (focus (intro hm; (try extract_lets); (try dsimp only); with_reducible (repeat' first | exact hm | apply memPuts_wf | apply memPut_wf | split); done)) | (extract_lets +onlyGivenNames x; try (refine (fun hx : Kept σ x => ?_) ?_; on_goal 1 => clear_value x; on_goal 2 => subst x))
    | with_reducible assumption | with_reducible rfl | with_reducible exact (fun h => h) | with_reducible apply modPort_kept
    | with_reducible apply objFlag_kept | split | (rename State => x; subst x) | with_reducible apply flex_kept
    | with_reducible exact PortsKept.refl _)

/-! ### Ops -/

theorem pmcCycle_kept {σ τ : State} (hw : Kept σ τ) (i : Nat) : Kept σ (pmcCycle τ i) := by
  unfold pmcCycle
  repeat' (first
    | (extract_lets +onlyGivenNames x; try (refine (fun hx : Kept σ x => ?_) ?_; on_goal 1 => clear_value x; on_goal 2 => subst x))
    | with_reducible assumption | with_reducible apply raise_kept | with_reducible apply pmcAdd_kept | split | (rename State => x; subst x))

theorem coreCycle_kept {σ τ : State} (hw : Kept σ τ)  : Kept σ (coreCycle τ) := by
  unfold coreCycle
  repeat' (first
    | (extract_lets +onlyGivenNames x; try (refine (fun hx : Kept σ x => ?_) ?_; on_goal 1 => clear_value x; on_goal 2 => subst x))
    | with_reducible assumption | with_reducible rfl | with_reducible exact (fun h => h) | with_reducible apply foldl_kept | intro _ _ _
    | with_reducible apply pmcCycle_kept | (rename State => x; subst x) | with_reducible apply flex_kept | with_reducible exact PortsKept.refl _)

/-! ### Fetch -/

theorem forgetReads_kept {σ τ : State} (hw : Kept σ τ) (f : DmaUse → Bool) : Kept σ (forgetReads f τ) := by
  unfold forgetReads
  repeat' (first
    | (extract_lets +onlyGivenNames x; try (refine (fun hx : Kept σ x => ?_) ?_; on_goal 1 => clear_value x; on_goal 2 => subst x))
    | with_reducible assumption | with_reducible rfl | with_reducible exact (fun h => h) | split | (rename State => x; subst x)
    | with_reducible apply flex_kept | with_reducible exact PortsKept.refl _)

theorem sqRead_kept {σ τ : State} (hw : Kept σ τ) (n i : Nat) : Kept σ (sqRead n i τ) := by
  unfold sqRead
  repeat' (first
    | (extract_lets +onlyGivenNames x; try (refine (fun hx : Kept σ x => ?_) ?_; on_goal 1 => clear_value x; on_goal 2 => subst x))
    | with_reducible assumption | with_reducible rfl | with_reducible exact (fun h => h) | with_reducible apply dmaRead_kept | split
    | (rename State => x; subst x) | with_reducible apply flex_kept | with_reducible exact PortsKept.refl _)

theorem takeIndex_kept {σ τ : State} (hw : Kept σ τ) (n : Nat) (bytes : List Byte) (tail : Bool) : Kept σ (takeIndex n bytes tail τ) := by
  unfold takeIndex
  repeat' (first
    | (extract_lets +onlyGivenNames x; try (refine (fun hx : Kept σ x => ?_) ?_; on_goal 1 => clear_value x; on_goal 2 => subst x))
    | with_reducible assumption | with_reducible rfl | with_reducible exact (fun h => h) | with_reducible apply modTen_kept
    | with_reducible apply cqAdvance_kept | split | (rename State => x; subst x) | with_reducible apply flex_kept
    | with_reducible exact PortsKept.refl _)

theorem trimLatch_kept {σ τ : State} (hw : Kept σ τ) (n : Nat) : Kept σ (trimLatch n τ) := by
  unfold trimLatch
  repeat' (first
    | (extract_lets +onlyGivenNames x; try (refine (fun hx : Kept σ x => ?_) ?_; on_goal 1 => clear_value x; on_goal 2 => subst x))
    | with_reducible assumption | with_reducible rfl | with_reducible exact (fun h => h) | with_reducible apply latch_kept
    | with_reducible apply modTen_kept | (rename State => x; subst x) | with_reducible apply flex_kept | with_reducible exact PortsKept.refl _)

theorem readIndex_kept {σ τ : State} (hw : Kept σ τ) (n : Nat) (tail : Bool) : Kept σ (readIndex n tail τ) := by
  unfold readIndex
  repeat' (first
    | (extract_lets +onlyGivenNames x; try (refine (fun hx : Kept σ x => ?_) ?_; on_goal 1 => clear_value x; on_goal 2 => subst x))
    | with_reducible assumption | with_reducible rfl | with_reducible exact (fun h => h) | with_reducible apply modTen_kept
    | with_reducible apply dmaRead_kept | with_reducible apply takeIndex_kept | with_reducible apply trimLatch_kept | split
    | (rename State => x; subst x) | with_reducible apply flex_kept | with_reducible exact PortsKept.refl _)

theorem reserveWay_kept {σ τ : State} (hw : Kept σ τ) (b la : Nat) (v : Bobbin) : Kept σ (reserveWay b la v τ) := by
  unfold reserveWay
  repeat' (first
    | (extract_lets +onlyGivenNames x; try (refine (fun hx : Kept σ x => ?_) ?_; on_goal 1 => clear_value x; on_goal 2 => subst x))
    | with_reducible assumption | with_reducible rfl | with_reducible exact (fun h => h) | with_reducible apply takeWay_kept | split
    | (rename State => x; subst x) | with_reducible apply flex_kept | with_reducible exact PortsKept.refl _)

theorem acceptJob_kept {σ τ : State} (hw : Kept σ τ) (b : Nat) (v : Bobbin) : Kept σ (acceptJob b v τ) := by
  unfold acceptJob
  repeat' (first
    | (extract_lets +onlyGivenNames x; try (refine (fun hx : Kept σ x => ?_) ?_; on_goal 1 => clear_value x; on_goal 2 => subst x))
    | with_reducible assumption | with_reducible rfl | with_reducible exact (fun h => h) | with_reducible apply count_kept
    | with_reducible apply raise_kept | with_reducible apply logClamps_kept | with_reducible apply setBob_kept
    | with_reducible apply acceptBob_kept | with_reducible apply complete_kept | with_reducible apply unmapAccept_kept
    | with_reducible apply reserveWay_kept | split | (rename State => x; subst x) | with_reducible apply flex_kept
    | with_reducible exact PortsKept.refl _)

theorem goOnReading_kept {σ τ : State} (hw : Kept σ τ) (b : Nat) : Kept σ (goOnReading b τ) := by
  unfold goOnReading
  repeat' (first
    | (extract_lets +onlyGivenNames x; try (refine (fun hx : Kept σ x => ?_) ?_; on_goal 1 => clear_value x; on_goal 2 => subst x))
    | with_reducible assumption | with_reducible rfl | with_reducible exact (fun h => h) | with_reducible apply dmaRead_kept
    | with_reducible apply setBob_kept | with_reducible apply acceptJob_kept | split | (rename State => x; subst x)
    | with_reducible apply flex_kept | with_reducible exact PortsKept.refl _)

theorem dmaKick_kept {σ τ : State} (hw : Kept σ τ)  : Kept σ (dmaKick τ) := by
  unfold dmaKick
  repeat' (first
    | (extract_lets +onlyGivenNames x; try (refine (fun hx : Kept σ x => ?_) ?_; on_goal 1 => clear_value x; on_goal 2 => subst x))
    | with_reducible assumption | with_reducible rfl | with_reducible exact (fun h => h) | with_reducible apply each_kept | intro _ _ _
    | with_reducible apply modTen_kept | with_reducible apply readIndex_kept | with_reducible apply goOnReading_kept | split
    | (rename State => x; subst x) | with_reducible apply flex_kept | with_reducible exact PortsKept.refl _)

theorem startArgs_kept {σ τ : State} (hw : Kept σ τ) (b : Nat) (v : Bobbin) : Kept σ (startArgs b v τ) := by
  unfold startArgs
  repeat' (first
    | (extract_lets +onlyGivenNames x; try (refine (fun hx : Kept σ x => ?_) ?_; on_goal 1 => clear_value x; on_goal 2 => subst x))
    | with_reducible assumption | with_reducible rfl | with_reducible exact (fun h => h) | with_reducible apply setBob_kept
    | with_reducible apply acceptJob_kept | with_reducible apply goOnReading_kept | split | (rename State => x; subst x)
    | with_reducible apply flex_kept | with_reducible exact PortsKept.refl _)

theorem beginJob_kept {σ τ : State} (hw : Kept σ τ) (b : Nat) (v : Bobbin) (ok : Bool) : Kept σ (beginJob b v ok τ) := by
  unfold beginJob
  repeat' (first
    | (extract_lets +onlyGivenNames x; try (refine (fun hx : Kept σ x => ?_) ?_; on_goal 1 => clear_value x; on_goal 2 => subst x))
    | with_reducible assumption | with_reducible rfl | with_reducible exact (fun h => h) | with_reducible apply setBob_kept
    | with_reducible apply complete_kept | with_reducible apply acceptJob_kept | with_reducible apply startArgs_kept | split
    | (rename State => x; subst x) | with_reducible apply flex_kept | with_reducible exact PortsKept.refl _)

theorem fetchInto_kept {σ τ : State} (hw : Kept σ τ) (n b : Nat) (es : List (List Byte)) : Kept σ (fetchInto n b es τ) := by
  unfold fetchInto
  repeat' (first
    | (extract_lets +onlyGivenNames x; try (refine (fun hx : Kept σ x => ?_) ?_; on_goal 1 => clear_value x; on_goal 2 => subst x))
    | with_reducible assumption | with_reducible rfl | with_reducible exact (fun h => h) | with_reducible apply count_kept
    | with_reducible apply perf_kept | with_reducible apply perfN_kept | with_reducible apply latch_kept | with_reducible apply modTen_kept
    | with_reducible apply beginJob_kept | (rename State => x; subst x) | with_reducible apply flex_kept | with_reducible exact PortsKept.refl _
    | (simp only [List.length_modify, List.length_map, List.length_set, lmod]; done))

theorem fetchTurn_kept {σ τ : State} (hw : Kept σ τ) (n : Nat) : Kept σ (fetchTurn n τ).1 := by
  unfold fetchTurn
  repeat' (first
    | (extract_lets +onlyGivenNames x; try (refine (fun hx : Kept σ x => ?_) ?_; on_goal 1 => clear_value x; on_goal 2 => subst x))
    | with_reducible assumption | with_reducible rfl | with_reducible exact (fun h => h) | with_reducible apply modTen_kept
    | with_reducible apply sqRead_kept | with_reducible apply fetchInto_kept | split | (rename State => x; subst x)
    | with_reducible apply flex_kept | with_reducible exact PortsKept.refl _)

theorem startCmds_kept {σ τ : State} (hw : Kept σ τ)  (fu : List (Nat × List Byte)) : Kept σ (startCmds  fu τ) := by
  induction fu generalizing τ  with
  | nil => unfold startCmds; first | exact hw | exact flex_kept hw _ _ _ _ _ _ _ _ _ _ _ _ _ _ _ _ _ _ _ rfl rfl id id id rfl (PortsKept.refl _)
  | cons a n ih =>
    unfold startCmds
    repeat' (first
    | (extract_lets +onlyGivenNames x; try (refine (fun hx : Kept σ x => ?_) ?_; on_goal 1 => clear_value x; on_goal 2 => subst x))
    | with_reducible assumption | with_reducible rfl | with_reducible exact (fun h => h) | with_reducible apply ih
    | with_reducible apply raise_kept | with_reducible apply beginJob_kept | split | (rename State => x; subst x)
    | with_reducible apply flex_kept | with_reducible exact PortsKept.refl _)

theorem goOnCmds_kept {σ τ : State} (hw : Kept σ τ)  : Kept σ (goOnCmds τ) := by
  unfold goOnCmds
  repeat' (first | with_reducible assumption | with_reducible apply startCmds_kept | split)

theorem ringReadFailed_kept {σ τ : State} (hw : Kept σ τ) (n : Nat) : Kept σ (ringReadFailed n τ) := by
  unfold ringReadFailed
  repeat' (first
    | (extract_lets +onlyGivenNames x; try (refine (fun hx : Kept σ x => ?_) ?_; on_goal 1 => clear_value x; on_goal 2 => subst x))
    | with_reducible assumption | with_reducible rfl | with_reducible exact (fun h => h) | with_reducible apply count_kept
    | with_reducible apply raise_kept | with_reducible apply modTen_kept | (rename State => x; subst x) | with_reducible apply flex_kept
    | with_reducible exact PortsKept.refl _)

theorem sqArrived_kept {σ τ : State} (hw : Kept σ τ) (n first k : Nat) (bytes : List Byte) : Kept σ (sqArrived n first k bytes τ) := by
  unfold sqArrived
  repeat' (first
    | (extract_lets +onlyGivenNames x; try (refine (fun hx : Kept σ x => ?_) ?_; on_goal 1 => clear_value x; on_goal 2 => subst x))
    | with_reducible assumption | with_reducible rfl | with_reducible exact (fun h => h) | with_reducible apply each_kept | intro _ _ _
    | with_reducible apply modTen_kept | (rename State => x; subst x) | with_reducible apply flex_kept | with_reducible exact PortsKept.refl _)

theorem bobArrived_kept {σ τ : State} (hw : Kept σ τ) (b : Nat) (f : Bobbin → Bobbin) : Kept σ (bobArrived b f τ) := by
  unfold bobArrived
  repeat' (first | with_reducible assumption | with_reducible apply modBob_kept | with_reducible apply goOnReading_kept)

theorem dmaArrived_kept {σ τ : State} (hw : Kept σ τ) (u : DmaUse) (r : DmaResult) : Kept σ (dmaArrived u r τ) := by
  unfold dmaArrived
  repeat' (first
    | (extract_lets +onlyGivenNames x; try (refine (fun hx : Kept σ x => ?_) ?_; on_goal 1 => clear_value x; on_goal 2 => subst x))
    | with_reducible assumption | with_reducible rfl | with_reducible exact (fun h => h) | with_reducible apply modTen_kept
    | with_reducible apply complete_kept | with_reducible apply takeIndex_kept | with_reducible apply trimLatch_kept
    | with_reducible apply ringReadFailed_kept | with_reducible apply sqArrived_kept | with_reducible apply bobArrived_kept | split
    | (rename State => x; subst x) | with_reducible apply flex_kept | with_reducible exact PortsKept.refl _)

theorem detachPicot_kept {σ τ : State} (hw : Kept σ τ) (b : Nat) : Kept σ (detachPicot b τ) := by
  unfold detachPicot
  repeat' (first
    | (extract_lets +onlyGivenNames x; try (refine (fun hx : Kept σ x => ?_) ?_; on_goal 1 => clear_value x; on_goal 2 => subst x))
    | with_reducible assumption | with_reducible rfl | with_reducible exact (fun h => h) | split | (rename State => x; subst x)
    | with_reducible apply flex_kept | with_reducible exact PortsKept.refl _)

theorem letGo_kept {σ τ : State} (hw : Kept σ τ) (b : Nat) (v : Bobbin) : Kept σ (letGo b v τ) := by
  unfold letGo
  repeat' (first
    | (extract_lets +onlyGivenNames x; try (refine (fun hx : Kept σ x => ?_) ?_; on_goal 1 => clear_value x; on_goal 2 => subst x))
    | with_reducible assumption | with_reducible rfl | with_reducible exact (fun h => h) | with_reducible apply releaseBind_kept
    | with_reducible apply releaseAnchors_kept | with_reducible apply forgetReads_kept | split | (rename State => x; subst x)
    | with_reducible apply flex_kept | with_reducible exact PortsKept.refl _)

/-! ### Phase -/

theorem pckSettle_kept {σ τ : State} (hw : Kept σ τ) (was : Bool) : Kept σ (pckSettle was τ) := by
  unfold pckSettle
  repeat' (first
    | (extract_lets +onlyGivenNames x; try (refine (fun hx : Kept σ x => ?_) ?_; on_goal 1 => clear_value x; on_goal 2 => subst x))
    | with_reducible assumption | with_reducible rfl | with_reducible exact (fun h => h) | with_reducible apply raise_kept | split
    | (rename State => x; subst x) | with_reducible apply flex_kept | with_reducible exact PortsKept.refl _
    | (simp only [List.length_modify, List.length_map, List.length_set, lmod]; done))

theorem pckUpdate_kept {σ τ : State} (hw : Kept σ τ)  : Kept σ (pckUpdate τ) := by
  unfold pckUpdate
  repeat' (first
    | (extract_lets +onlyGivenNames x; try (refine (fun hx : Kept σ x => ?_) ?_; on_goal 1 => clear_value x; on_goal 2 => subst x))
    | with_reducible assumption | with_reducible rfl | with_reducible exact (fun h => h) | with_reducible apply pckSettle_kept | split
    | (rename State => x; subst x) | with_reducible apply flex_kept | with_reducible exact PortsKept.refl _
    | (simp only [List.length_modify, List.length_map, List.length_set, lmod]; done))

theorem pckSample_kept {σ τ : State} (hw : Kept σ τ) (d : Int) : Kept σ (pckSample d τ) := by
  unfold pckSample
  repeat' (first
    | (extract_lets +onlyGivenNames x; try (refine (fun hx : Kept σ x => ?_) ?_; on_goal 1 => clear_value x; on_goal 2 => subst x))
    | with_reducible assumption | with_reducible rfl | with_reducible exact (fun h => h) | with_reducible apply pckSettle_kept | split
    | (rename State => x; subst x) | with_reducible apply flex_kept | with_reducible exact PortsKept.refl _
    | (simp only [List.length_modify, List.length_map, List.length_set, lmod]; done))

theorem modCh_kept {σ τ : State} (hw : Kept σ τ) (n : Nat) (f : PicotCh → PicotCh) : Kept σ (modCh n f τ) := by
  unfold modCh
  repeat' (first
    | (extract_lets +onlyGivenNames x; try (refine (fun hx : Kept σ x => ?_) ?_; on_goal 1 => clear_value x; on_goal 2 => subst x))
    | with_reducible assumption | with_reducible rfl | with_reducible exact (fun h => h) | (rename State => x; subst x)
    | with_reducible apply flex_kept | with_reducible exact PortsKept.refl _)

theorem picStep_kept {σ τ : State} (hw : Kept σ τ) (row : Bool) : Kept σ (picStep row τ) := by
  unfold picStep
  repeat' (first
    | (extract_lets +onlyGivenNames x; try (refine (fun hx : Kept σ x => ?_) ?_; on_goal 1 => clear_value x; on_goal 2 => subst x))
    | with_reducible assumption | with_reducible rfl | with_reducible exact (fun h => h) | with_reducible apply each_kept | intro _ _ _
    | with_reducible apply raise_kept | with_reducible apply modCh_kept | split | (rename State => x; subst x) | with_reducible apply flex_kept
    | with_reducible exact PortsKept.refl _)

theorem picPark_kept {σ τ : State} (hw : Kept σ τ)  : Kept σ (picPark τ) := by
  unfold picPark
  repeat' (first
    | (extract_lets +onlyGivenNames x; try (refine (fun hx : Kept σ x => ?_) ?_; on_goal 1 => clear_value x; on_goal 2 => subst x))
    | with_reducible assumption | with_reducible rfl | with_reducible exact (fun h => h) | with_reducible apply each_kept | intro _ _ _
    | with_reducible apply modCh_kept | split | (rename State => x; subst x) | with_reducible apply flex_kept
    | with_reducible exact PortsKept.refl _)

theorem phaseDone_kept {σ τ : State} (hw : Kept σ τ) (b : Nat) (v : Bobbin) : Kept σ (phaseDone b v τ) := by
  unfold phaseDone
  repeat' (first
    | (extract_lets +onlyGivenNames x; try (refine (fun hx : Kept σ x => ?_) ?_; on_goal 1 => clear_value x; on_goal 2 => subst x))
    | with_reducible assumption | with_reducible apply jobDone_kept | split | (rename State => x; subst x))

theorem phaseWaiters_kept {σ τ : State} (hw : Kept σ τ)  : Kept σ (phaseWaiters τ) := by
  unfold phaseWaiters
  repeat' (first | with_reducible assumption | with_reducible apply each_kept | intro _ _ _ | with_reducible apply phaseDone_kept | split)

theorem stepped_kept {σ τ : State} (hw : Kept σ τ) (row : Bool) : Kept σ (stepped row τ) := by
  unfold stepped
  repeat' (first | with_reducible assumption | with_reducible apply picStep_kept | with_reducible apply phaseWaiters_kept)

theorem setDev_kept {σ τ : State} (hw : Kept σ τ) (st : DevState) : Kept σ (setDev st τ) := by
  unfold setDev
  repeat' (first
    | (extract_lets +onlyGivenNames x; try (refine (fun hx : Kept σ x => ?_) ?_; on_goal 1 => clear_value x; on_goal 2 => subst x))
    | with_reducible assumption | with_reducible rfl | with_reducible exact (fun h => h) | with_reducible apply raise_kept | split
    | (rename State => x; subst x) | with_reducible apply flex_kept | with_reducible exact PortsKept.refl _)

theorem setTime_kept {σ τ : State} (hw : Kept σ τ) (ts : TState) : Kept σ (setTime ts τ) := by
  unfold setTime
  repeat' (first
    | (extract_lets +onlyGivenNames x; try (refine (fun hx : Kept σ x => ?_) ?_; on_goal 1 => clear_value x; on_goal 2 => subst x))
    | with_reducible assumption | with_reducible rfl | with_reducible exact (fun h => h) | with_reducible apply raise_kept
    | with_reducible apply pckUpdate_kept | with_reducible apply picPark_kept | split | (rename State => x; subst x)
    | with_reducible apply flex_kept | with_reducible exact PortsKept.refl _)

theorem anchorRow_kept {σ τ : State} (hw : Kept σ τ) (ph : Phase) : Kept σ (anchorRow ph τ) := by
  unfold anchorRow
  repeat' (first
    | (extract_lets +onlyGivenNames x; try (refine (fun hx : Kept σ x => ?_) ?_; on_goal 1 => clear_value x; on_goal 2 => subst x))
    | with_reducible assumption | with_reducible rfl | with_reducible exact (fun h => h) | (rename State => x; subst x)
    | with_reducible apply flex_kept | with_reducible exact PortsKept.refl _)

theorem anchorTrue_kept {σ τ : State} (hw : Kept σ τ) (ph : Phase) : Kept σ (anchorTrue ph τ) := by
  unfold anchorTrue
  repeat' (first
    | (extract_lets +onlyGivenNames x; try (refine (fun hx : Kept σ x => ?_) ?_; on_goal 1 => clear_value x; on_goal 2 => subst x))
    | with_reducible assumption | with_reducible rfl | with_reducible exact (fun h => h) | (rename State => x; subst x)
    | with_reducible apply flex_kept | with_reducible exact PortsKept.refl _)

theorem freeTrue_kept {σ τ : State} (hw : Kept σ τ)  : Kept σ (freeTrue τ) := by
  unfold freeTrue
  repeat' (first
    | (extract_lets +onlyGivenNames x; try (refine (fun hx : Kept σ x => ?_) ?_; on_goal 1 => clear_value x; on_goal 2 => subst x))
    | with_reducible assumption | with_reducible rfl | with_reducible exact (fun h => h) | with_reducible apply anchorTrue_kept | split
    | (rename State => x; subst x) | with_reducible apply flex_kept | with_reducible exact PortsKept.refl _
    | (simp only [List.length_modify, List.length_map, List.length_set, lmod]; done))

theorem setLocked_kept {σ τ : State} (hw : Kept σ τ) (b : Bool) : Kept σ (setLocked b τ) := by
  unfold setLocked
  repeat' (first
    | (extract_lets +onlyGivenNames x; try (refine (fun hx : Kept σ x => ?_) ?_; on_goal 1 => clear_value x; on_goal 2 => subst x))
    | with_reducible assumption | with_reducible rfl | with_reducible exact (fun h => h) | with_reducible apply freeTrue_kept
    | with_reducible apply raise_kept | split | (rename State => x; subst x) | with_reducible apply flex_kept | with_reducible exact PortsKept.refl _
    | (simp only [List.length_modify, List.length_map, List.length_set, lmod]; done))

theorem setTvalid_kept {σ τ : State} (hw : Kept σ τ) (b : Bool) : Kept σ (setTvalid b τ) := by
  unfold setTvalid
  repeat' (first
    | (extract_lets +onlyGivenNames x; try (refine (fun hx : Kept σ x => ?_) ?_; on_goal 1 => clear_value x; on_goal 2 => subst x))
    | with_reducible assumption | with_reducible rfl | with_reducible exact (fun h => h) | with_reducible apply setLocked_kept
    | with_reducible apply freeTrue_kept | with_reducible apply pckUpdate_kept | with_reducible apply raise_kept | split
    | (rename State => x; subst x) | with_reducible apply flex_kept | with_reducible exact PortsKept.refl _
    | (simp only [List.length_modify, List.length_map, List.length_set, lmod]; done))

theorem timeForDev_kept {σ τ : State} (hw : Kept σ τ)  : Kept σ (timeForDev τ) := by
  unfold timeForDev
  repeat' (first
    | (extract_lets +onlyGivenNames x; try (refine (fun hx : Kept σ x => ?_) ?_; on_goal 1 => clear_value x; on_goal 2 => subst x))
    | with_reducible assumption | with_reducible rfl | with_reducible exact (fun h => h) | with_reducible apply setTime_kept | split
    | (rename State => x; subst x) | with_reducible apply flex_kept | with_reducible exact PortsKept.refl _)

theorem putPeriod_kept {σ τ : State} (hw : Kept σ τ) (p : Nat) : Kept σ (putPeriod p τ) := by
  unfold putPeriod
  repeat' (first
    | (extract_lets +onlyGivenNames x; try (refine (fun hx : Kept σ x => ?_) ?_; on_goal 1 => clear_value x; on_goal 2 => subst x))
    | with_reducible assumption | with_reducible rfl | with_reducible exact (fun h => h) | split | (rename State => x; subst x)
    | with_reducible apply flex_kept | with_reducible exact PortsKept.refl _
    | (simp only [List.length_modify, List.length_map, List.length_set, lmod]; done))

theorem setPeriod_kept {σ τ : State} (hw : Kept σ τ) (p : Nat) : Kept σ (setPeriod p τ) := by
  unfold setPeriod
  repeat' (first
    | (extract_lets +onlyGivenNames x; try (refine (fun hx : Kept σ x => ?_) ?_; on_goal 1 => clear_value x; on_goal 2 => subst x))
    | with_reducible assumption | with_reducible rfl | with_reducible exact (fun h => h) | with_reducible apply putPeriod_kept
    | with_reducible apply anchorRow_kept | split | (rename State => x; subst x) | with_reducible apply flex_kept
    | with_reducible exact PortsKept.refl _ | (simp only [List.length_modify, List.length_map, List.length_set, lmod]; done))

theorem setTperiod_kept {σ τ : State} (hw : Kept σ τ) (p : Nat) : Kept σ (setTperiod p τ) := by
  unfold setTperiod
  repeat' (first
    | (extract_lets +onlyGivenNames x; try (refine (fun hx : Kept σ x => ?_) ?_; on_goal 1 => clear_value x; on_goal 2 => subst x))
    | with_reducible assumption | with_reducible rfl | with_reducible exact (fun h => h) | with_reducible apply anchorTrue_kept
    | (rename State => x; subst x) | with_reducible apply flex_kept | with_reducible exact PortsKept.refl _)

theorem noteTier_kept {σ τ : State} (hw : Kept σ τ)  : Kept σ (noteTier τ) := by
  unfold noteTier
  repeat' (first
    | (extract_lets +onlyGivenNames x; try (refine (fun hx : Kept σ x => ?_) ?_; on_goal 1 => clear_value x; on_goal 2 => subst x))
    | with_reducible assumption | with_reducible rfl | with_reducible exact (fun h => h) | split | (rename State => x; subst x)
    | with_reducible apply flex_kept | with_reducible exact PortsKept.refl _
    | (simp only [List.length_modify, List.length_map, List.length_set, lmod]; done))

theorem masterSource_kept {σ τ : State} (hw : Kept σ τ)  : Kept σ (masterSource τ) := by
  unfold masterSource
  repeat' (first
    | (extract_lets +onlyGivenNames x; try (refine (fun hx : Kept σ x => ?_) ?_; on_goal 1 => clear_value x; on_goal 2 => subst x))
    | with_reducible assumption | with_reducible rfl | with_reducible exact (fun h => h) | with_reducible apply noteTier_kept
    | with_reducible apply setTvalid_kept | split | (rename State => x; subst x) | with_reducible apply flex_kept
    | with_reducible exact PortsKept.refl _ | (simp only [List.length_modify, List.length_map, List.length_set, lmod]; done))

theorem zxSource_kept {σ τ : State} (hw : Kept σ τ)  : Kept σ (zxSource τ) := by
  unfold zxSource
  refine instant_kept hw _ fun σ τ hw => ?_
  repeat' (first
    | (extract_lets +onlyGivenNames x; try (refine (fun hx : Kept σ x => ?_) ?_; on_goal 1 => clear_value x; on_goal 2 => subst x))
    | with_reducible assumption | with_reducible rfl | with_reducible exact (fun h => h) | with_reducible apply raise_kept
    | with_reducible apply masterSource_kept | with_reducible apply pckUpdate_kept | split | (rename State => x; subst x)
    | with_reducible apply flex_kept | with_reducible exact PortsKept.refl _
    | (simp only [List.length_modify, List.length_map, List.length_set, lmod]; done))

theorem loopSample_kept {σ τ : State} (hw : Kept σ τ) (t : Int) (ph : Phase) : Kept σ (loopSample t ph τ) := by
  unfold loopSample
  repeat' (first
    | (extract_lets +onlyGivenNames x; try (refine (fun hx : Kept σ x => ?_) ?_; on_goal 1 => clear_value x; on_goal 2 => subst x))
    | with_reducible assumption | with_reducible rfl | with_reducible exact (fun h => h) | split | (rename State => x; subst x)
    | with_reducible apply flex_kept | with_reducible exact PortsKept.refl _
    | (simp only [List.length_modify, List.length_map, List.length_set, lmod]; done))

theorem countTv_kept {σ τ : State} (hw : Kept σ τ) (near : Bool) : Kept σ (countTv near τ) := by
  unfold countTv
  repeat' (first
    | (extract_lets +onlyGivenNames x; try (refine (fun hx : Kept σ x => ?_) ?_; on_goal 1 => clear_value x; on_goal 2 => subst x))
    | with_reducible assumption | with_reducible rfl | with_reducible exact (fun h => h) | split | (rename State => x; subst x)
    | with_reducible apply flex_kept | with_reducible exact PortsKept.refl _
    | (simp only [List.length_modify, List.length_map, List.length_set, lmod]; done))

theorem masterTrue_kept {σ τ : State} (hw : Kept σ τ)  : Kept σ (masterTrue τ) := by
  unfold masterTrue
  repeat' (first
    | (extract_lets +onlyGivenNames x; try (refine (fun hx : Kept σ x => ?_) ?_; on_goal 1 => clear_value x; on_goal 2 => subst x))
    | with_reducible assumption | with_reducible rfl | with_reducible exact (fun h => h) | with_reducible apply setTperiod_kept | split
    | (rename State => x; subst x) | with_reducible apply flex_kept | with_reducible exact PortsKept.refl _
    | (simp only [List.length_modify, List.length_map, List.length_set, lmod]; done))

theorem decideRot_kept {σ τ : State} (hw : Kept σ τ)  : Kept σ (decideRot τ) := by
  unfold decideRot
  repeat' (first
    | (extract_lets +onlyGivenNames x; try (refine (fun hx : Kept σ x => ?_) ?_; on_goal 1 => clear_value x; on_goal 2 => subst x))
    | with_reducible assumption | with_reducible rfl | with_reducible exact (fun h => h) | with_reducible apply raise_kept | split
    | (rename State => x; subst x) | with_reducible apply flex_kept | with_reducible exact PortsKept.refl _
    | (simp only [List.length_modify, List.length_map, List.length_set, lmod]; done))

theorem closeLocalHoop_kept {σ τ : State} (hw : Kept σ τ)  : Kept σ (closeLocalHoop τ) := by
  unfold closeLocalHoop
  refine instant_kept hw _ fun σ τ hw => ?_
  repeat' (first
    | (extract_lets +onlyGivenNames x; try (refine (fun hx : Kept σ x => ?_) ?_; on_goal 1 => clear_value x; on_goal 2 => subst x))
    | with_reducible assumption | with_reducible rfl | with_reducible exact (fun h => h) | with_reducible apply each_kept | intro _ _ _
    | with_reducible apply raise_kept | with_reducible apply decideRot_kept | with_reducible apply countTv_kept | with_reducible apply loopSample_kept
    | with_reducible apply zxSource_kept | with_reducible apply pckSample_kept | with_reducible apply pckUpdate_kept
    | with_reducible apply masterTrue_kept | split | (rename State => x; subst x) | with_reducible apply flex_kept
    | with_reducible exact PortsKept.refl _ | (simp only [List.length_modify, List.length_map, List.length_set, lmod]; done) | dsimp only)

theorem putEstimate_kept {σ τ : State} (hw : Kept σ τ) (i : Nat) (t : Int) : Kept σ (putEstimate i t τ) := by
  unfold putEstimate
  repeat' (first
    | (extract_lets +onlyGivenNames x; try (refine (fun hx : Kept σ x => ?_) ?_; on_goal 1 => clear_value x; on_goal 2 => subst x))
    | with_reducible assumption | with_reducible rfl | with_reducible exact (fun h => h) | with_reducible apply closeLocalHoop_kept | split
    | (rename State => x; subst x) | with_reducible apply flex_kept | with_reducible exact PortsKept.refl _
    | (simp only [List.length_modify, List.length_map, List.length_set, lmod]; done))

theorem zxRise_kept {σ τ : State} (hw : Kept σ τ) (i t : Nat) : Kept σ (zxRise i t τ) := by
  unfold zxRise
  repeat' (first
    | (extract_lets +onlyGivenNames x; try (refine (fun hx : Kept σ x => ?_) ?_; on_goal 1 => clear_value x; on_goal 2 => subst x))
    | with_reducible assumption | with_reducible rfl | with_reducible exact (fun h => h) | with_reducible apply putEstimate_kept | split
    | (rename State => x; subst x) | with_reducible apply flex_kept | with_reducible exact PortsKept.refl _)

theorem zxFall_kept {σ τ : State} (hw : Kept σ τ) (i t : Nat) : Kept σ (zxFall i t τ) := by
  unfold zxFall
  repeat' (first
    | (extract_lets +onlyGivenNames x; try (refine (fun hx : Kept σ x => ?_) ?_; on_goal 1 => clear_value x; on_goal 2 => subst x))
    | with_reducible assumption | with_reducible rfl | with_reducible exact (fun h => h) | with_reducible apply putEstimate_kept | split
    | (rename State => x; subst x) | with_reducible apply flex_kept | with_reducible exact PortsKept.refl _)

theorem tenPhase_kept {σ τ : State} (hw : Kept σ τ) (t : Nat) (v : Word) : Kept σ (tenPhase t v τ) := by
  unfold tenPhase
  repeat' (first
    | (extract_lets +onlyGivenNames x; try (refine (fun hx : Kept σ x => ?_) ?_; on_goal 1 => clear_value x; on_goal 2 => subst x))
    | with_reducible assumption | with_reducible rfl | with_reducible exact (fun h => h) | with_reducible apply masterTrue_kept
    | with_reducible apply loopSample_kept | split | (rename State => x; subst x) | with_reducible apply flex_kept
    | with_reducible exact PortsKept.refl _ | (simp only [List.length_modify, List.length_map, List.length_set, lmod]; done))

theorem tenHoop_kept {σ τ : State} (hw : Kept σ τ)  : Kept σ (tenHoop τ) := by
  unfold tenHoop
  repeat' (first
    | (extract_lets +onlyGivenNames x; try (refine (fun hx : Kept σ x => ?_) ?_; on_goal 1 => clear_value x; on_goal 2 => subst x))
    | with_reducible assumption | with_reducible rfl | with_reducible exact (fun h => h) | with_reducible apply countTv_kept | split
    | (rename State => x; subst x) | with_reducible apply flex_kept | with_reducible exact PortsKept.refl _
    | (simp only [List.length_modify, List.length_map, List.length_set, lmod]; done))

theorem phaseSnap_kept {σ τ : State} (hw : Kept σ τ)  : Kept σ (phaseSnap τ) := by
  unfold phaseSnap
  repeat' (first
    | (extract_lets +onlyGivenNames x; try (refine (fun hx : Kept σ x => ?_) ?_; on_goal 1 => clear_value x; on_goal 2 => subst x))
    | with_reducible assumption | with_reducible rfl | with_reducible exact (fun h => h) | (rename State => x; subst x)
    | with_reducible apply flex_kept | with_reducible exact PortsKept.refl _)

/-! ### Reference -/

theorem jamRow_kept {σ τ : State} (hw : Kept σ τ) (r : RefMsg) (p : Nat) (rowAt : Phase) : Kept σ (jamRow r p rowAt τ) := by
  unfold jamRow
  repeat' (first
    | (extract_lets +onlyGivenNames x; try (refine (fun hx : Kept σ x => ?_) ?_; on_goal 1 => clear_value x; on_goal 2 => subst x))
    | with_reducible assumption | with_reducible rfl | with_reducible exact (fun h => h) | with_reducible apply anchorRow_kept
    | with_reducible apply stepped_kept | split | (rename State => x; subst x) | with_reducible apply flex_kept
    | with_reducible exact PortsKept.refl _ | (simp only [List.length_modify, List.length_map, List.length_set, lmod]; done))

theorem jamTrue_kept {σ τ : State} (hw : Kept σ τ) (t : TrueMsg) (p : Nat) (since : Nat) : Kept σ (jamTrue t p since τ) := by
  unfold jamTrue
  repeat' (first
    | (extract_lets +onlyGivenNames x; try (refine (fun hx : Kept σ x => ?_) ?_; on_goal 1 => clear_value x; on_goal 2 => subst x))
    | with_reducible assumption | with_reducible rfl | with_reducible exact (fun h => h) | with_reducible apply anchorTrue_kept
    | with_reducible apply stepped_kept | split | (rename State => x; subst x) | with_reducible apply flex_kept
    | with_reducible exact PortsKept.refl _ | (simp only [List.length_modify, List.length_map, List.length_set, lmod]; done))

theorem steer_kept {σ τ : State} (hw : Kept σ τ) (err : Phase) : Kept σ (steer err τ) := by
  unfold steer
  repeat' (first
    | (extract_lets +onlyGivenNames x; try (refine (fun hx : Kept σ x => ?_) ?_; on_goal 1 => clear_value x; on_goal 2 => subst x))
    | with_reducible assumption | with_reducible rfl | with_reducible exact (fun h => h) | with_reducible apply anchorRow_kept | split
    | (rename State => x; subst x) | with_reducible apply flex_kept | with_reducible exact PortsKept.refl _
    | (simp only [List.length_modify, List.length_map, List.length_set, lmod]; done))

theorem steerTrue_kept {σ τ : State} (hw : Kept σ τ) (t : TrueMsg) (terr : Phase) : Kept σ (steerTrue t terr τ) := by
  unfold steerTrue
  repeat' (first
    | (extract_lets +onlyGivenNames x; try (refine (fun hx : Kept σ x => ?_) ?_; on_goal 1 => clear_value x; on_goal 2 => subst x))
    | with_reducible assumption | with_reducible rfl | with_reducible exact (fun h => h) | with_reducible apply anchorTrue_kept | split
    | (rename State => x; subst x) | with_reducible apply flex_kept | with_reducible exact PortsKept.refl _
    | (simp only [List.length_modify, List.length_map, List.length_set, lmod]; done))

theorem noteMaster_kept {σ τ : State} (hw : Kept σ τ) (l : LaneId) (sd : Side) (r : RefMsg) (t : TrueMsg) : Kept σ (noteMaster l sd r t τ) := by
  unfold noteMaster
  repeat' (first
    | (extract_lets +onlyGivenNames x; try (refine (fun hx : Kept σ x => ?_) ?_; on_goal 1 => clear_value x; on_goal 2 => subst x))
    | with_reducible assumption | with_reducible rfl | with_reducible exact (fun h => h) | with_reducible apply raise_kept
    | with_reducible apply pckUpdate_kept | split | (rename State => x; subst x) | with_reducible apply flex_kept
    | with_reducible exact PortsKept.refl _ | (simp only [List.length_modify, List.length_map, List.length_set, lmod]; done))

theorem noteRows_kept {σ τ : State} (hw : Kept σ τ) (r : RefMsg) : Kept σ (noteRows r τ) := by
  unfold noteRows
  repeat' (first
    | (extract_lets +onlyGivenNames x; try (refine (fun hx : Kept σ x => ?_) ?_; on_goal 1 => clear_value x; on_goal 2 => subst x))
    | with_reducible assumption | with_reducible rfl | with_reducible exact (fun h => h) | split | (rename State => x; subst x)
    | with_reducible apply flex_kept | with_reducible exact PortsKept.refl _
    | (simp only [List.length_modify, List.length_map, List.length_set, lmod]; done))

theorem takeRows_kept {σ τ : State} (hw : Kept σ τ)  : Kept σ (takeRows τ) := by
  unfold takeRows
  repeat' (first
    | (extract_lets +onlyGivenNames x; try (refine (fun hx : Kept σ x => ?_) ?_; on_goal 1 => clear_value x; on_goal 2 => subst x))
    | with_reducible assumption | with_reducible rfl | with_reducible exact (fun h => h) | split | (rename State => x; subst x)
    | with_reducible apply flex_kept | with_reducible exact PortsKept.refl _
    | (simp only [List.length_modify, List.length_map, List.length_set, lmod]; done))

theorem refCounts_kept {σ τ : State} (hw : Kept σ τ) (off : Nat) : Kept σ (refCounts off τ) := by
  unfold refCounts
  repeat' (first
    | (extract_lets +onlyGivenNames x; try (refine (fun hx : Kept σ x => ?_) ?_; on_goal 1 => clear_value x; on_goal 2 => subst x))
    | with_reducible assumption | with_reducible rfl | with_reducible exact (fun h => h) | split | (rename State => x; subst x)
    | with_reducible apply flex_kept | with_reducible exact PortsKept.refl _
    | (simp only [List.length_modify, List.length_map, List.length_set, lmod]; done))

theorem followRow_kept {σ τ : State} (hw : Kept σ τ) (r : RefMsg) (p : Nat) (rowAt : Phase) (err : Phase) (off : Nat) (k : RefStep) : Kept σ (followRow r p rowAt err off k τ) := by
  unfold followRow
  repeat' (first
    | (extract_lets +onlyGivenNames x; try (refine (fun hx : Kept σ x => ?_) ?_; on_goal 1 => clear_value x; on_goal 2 => subst x))
    | with_reducible assumption | with_reducible rfl | with_reducible exact (fun h => h) | with_reducible apply jamRow_kept
    | with_reducible apply setTime_kept | with_reducible apply steer_kept | with_reducible apply refCounts_kept | split | (rename State => x; subst x)
    | with_reducible apply flex_kept | with_reducible exact PortsKept.refl _
    | (simp only [List.length_modify, List.length_map, List.length_set, lmod]; done))

theorem followTrue_kept {σ τ : State} (hw : Kept σ τ) (t : TrueMsg) (p : Nat) (since : Nat) (terr : Phase) (jam : Bool) : Kept σ (followTrue t p since terr jam τ) := by
  unfold followTrue
  repeat' (first
    | (extract_lets +onlyGivenNames x; try (refine (fun hx : Kept σ x => ?_) ?_; on_goal 1 => clear_value x; on_goal 2 => subst x))
    | with_reducible assumption | with_reducible rfl | with_reducible exact (fun h => h) | with_reducible apply setTvalid_kept
    | with_reducible apply jamTrue_kept | with_reducible apply steerTrue_kept | split | (rename State => x; subst x) | with_reducible apply flex_kept
    | with_reducible exact PortsKept.refl _ | (simp only [List.length_modify, List.length_map, List.length_set, lmod]; done))

theorem useReference_kept {σ τ : State} (hw : Kept σ τ) (l : LaneId) (sd : Side) (r : RefMsg) (t : TrueMsg) (p : Int) (rowAt : Phase) (trueAt : Phase) : Kept σ (useReference l sd r t p rowAt trueAt τ) := by
  unfold useReference
  repeat' (first
    | (extract_lets +onlyGivenNames x; try (refine (fun hx : Kept σ x => ?_) ?_; on_goal 1 => clear_value x; on_goal 2 => subst x))
    | with_reducible assumption | with_reducible rfl | with_reducible exact (fun h => h) | with_reducible apply putPeriod_kept
    | with_reducible apply noteRows_kept | with_reducible apply noteMaster_kept | with_reducible apply perf_kept | with_reducible apply setLocked_kept
    | with_reducible apply followTrue_kept | with_reducible apply followRow_kept | split | (rename State => x; subst x)
    | with_reducible apply flex_kept | with_reducible exact PortsKept.refl _
    | (simp only [List.length_modify, List.length_map, List.length_set, lmod]; done))

theorem takeReference_kept {σ τ : State} (hw : Kept σ τ) (l : LaneId) (sd hdrSide : Side) (r : RefMsg) (t : TrueMsg) (o : OriginMsg)
    (rowAt trueAt : Phase) : Kept σ (takeReference l sd hdrSide r t o rowAt trueAt τ) := by
  unfold takeReference
  refine instant_kept hw _ fun σ τ hw => ?_
  repeat' (first
    | (extract_lets +onlyGivenNames x; try (refine (fun hx : Kept σ x => ?_) ?_; on_goal 1 => clear_value x; on_goal 2 => subst x))
    | with_reducible assumption | with_reducible rfl | with_reducible exact (fun h => h) | with_reducible apply useReference_kept | split
    | (rename State => x; subst x) | with_reducible apply flex_kept | with_reducible exact PortsKept.refl _)

theorem becomeMaster_kept {σ τ : State} (hw : Kept σ τ)  : Kept σ (becomeMaster τ) := by
  unfold becomeMaster
  repeat' (first
    | (extract_lets +onlyGivenNames x; try (refine (fun hx : Kept σ x => ?_) ?_; on_goal 1 => clear_value x; on_goal 2 => subst x))
    | with_reducible assumption | with_reducible rfl | with_reducible exact (fun h => h) | with_reducible apply anchorTrue_kept
    | with_reducible apply anchorRow_kept | with_reducible apply raise_kept | with_reducible apply masterSource_kept
    | with_reducible apply pckUpdate_kept | with_reducible apply setLocked_kept | with_reducible apply setTime_kept | split
    | (rename State => x; subst x) | with_reducible apply flex_kept | with_reducible exact PortsKept.refl _
    | (simp only [List.length_modify, List.length_map, List.length_set, lmod]; done))

theorem stopMaster_kept {σ τ : State} (hw : Kept σ τ)  : Kept σ (stopMaster τ) := by
  unfold stopMaster
  repeat' (first
    | (extract_lets +onlyGivenNames x; try (refine (fun hx : Kept σ x => ?_) ?_; on_goal 1 => clear_value x; on_goal 2 => subst x))
    | with_reducible assumption | with_reducible rfl | with_reducible exact (fun h => h) | split | (rename State => x; subst x)
    | with_reducible apply flex_kept | with_reducible exact PortsKept.refl _
    | (simp only [List.length_modify, List.length_map, List.length_set, lmod]; done))

theorem masterPeriod_kept {σ τ : State} (hw : Kept σ τ)  : Kept σ (masterPeriod τ) := by
  unfold masterPeriod
  repeat' (first
    | (extract_lets +onlyGivenNames x; try (refine (fun hx : Kept σ x => ?_) ?_; on_goal 1 => clear_value x; on_goal 2 => subst x))
    | with_reducible assumption | with_reducible rfl | with_reducible exact (fun h => h) | with_reducible apply setPeriod_kept | split
    | (rename State => x; subst x) | with_reducible apply flex_kept | with_reducible exact PortsKept.refl _
    | (simp only [List.length_modify, List.length_map, List.length_set, lmod]; done))

theorem lockBand_kept {σ τ : State} (hw : Kept σ τ)  : Kept σ (lockBand τ) := by
  unfold lockBand
  repeat' (first
    | (extract_lets +onlyGivenNames x; try (refine (fun hx : Kept σ x => ?_) ?_; on_goal 1 => clear_value x; on_goal 2 => subst x))
    | with_reducible assumption | with_reducible rfl | with_reducible exact (fun h => h) | with_reducible apply setLocked_kept | split
    | (rename State => x; subst x) | with_reducible apply flex_kept | with_reducible exact PortsKept.refl _)

theorem bigHoop_kept {σ τ : State} (hw : Kept σ τ)  : Kept σ (bigHoop τ) := by
  unfold bigHoop
  repeat' (first
    | (extract_lets +onlyGivenNames x; try (refine (fun hx : Kept σ x => ?_) ?_; on_goal 1 => clear_value x; on_goal 2 => subst x))
    | with_reducible assumption | with_reducible rfl | with_reducible exact (fun h => h) | with_reducible apply setTime_kept | split
    | (rename State => x; subst x) | with_reducible apply flex_kept | with_reducible exact PortsKept.refl _)

theorem tierHoop_kept {σ τ : State} (hw : Kept σ τ)  : Kept σ (tierHoop τ) := by
  unfold tierHoop
  repeat' (first
    | (extract_lets +onlyGivenNames x; try (refine (fun hx : Kept σ x => ?_) ?_; on_goal 1 => clear_value x; on_goal 2 => subst x))
    | with_reducible assumption | with_reducible rfl | with_reducible exact (fun h => h) | with_reducible apply noteTier_kept | split
    | (rename State => x; subst x) | with_reducible apply flex_kept | with_reducible exact PortsKept.refl _
    | (simp only [List.length_modify, List.length_map, List.length_set, lmod]; done))

/-! ### Tenant -/

theorem takePush_kept {σ τ : State} (hw : Kept σ τ) (t p tail : Nat) : Kept σ (takePush t p tail τ) := by
  unfold takePush
  repeat' (first
    | (extract_lets +onlyGivenNames x; try (refine (fun hx : Kept σ x => ?_) ?_; on_goal 1 => clear_value x; on_goal 2 => subst x))
    | with_reducible assumption | with_reducible rfl | with_reducible exact (fun h => h) | with_reducible apply each_kept | intro _ _ _
    | with_reducible apply count_kept | with_reducible apply latch_kept | with_reducible apply modTen_kept | split | (rename State => x; subst x)
    | with_reducible apply flex_kept | with_reducible exact PortsKept.refl _)

theorem doorbell_kept {σ τ : State} (hw : Kept σ τ) (t : Nat) (v : Word) : Kept σ (doorbell t v τ) := by
  unfold doorbell
  repeat' (first
    | (extract_lets +onlyGivenNames x; try (refine (fun hx : Kept σ x => ?_) ?_; on_goal 1 => clear_value x; on_goal 2 => subst x))
    | with_reducible assumption | with_reducible rfl | with_reducible exact (fun h => h) | with_reducible apply modTen_kept
    | with_reducible apply sqRead_kept | with_reducible apply readIndex_kept | with_reducible apply takePush_kept | split
    | (rename State => x; subst x) | with_reducible apply flex_kept | with_reducible exact PortsKept.refl _)

theorem cqDoorbell_kept {σ τ : State} (hw : Kept σ τ) (t : Nat) (v : Word) : Kept σ (cqDoorbell t v τ) := by
  unfold cqDoorbell
  repeat' (first
    | (extract_lets +onlyGivenNames x; try (refine (fun hx : Kept σ x => ?_) ?_; on_goal 1 => clear_value x; on_goal 2 => subst x))
    | with_reducible assumption | with_reducible rfl | with_reducible exact (fun h => h) | with_reducible apply modTen_kept
    | with_reducible apply cqAdvance_kept | split | (rename State => x; subst x) | with_reducible apply flex_kept
    | with_reducible exact PortsKept.refl _)

theorem rctlWrite_kept {σ τ : State} (hw : Kept σ τ) (cause : ClampBy) (t : Nat) (v : Word) : Kept σ (rctlWrite cause t v τ) := by
  unfold rctlWrite
  repeat' (first
    | (extract_lets +onlyGivenNames x; try (refine (fun hx : Kept σ x => ?_) ?_; on_goal 1 => clear_value x; on_goal 2 => subst x))
    | with_reducible assumption | with_reducible rfl | with_reducible exact (fun h => h) | with_reducible apply fldSet_kept
    | with_reducible apply modTen_kept | with_reducible apply ownClamp_kept | with_reducible apply regPutChecked_kept | split
    | (rename State => x; subst x) | with_reducible apply flex_kept | with_reducible exact PortsKept.refl _)

theorem endInterest_kept {σ τ : State} (hw : Kept σ τ) (t : Nat) (la : Nat) : Kept σ (endInterest t la τ) := by
  unfold endInterest
  repeat' (first
    | (extract_lets +onlyGivenNames x; try (refine (fun hx : Kept σ x => ?_) ?_; on_goal 1 => clear_value x; on_goal 2 => subst x))
    | with_reducible assumption | with_reducible rfl | with_reducible exact (fun h => h) | with_reducible apply delSub_kept
    | with_reducible apply dropWay_kept | with_reducible apply sendOwed_kept | split | (rename State => x; subst x) | with_reducible apply flex_kept
    | with_reducible exact PortsKept.refl _ | (simp only [List.length_modify, List.length_map, List.length_set, lmod]; done))

theorem unlockHere_kept {σ τ : State} (hw : Kept σ τ) (ten : Nat) (la : Nat) : Kept σ (unlockHere ten la τ) := by
  unfold unlockHere
  repeat' (first
    | (extract_lets +onlyGivenNames x; try (refine (fun hx : Kept σ x => ?_) ?_; on_goal 1 => clear_value x; on_goal 2 => subst x))
    | with_reducible assumption | with_reducible rfl | with_reducible exact (fun h => h) | with_reducible apply homeLocal_kept
    | with_reducible apply setBob_kept | with_reducible apply freeBob_kept | split | (rename State => x; subst x) | with_reducible apply flex_kept
    | with_reducible exact PortsKept.refl _ | (simp only [List.length_modify, List.length_map, List.length_set, lmod]; done) | dsimp only)

theorem endLease_kept {σ τ : State} (hw : Kept σ τ) (h : HeldLease) : Kept σ (endLease h τ) := by
  unfold endLease
  repeat' (first
    | (extract_lets +onlyGivenNames x; try (refine (fun hx : Kept σ x => ?_) ?_; on_goal 1 => clear_value x; on_goal 2 => subst x))
    | with_reducible assumption | with_reducible rfl | with_reducible exact (fun h => h) | with_reducible apply unlockHere_kept
    | with_reducible apply sendOwed_kept | split | (rename State => x; subst x) | with_reducible apply flex_kept
    | with_reducible exact PortsKept.refl _ | (simp only [List.length_modify, List.length_map, List.length_set, lmod]; done))

theorem payOwed_kept {σ τ : State} (hw : Kept σ τ)  : Kept σ (payOwed τ) := by
  unfold payOwed
  repeat' (first
    | (extract_lets +onlyGivenNames x; try (refine (fun hx : Kept σ x => ?_) ?_; on_goal 1 => clear_value x; on_goal 2 => subst x))
    | with_reducible assumption | with_reducible rfl | with_reducible exact (fun h => h) | with_reducible apply each_kept | intro _ _ _
    | with_reducible apply unlockHere_kept | with_reducible apply sendOwed_kept | split | (rename State => x; subst x)
    | with_reducible apply flex_kept | with_reducible exact PortsKept.refl _
    | (simp only [List.length_modify, List.length_map, List.length_set, lmod]; done))

theorem resetBob_kept {σ τ : State} (hw : Kept σ τ) (b : Nat) (v : Bobbin) : Kept σ (resetBob b v τ) := by
  unfold resetBob
  repeat' (first
    | (extract_lets +onlyGivenNames x; try (refine (fun hx : Kept σ x => ?_) ?_; on_goal 1 => clear_value x; on_goal 2 => subst x))
    | with_reducible assumption | with_reducible rfl | with_reducible exact (fun h => h) | with_reducible apply modBob_kept
    | with_reducible apply cutOff_kept | with_reducible apply letGo_kept | split | (rename State => x; subst x) | with_reducible apply flex_kept
    | with_reducible exact PortsKept.refl _)

theorem beginReset_kept {σ τ : State} (hw : Kept σ τ) (t : Nat) : Kept σ (beginReset t τ) := by
  unfold beginReset
  repeat' (first
    | (extract_lets +onlyGivenNames x; try (refine (fun hx : Kept σ x => ?_) ?_; on_goal 1 => clear_value x; on_goal 2 => subst x))
    | with_reducible assumption | with_reducible rfl | with_reducible exact (fun h => h) | with_reducible apply each_kept | intro _ _ _
    | with_reducible apply latch_kept | with_reducible apply modTen_kept | with_reducible apply forgetReads_kept
    | with_reducible apply endInterest_kept | with_reducible apply endLease_kept | with_reducible apply resetBob_kept | split
    | (rename State => x; subst x) | with_reducible apply flex_kept | with_reducible exact PortsKept.refl _)

theorem freeJobs_kept {σ τ : State} (hw : Kept σ τ) (t : Nat) : Kept σ (freeJobs t τ) := by
  unfold freeJobs
  repeat' (first
    | (extract_lets +onlyGivenNames x; try (refine (fun hx : Kept σ x => ?_) ?_; on_goal 1 => clear_value x; on_goal 2 => subst x))
    | with_reducible assumption | with_reducible rfl | with_reducible exact (fun h => h) | with_reducible apply each_kept | intro _ _ _
    | with_reducible apply modBob_kept | with_reducible apply cutOff_kept | with_reducible apply detachPicot_kept
    | with_reducible apply letGo_kept | split | (rename State => x; subst x) | with_reducible apply flex_kept
    | with_reducible exact PortsKept.refl _)

theorem resumeResets_kept {σ τ : State} (hw : Kept σ τ)  : Kept σ (resumeResets τ) := by
  unfold resumeResets
  repeat' (first
    | (extract_lets +onlyGivenNames x; try (refine (fun hx : Kept σ x => ?_) ?_; on_goal 1 => clear_value x; on_goal 2 => subst x))
    | with_reducible assumption | with_reducible rfl | with_reducible exact (fun h => h) | with_reducible apply each_kept | intro _ _ _
    | with_reducible apply modTen_kept | with_reducible apply freeJobs_kept | split | (rename State => x; subst x)
    | with_reducible apply flex_kept | with_reducible exact PortsKept.refl _)

theorem holdResets_kept {σ τ : State} (hw : Kept σ τ)  : Kept σ (holdResets τ) := by
  unfold holdResets
  repeat' (first
    | (extract_lets +onlyGivenNames x; try (refine (fun hx : Kept σ x => ?_) ?_; on_goal 1 => clear_value x; on_goal 2 => subst x))
    | with_reducible assumption | with_reducible rfl | with_reducible exact (fun h => h) | split | (rename State => x; subst x)
    | with_reducible apply flex_kept | with_reducible exact PortsKept.refl _
    | (simp only [List.length_modify, List.length_map, List.length_set, lmod]; done))

theorem clearWindow_kept {σ τ : State} (hw : Kept σ τ) (t : Nat) : Kept σ (clearWindow t τ) := by
  unfold clearWindow
  repeat' (first
    | (extract_lets +onlyGivenNames x; try (refine (fun hx : Kept σ x => ?_) ?_; on_goal 1 => clear_value x; on_goal 2 => subst x))
    | with_reducible assumption | with_reducible rfl | with_reducible exact (fun h => h) | (rename State => x; subst x)
    | with_reducible apply flex_kept | with_reducible exact PortsKept.refl _)

theorem endReset_kept {σ τ : State} (hw : Kept σ τ) (t : Nat) : Kept σ (endReset t τ) := by
  unfold endReset
  repeat' (first
    | (extract_lets +onlyGivenNames x; try (refine (fun hx : Kept σ x => ?_) ?_; on_goal 1 => clear_value x; on_goal 2 => subst x))
    | with_reducible assumption | with_reducible rfl | with_reducible exact (fun h => h) | with_reducible apply raise_kept
    | with_reducible apply modTen_kept | with_reducible apply clearWindow_kept | (rename State => x; subst x) | with_reducible apply flex_kept
    | with_reducible exact PortsKept.refl _)

theorem sctrlWrite_kept {σ τ : State} (hw : Kept σ τ) (cause : ClampBy) (t : Nat) (v : Word) : Kept σ (sctrlWrite cause t v τ) := by
  unfold sctrlWrite
  repeat' (first
    | (extract_lets +onlyGivenNames x; try (refine (fun hx : Kept σ x => ?_) ?_; on_goal 1 => clear_value x; on_goal 2 => subst x))
    | with_reducible assumption | with_reducible apply regPutChecked_kept | with_reducible apply beginReset_kept | split
    | (rename State => x; subst x))

theorem quotaCommit_kept {σ τ : State} (hw : Kept σ τ)  : Kept σ (quotaCommit τ) := by
  unfold quotaCommit
  repeat' (first
    | (extract_lets +onlyGivenNames x; try (refine (fun hx : Kept σ x => ?_) ?_; on_goal 1 => clear_value x; on_goal 2 => subst x))
    | with_reducible assumption | with_reducible rfl | with_reducible exact (fun h => h) | with_reducible apply each_kept
    | with_reducible apply foldl_kept | intro _ _ _ | with_reducible apply foldl_kept | with_reducible apply modTen_kept
    | with_reducible apply ownClamp_kept | split | (rename State => x; subst x) | with_reducible apply flex_kept
    | with_reducible exact PortsKept.refl _ | (simp only [List.length_modify, List.length_map, List.length_set, lmod]; done))

theorem msixFlush_kept {σ τ : State} (hw : Kept σ τ) (n : Nat) : Kept σ (msixFlush n τ) := by
  unfold msixFlush
  repeat' (first
    | (extract_lets +onlyGivenNames x; try (refine (fun hx : Kept σ x => ?_) ?_; on_goal 1 => clear_value x; on_goal 2 => subst x))
    | with_reducible assumption | with_reducible rfl | with_reducible exact (fun h => h) | with_reducible apply each_kept | intro _ _ _
    | with_reducible apply msixSignal_kept | with_reducible apply modTen_kept | split | (rename State => x; subst x)
    | with_reducible apply flex_kept | with_reducible exact PortsKept.refl _)

theorem flrConfig_kept {σ τ : State} (hw : Kept σ τ) (n : Nat) : Kept σ (flrConfig n τ) := by
  unfold flrConfig
  repeat' (first
    | (extract_lets +onlyGivenNames x; try (refine (fun hx : Kept σ x => ?_) ?_; on_goal 1 => clear_value x; on_goal 2 => subst x))
    | with_reducible assumption | with_reducible rfl | with_reducible exact (fun h => h) | with_reducible apply modTen_kept
    | (rename State => x; subst x) | with_reducible apply flex_kept | with_reducible exact PortsKept.refl _)

theorem flr_kept {σ τ : State} (hw : Kept σ τ) (n : Nat) : Kept σ (flr n τ) := by
  unfold flr
  repeat' (first
    | (extract_lets +onlyGivenNames x; try (refine (fun hx : Kept σ x => ?_) ?_; on_goal 1 => clear_value x; on_goal 2 => subst x))
    | with_reducible assumption | with_reducible rfl | with_reducible exact (fun h => h) | with_reducible apply each_kept | intro _ _ _
    | with_reducible apply beginReset_kept | with_reducible apply flrConfig_kept | split | (rename State => x; subst x)
    | with_reducible apply flex_kept | with_reducible exact PortsKept.refl _)

theorem pcieLink_kept {σ τ : State} (hw : Kept σ τ) (up : Bool) : Kept σ (pcieLink up τ) := by
  unfold pcieLink
  repeat' (first
    | (extract_lets +onlyGivenNames x; try (refine (fun hx : Kept σ x => ?_) ?_; on_goal 1 => clear_value x; on_goal 2 => subst x))
    | with_reducible assumption | with_reducible rfl | with_reducible exact (fun h => h) | with_reducible apply raise_kept | split
    | (rename State => x; subst x) | with_reducible apply flex_kept | with_reducible exact PortsKept.refl _)

theorem resetFns_kept {σ τ : State} (hw : Kept σ τ)  : Kept σ (resetFns τ) := by
  unfold resetFns
  repeat' (first
    | (extract_lets +onlyGivenNames x; try (refine (fun hx : Kept σ x => ?_) ?_; on_goal 1 => clear_value x; on_goal 2 => subst x))
    | with_reducible assumption | with_reducible apply each_kept | intro _ _ _ | with_reducible apply flr_kept | (rename State => x; subst x))

end Sys2Proof.Machine
end

