-- ==== Sys2Proof/Laws/KeptTrain.lean ====
section
/-! SUPPORT. The invariant of the node is kept: one lemma for each operation of phase, membership, inauguration, migration, stores, picots, the keep store and pattern switches. -/

set_option linter.all false

namespace Sys2Proof.Machine

/-! ### Inaug -/

theorem setMemb_kept {σ τ : State} (hw : Kept σ τ) (m : Memb) : Kept σ (setMemb m τ) := by
  unfold setMemb
  repeat' (first
    | (extract_lets +onlyGivenNames x; try (refine (fun hx : Kept σ x => ?_) ?_; on_goal 1 => clear_value x; on_goal 2 => subst x))
    | with_reducible assumption | with_reducible rfl | with_reducible exact (fun h => h) | with_reducible apply raise_kept | split
    | (rename State => x; subst x) | with_reducible apply flex_kept | with_reducible exact PortsKept.refl _)

theorem endProposal_kept {σ τ : State} (hw : Kept σ τ) (p : Proposal) (verdict reason subject : Nat) :
    Kept σ (endProposal p verdict reason subject τ) := by
  unfold endProposal
  repeat' (first
    | (extract_lets +onlyGivenNames x; try (refine (fun hx : Kept σ x => ?_) ?_; on_goal 1 => clear_value x; on_goal 2 => subst x))
    | with_reducible assumption | with_reducible rfl | with_reducible exact (fun h => h) | with_reducible apply count_kept
    | with_reducible apply raise_kept | with_reducible apply complete_kept | split | (rename State => x; subst x)
    | with_reducible apply flex_kept | with_reducible exact PortsKept.refl _)

theorem cancelProposals_kept {σ τ : State} (hw : Kept σ τ)  : Kept σ (cancelProposals τ) := by
  unfold cancelProposals
  repeat' (first
    | (extract_lets +onlyGivenNames x; try (refine (fun hx : Kept σ x => ?_) ?_; on_goal 1 => clear_value x; on_goal 2 => subst x))
    | with_reducible assumption | with_reducible rfl | with_reducible exact (fun h => h) | with_reducible apply each_kept | intro _ _ _
    | with_reducible apply endProposal_kept | (rename State => x; subst x) | with_reducible apply flex_kept
    | with_reducible exact PortsKept.refl _)

theorem performAgain_kept {σ τ : State} (hw : Kept σ τ) (t : Tracker) : Kept σ (performAgain τ t) := by
  unfold performAgain
  repeat' (first
    | (extract_lets +onlyGivenNames x; try (refine (fun hx : Kept σ x => ?_) ?_; on_goal 1 => clear_value x; on_goal 2 => subst x))
    | with_reducible assumption | with_reducible rfl | with_reducible exact (fun h => h) | with_reducible apply modBob_kept | split
    | (rename State => x; subst x) | with_reducible apply flex_kept | with_reducible exact PortsKept.refl _
    | (simp only [List.length_modify, List.length_map, List.length_set, lmod]; done))

theorem dropTrackers_kept {σ τ : State} (hw : Kept σ τ)  : Kept σ (dropTrackers τ) := by
  unfold dropTrackers
  repeat' (first
    | (extract_lets +onlyGivenNames x; try (refine (fun hx : Kept σ x => ?_) ?_; on_goal 1 => clear_value x; on_goal 2 => subst x))
    | with_reducible assumption | with_reducible rfl | with_reducible exact (fun h => h) | with_reducible apply each_kept | intro _ _ _
    | with_reducible apply replayAdd_kept | with_reducible apply performAgain_kept | with_reducible apply setTrks_kept | split
    | (rename State => x; subst x) | with_reducible apply flex_kept | with_reducible exact PortsKept.refl _
    | (simp only [List.length_modify, List.length_map, List.length_set, lmod]; done))

theorem dropCopies_kept {σ τ : State} (hw : Kept σ τ) (p : Nat × Copy → Bool) : Kept σ (dropCopies p τ) := by
  unfold dropCopies
  repeat' (first
    | (extract_lets +onlyGivenNames x; try (refine (fun hx : Kept σ x => ?_) ?_; on_goal 1 => clear_value x; on_goal 2 => subst x))
    | with_reducible assumption | with_reducible rfl | with_reducible exact (fun h => h) | with_reducible apply each_kept | intro _ _ _
    | with_reducible apply subLost_kept | with_reducible apply setCopy_kept | with_reducible apply dropWay_kept | with_reducible apply raise_kept
    | with_reducible apply count_kept | split | (rename State => x; subst x) | with_reducible apply flex_kept | with_reducible exact PortsKept.refl _
    | (simp only [List.length_modify, List.length_map, List.length_set, lmod]; done))

theorem leaveCopies_kept {σ τ : State} (hw : Kept σ τ)  : Kept σ (leaveCopies τ) := by
  unfold leaveCopies
  repeat' (first
    | (extract_lets +onlyGivenNames x; try (refine (fun hx : Kept σ x => ?_) ?_; on_goal 1 => clear_value x; on_goal 2 => subst x))
    | with_reducible assumption | with_reducible rfl | with_reducible exact (fun h => h) | split | (rename State => x; subst x)
    | with_reducible apply flex_kept | with_reducible exact PortsKept.refl _
    | (simp only [List.length_modify, List.length_map, List.length_set, lmod]; done) | dsimp only)

theorem leaveJobs_kept {σ τ : State} (hw : Kept σ τ)  : Kept σ (leaveJobs τ) := by
  unfold leaveJobs
  repeat' (first
    | (extract_lets +onlyGivenNames x; try (refine (fun hx : Kept σ x => ?_) ?_; on_goal 1 => clear_value x; on_goal 2 => subst x))
    | with_reducible assumption | with_reducible rfl | with_reducible exact (fun h => h) | with_reducible apply each_kept | intro _ _ _
    | with_reducible apply cutOff_kept | with_reducible apply freeBob_kept | with_reducible apply setBob_kept | split | (rename State => x; subst x)
    | with_reducible apply flex_kept | with_reducible exact PortsKept.refl _
    | (simp only [List.length_modify, List.length_map, List.length_set, lmod]; done))

theorem leaveTrain_kept {σ τ : State} (hw : Kept σ τ)  : Kept σ (leaveTrain τ) := by
  unfold leaveTrain
  repeat' (first
    | (extract_lets +onlyGivenNames x; try (refine (fun hx : Kept σ x => ?_) ?_; on_goal 1 => clear_value x; on_goal 2 => subst x))
    | with_reducible assumption | with_reducible rfl | with_reducible exact (fun h => h) | with_reducible apply leaveJobs_kept
    | with_reducible apply leaveCopies_kept | with_reducible apply dropTrackers_kept | with_reducible apply cancelProposals_kept | split
    | (rename State => x; subst x) | with_reducible apply flex_kept | with_reducible exact PortsKept.refl _
    | (simp only [List.length_modify, List.length_map, List.length_set, lmod]; done))

theorem isolate_kept {σ τ : State} (hw : Kept σ τ) (cause : Nat) : Kept σ (isolate cause τ) := by
  unfold isolate
  repeat' (first
    | (extract_lets +onlyGivenNames x; try (refine (fun hx : Kept σ x => ?_) ?_; on_goal 1 => clear_value x; on_goal 2 => subst x))
    | with_reducible assumption | with_reducible rfl | with_reducible exact (fun h => h) | with_reducible apply setMemb_kept
    | with_reducible apply raise_kept | with_reducible apply count_kept | with_reducible apply dropCopies_kept | split | (rename State => x; subst x)
    | with_reducible apply flex_kept | with_reducible exact PortsKept.refl _
    | (simp only [List.length_modify, List.length_map, List.length_set, lmod]; done))

theorem isolateByRestarts_kept {σ τ : State} (hw : Kept σ τ)  : Kept σ (isolateByRestarts τ) := by
  unfold isolateByRestarts
  refine instant_kept hw _ fun σ τ hw => ?_
  repeat' (first
    | (extract_lets +onlyGivenNames x; try (refine (fun hx : Kept σ x => ?_) ?_; on_goal 1 => clear_value x; on_goal 2 => subst x))
    | with_reducible assumption | with_reducible rfl | with_reducible exact (fun h => h) | with_reducible apply isolate_kept
    | with_reducible apply raise_kept | with_reducible apply leaveTrain_kept | with_reducible apply timeForDev_kept | with_reducible apply setDev_kept
    | split | (rename State => x; subst x) | with_reducible apply flex_kept | with_reducible exact PortsKept.refl _
    | (simp only [List.length_modify, List.length_map, List.length_set, lmod]; done))

theorem freeze_kept {σ τ : State} (hw : Kept σ τ)  : Kept σ (freeze τ) := by
  unfold freeze
  repeat' (first
    | (extract_lets +onlyGivenNames x; try (refine (fun hx : Kept σ x => ?_) ?_; on_goal 1 => clear_value x; on_goal 2 => subst x))
    | with_reducible assumption | with_reducible rfl | with_reducible exact (fun h => h) | split | (rename State => x; subst x)
    | with_reducible apply flex_kept | with_reducible exact PortsKept.refl _)

theorem restart_kept {σ τ : State} (hw : Kept σ τ) (c : Nat) (counted : Bool) : Kept σ (restart c counted τ) := by
  unfold restart
  repeat' (first
    | (extract_lets +onlyGivenNames x; try (refine (fun hx : Kept σ x => ?_) ?_; on_goal 1 => clear_value x; on_goal 2 => subst x))
    | with_reducible assumption | with_reducible rfl | with_reducible exact (fun h => h) | with_reducible apply isolateByRestarts_kept
    | with_reducible apply count_kept | split | (rename State => x; subst x) | with_reducible apply flex_kept | with_reducible exact PortsKept.refl _
    | (simp only [List.length_modify, List.length_map, List.length_set, lmod]; done))

theorem causeFound_kept {σ τ : State} (hw : Kept σ τ) (c : Nat) : Kept σ (causeFound c τ) := by
  unfold causeFound
  repeat' (first
    | (extract_lets +onlyGivenNames x; try (refine (fun hx : Kept σ x => ?_) ?_; on_goal 1 => clear_value x; on_goal 2 => subst x))
    | with_reducible assumption | with_reducible rfl | with_reducible exact (fun h => h) | with_reducible apply cancelProposals_kept
    | with_reducible apply restart_kept | split | (rename State => x; subst x) | with_reducible apply flex_kept
    | with_reducible exact PortsKept.refl _ | (simp only [List.length_modify, List.length_map, List.length_set, lmod]; done))

theorem hearCall_kept {σ τ : State} (hw : Kept σ τ) (fromRanging : Bool) (m : InaugMsg) : Kept σ (hearCall fromRanging m τ) := by
  unfold hearCall
  repeat' (first
    | (extract_lets +onlyGivenNames x; try (refine (fun hx : Kept σ x => ?_) ?_; on_goal 1 => clear_value x; on_goal 2 => subst x))
    | with_reducible assumption | with_reducible rfl | with_reducible exact (fun h => h) | with_reducible apply cancelProposals_kept
    | with_reducible apply restart_kept | split | (rename State => x; subst x) | with_reducible apply flex_kept
    | with_reducible exact PortsKept.refl _ | (simp only [List.length_modify, List.length_map, List.length_set, lmod]; done))

theorem takeBase_kept {σ τ : State} (hw : Kept σ τ)  : Kept σ (takeBase τ) := by
  unfold takeBase
  repeat' (first
    | (extract_lets +onlyGivenNames x; try (refine (fun hx : Kept σ x => ?_) ?_; on_goal 1 => clear_value x; on_goal 2 => subst x))
    | with_reducible assumption | with_reducible rfl | with_reducible exact (fun h => h) | split | (rename State => x; subst x)
    | with_reducible apply flex_kept | with_reducible exact PortsKept.refl _)

theorem clearInaug_kept {σ τ : State} (hw : Kept σ τ)  : Kept σ (clearInaug τ) := by
  unfold clearInaug
  repeat' (first
    | (extract_lets +onlyGivenNames x; try (refine (fun hx : Kept σ x => ?_) ?_; on_goal 1 => clear_value x; on_goal 2 => subst x))
    | with_reducible assumption | with_reducible rfl | with_reducible exact (fun h => h) | split | (rename State => x; subst x)
    | with_reducible apply flex_kept | with_reducible exact PortsKept.refl _
    | (simp only [List.length_modify, List.length_map, List.length_set, lmod]; done))

theorem recordUnsent_kept {σ τ : State} (hw : Kept σ τ)  : Kept σ (recordUnsent τ) := by
  unfold recordUnsent
  repeat' (first
    | (extract_lets +onlyGivenNames x; try (refine (fun hx : Kept σ x => ?_) ?_; on_goal 1 => clear_value x; on_goal 2 => subst x))
    | with_reducible assumption | with_reducible rfl | with_reducible exact (fun h => h) | with_reducible apply each_kept | intro _ _ _
    | with_reducible apply replayAdd_kept | split | (rename State => x; subst x) | with_reducible apply flex_kept
    | with_reducible exact PortsKept.refl _ | (simp only [List.length_modify, List.length_map, List.length_set, lmod]; done))

theorem openGates_kept {σ τ : State} (hw : Kept σ τ)  : Kept σ (openGates τ) := by
  unfold openGates
  repeat' (first
    | (extract_lets +onlyGivenNames x; try (refine (fun hx : Kept σ x => ?_) ?_; on_goal 1 => clear_value x; on_goal 2 => subst x))
    | with_reducible assumption | with_reducible rfl | with_reducible exact (fun h => h) | split | (rename State => x; subst x)
    | with_reducible apply flex_kept | with_reducible exact PortsKept.refl _
    | (simp only [List.length_modify, List.length_map, List.length_set, lmod]; done))

theorem enterInaug_kept {σ τ : State} (hw : Kept σ τ)  : Kept σ (enterInaug τ) := by
  unfold enterInaug
  repeat' (first
    | (extract_lets +onlyGivenNames x; try (refine (fun hx : Kept σ x => ?_) ?_; on_goal 1 => clear_value x; on_goal 2 => subst x))
    | with_reducible assumption | with_reducible rfl | with_reducible exact (fun h => h) | with_reducible apply cancelProposals_kept
    | with_reducible apply clearInaug_kept | with_reducible apply takeBase_kept | with_reducible apply recordUnsent_kept
    | with_reducible apply openGates_kept | with_reducible apply setMemb_kept | with_reducible apply setDev_kept | with_reducible apply freeze_kept
    | with_reducible apply holdResets_kept | with_reducible apply raise_kept | with_reducible apply count_kept | with_reducible apply timeForDev_kept
    | split | (rename State => x; subst x) | with_reducible apply flex_kept | with_reducible exact PortsKept.refl _
    | (simp only [List.length_modify, List.length_map, List.length_set, lmod]; done))

theorem restartNow_kept {σ τ : State} (hw : Kept σ τ)  : Kept σ (restartNow τ) := by
  unfold restartNow
  repeat' (first
    | (extract_lets +onlyGivenNames x; try (refine (fun hx : Kept σ x => ?_) ?_; on_goal 1 => clear_value x; on_goal 2 => subst x))
    | with_reducible assumption | with_reducible rfl | with_reducible exact (fun h => h) | with_reducible apply freeze_kept
    | with_reducible apply clearInaug_kept | with_reducible apply takeBase_kept | split | (rename State => x; subst x)
    | with_reducible apply flex_kept | with_reducible exact PortsKept.refl _
    | (simp only [List.length_modify, List.length_map, List.length_set, lmod]; done))

theorem retryInaug_kept {σ τ : State} (hw : Kept σ τ)  : Kept σ (retryInaug τ) := by
  unfold retryInaug
  repeat' (first
    | (extract_lets +onlyGivenNames x; try (refine (fun hx : Kept σ x => ?_) ?_; on_goal 1 => clear_value x; on_goal 2 => subst x))
    | with_reducible assumption | with_reducible rfl | with_reducible exact (fun h => h) | with_reducible apply causeFound_kept
    | (rename State => x; subst x) | with_reducible apply flex_kept | with_reducible exact PortsKept.refl _)

theorem startAttempt_kept {σ τ : State} (hw : Kept σ τ)  : Kept σ (startAttempt τ) := by
  unfold startAttempt
  repeat' (first
    | (extract_lets +onlyGivenNames x; try (refine (fun hx : Kept σ x => ?_) ?_; on_goal 1 => clear_value x; on_goal 2 => subst x))
    | with_reducible assumption | with_reducible rfl | with_reducible exact (fun h => h) | split | (rename State => x; subst x)
    | with_reducible apply flex_kept | with_reducible exact PortsKept.refl _)

theorem closeDiscovery_kept {σ τ : State} (hw : Kept σ τ)  : Kept σ (closeDiscovery τ) := by
  unfold closeDiscovery
  repeat' (first
    | (extract_lets +onlyGivenNames x; try (refine (fun hx : Kept σ x => ?_) ?_; on_goal 1 => clear_value x; on_goal 2 => subst x))
    | with_reducible assumption | with_reducible rfl | with_reducible exact (fun h => h) | split | (rename State => x; subst x)
    | with_reducible apply flex_kept | with_reducible exact PortsKept.refl _
    | (simp only [List.length_modify, List.length_map, List.length_set, lmod]; done))

theorem endDiscovery_kept {σ τ : State} (hw : Kept σ τ) (l : List DiscEntry) : Kept σ (endDiscovery l τ) := by
  unfold endDiscovery
  repeat' (first
    | (extract_lets +onlyGivenNames x; try (refine (fun hx : Kept σ x => ?_) ?_; on_goal 1 => clear_value x; on_goal 2 => subst x))
    | with_reducible assumption | with_reducible rfl | with_reducible exact (fun h => h) | with_reducible apply startAttempt_kept | split
    | (rename State => x; subst x) | with_reducible apply flex_kept | with_reducible exact PortsKept.refl _)

theorem execDisc_kept {σ τ : State} (hw : Kept σ τ) (l : LaneId) (sd : Side) (ms : List DiscMsg) : ∀ u, execDisc l sd ms τ = .next u → Kept σ u := by
  intro u hu
  unfold execDisc at hu
  repeat' (first | (with_reducible (replace hu := Host.Outcome.next.inj hu; subst hu)) | (split at hu))
  all_goals (try clear hu)
  any_goals repeat' (first
    | (extract_lets +onlyGivenNames x; try (refine (fun hx : Kept σ x => ?_) ?_; on_goal 1 => clear_value x; on_goal 2 => subst x))
    | with_reducible assumption | with_reducible rfl | with_reducible exact (fun h => h) | split | (rename State => x; subst x)
    | with_reducible apply flex_kept | with_reducible exact PortsKept.refl _
    | (simp only [List.length_modify, List.length_map, List.length_set, lmod]; done))

theorem tryOutcome_kept {σ τ : State} (hw : Kept σ τ)  : Kept σ (tryOutcome τ) := by
  unfold tryOutcome
  repeat' (first
    | (extract_lets +onlyGivenNames x; try (refine (fun hx : Kept σ x => ?_) ?_; on_goal 1 => clear_value x; on_goal 2 => subst x))
    | with_reducible assumption | with_reducible rfl | with_reducible exact (fun h => h) | split | (rename State => x; subst x)
    | with_reducible apply flex_kept | with_reducible exact PortsKept.refl _)

theorem modClaim_kept {σ τ : State} (hw : Kept σ τ) (k : Nat) (f : ClaimRec → ClaimRec) : Kept σ (modClaim k f τ) := by
  unfold modClaim
  repeat' (first
    | (extract_lets +onlyGivenNames x; try (refine (fun hx : Kept σ x => ?_) ?_; on_goal 1 => clear_value x; on_goal 2 => subst x))
    | with_reducible assumption | with_reducible rfl | with_reducible exact (fun h => h) | (rename State => x; subst x)
    | with_reducible apply flex_kept | with_reducible exact PortsKept.refl _)

theorem execInaugClaim_kept {σ τ : State} (hw : Kept σ τ) (src : Nat) (m : InaugMsg) : ∀ u, execInaugClaim src m τ = .next u → Kept σ u := by
  intro u hu
  unfold execInaugClaim at hu
  repeat' (first | (with_reducible (replace hu := Host.Outcome.next.inj hu; subst hu)) | (split at hu))
  all_goals (try clear hu)
  any_goals repeat' (first
    | (extract_lets +onlyGivenNames x; try (refine (fun hx : Kept σ x => ?_) ?_; on_goal 1 => clear_value x; on_goal 2 => subst x))
    | with_reducible assumption | with_reducible rfl | with_reducible exact (fun h => h) | with_reducible apply tryOutcome_kept
    | with_reducible apply modClaim_kept | split | (rename State => x; subst x) | with_reducible apply flex_kept
    | with_reducible exact PortsKept.refl _)

theorem execDigest_kept {σ τ : State} (hw : Kept σ τ) (src : Nat) (m : DigestMsg) : ∀ u, execDigest src m τ = .next u → Kept σ u := by
  intro u hu
  unfold execDigest at hu
  repeat' (first | (with_reducible (replace hu := Host.Outcome.next.inj hu; subst hu)) | (split at hu))
  all_goals (try clear hu)
  any_goals repeat' (first
    | (extract_lets +onlyGivenNames x; try (refine (fun hx : Kept σ x => ?_) ?_; on_goal 1 => clear_value x; on_goal 2 => subst x))
    | with_reducible assumption | with_reducible rfl | with_reducible exact (fun h => h) | with_reducible apply tryOutcome_kept
    | with_reducible apply modClaim_kept | split | (rename State => x; subst x) | with_reducible apply flex_kept
    | with_reducible exact PortsKept.refl _)

theorem masterAgree_kept {σ τ : State} (hw : Kept σ τ)  : Kept σ (masterAgree τ) := by
  unfold masterAgree
  repeat' (first
    | (extract_lets +onlyGivenNames x; try (refine (fun hx : Kept σ x => ?_) ?_; on_goal 1 => clear_value x; on_goal 2 => subst x))
    | with_reducible assumption | with_reducible rfl | with_reducible exact (fun h => h) | split | (rename State => x; subst x)
    | with_reducible apply flex_kept | with_reducible exact PortsKept.refl _)

theorem execConfirm_kept {σ τ : State} (hw : Kept σ τ) (src : Nat) (m : InaugMsg) : ∀ u, execConfirm src m τ = .next u → Kept σ u := by
  intro u hu
  unfold execConfirm at hu
  repeat' (first | (with_reducible (replace hu := Host.Outcome.next.inj hu; subst hu)) | (split at hu))
  all_goals (try clear hu)
  any_goals repeat' (first
    | (extract_lets +onlyGivenNames x; try (refine (fun hx : Kept σ x => ?_) ?_; on_goal 1 => clear_value x; on_goal 2 => subst x))
    | with_reducible assumption | with_reducible rfl | with_reducible exact (fun h => h) | with_reducible apply modClaim_kept
    | with_reducible apply masterAgree_kept | split | (rename State => x; subst x) | with_reducible apply flex_kept
    | with_reducible exact PortsKept.refl _)

theorem takeAgreed_kept {σ τ : State} (hw : Kept σ τ) (d : Word) : Kept σ (takeAgreed d τ) := by
  unfold takeAgreed
  repeat' (first
    | (extract_lets +onlyGivenNames x; try (refine (fun hx : Kept σ x => ?_) ?_; on_goal 1 => clear_value x; on_goal 2 => subst x))
    | with_reducible assumption | with_reducible rfl | with_reducible exact (fun h => h) | with_reducible apply freeze_kept | split
    | (rename State => x; subst x) | with_reducible apply flex_kept | with_reducible exact PortsKept.refl _
    | (simp only [List.length_modify, List.length_map, List.length_set, lmod]; done))

theorem noteDrained_kept {σ τ : State} (hw : Kept σ τ)  : Kept σ (noteDrained τ) := by
  unfold noteDrained
  repeat' (first
    | (extract_lets +onlyGivenNames x; try (refine (fun hx : Kept σ x => ?_) ?_; on_goal 1 => clear_value x; on_goal 2 => subst x))
    | with_reducible assumption | with_reducible rfl | with_reducible exact (fun h => h) | split | (rename State => x; subst x)
    | with_reducible apply flex_kept | with_reducible exact PortsKept.refl _
    | (simp only [List.length_modify, List.length_map, List.length_set, lmod]; done))

theorem agreementRow_kept {σ τ : State} (hw : Kept σ τ)  : Kept σ (agreementRow τ) := by
  unfold agreementRow
  repeat' (first
    | (extract_lets +onlyGivenNames x; try (refine (fun hx : Kept σ x => ?_) ?_; on_goal 1 => clear_value x; on_goal 2 => subst x))
    | with_reducible assumption | with_reducible rfl | with_reducible exact (fun h => h) | with_reducible apply closeDiscovery_kept
    | with_reducible apply endDiscovery_kept | with_reducible apply tryOutcome_kept | with_reducible apply startAttempt_kept
    | with_reducible apply noteDrained_kept | split | (rename State => x; subst x) | with_reducible apply flex_kept
    | with_reducible exact PortsKept.refl _ | (simp only [List.length_modify, List.length_map, List.length_set, lmod]; done))

theorem endDrain_kept {σ τ : State} (hw : Kept σ τ)  : Kept σ (endDrain τ) := by
  unfold endDrain
  repeat' (first
    | (extract_lets +onlyGivenNames x; try (refine (fun hx : Kept σ x => ?_) ?_; on_goal 1 => clear_value x; on_goal 2 => subst x))
    | with_reducible assumption | with_reducible rfl | with_reducible exact (fun h => h) | (rename State => x; subst x)
    | with_reducible apply flex_kept | with_reducible exact PortsKept.refl _)

theorem execDrained_kept {σ τ : State} (hw : Kept σ τ) (src : Nat) (m : InaugMsg) : ∀ u, execDrained src m τ = .next u → Kept σ u := by
  intro u hu
  unfold execDrained at hu
  repeat' (first | (with_reducible (replace hu := Host.Outcome.next.inj hu; subst hu)) | (split at hu))
  all_goals (try clear hu)
  any_goals repeat' (first
    | (extract_lets +onlyGivenNames x; try (refine (fun hx : Kept σ x => ?_) ?_; on_goal 1 => clear_value x; on_goal 2 => subst x))
    | with_reducible assumption | with_reducible rfl | with_reducible exact (fun h => h) | with_reducible apply modClaim_kept
    | with_reducible apply endDrain_kept | split | (rename State => x; subst x) | with_reducible apply flex_kept
    | with_reducible exact PortsKept.refl _)

theorem execStatusCut_kept {σ τ : State} (hw : Kept σ τ) (m : InaugMsg) : ∀ u, execStatusCut m τ = .next u → Kept σ u := by
  intro u hu
  unfold execStatusCut at hu
  repeat' (first | (with_reducible (replace hu := Host.Outcome.next.inj hu; subst hu)) | (split at hu))
  all_goals (try clear hu)
  any_goals repeat' (first
    | (extract_lets +onlyGivenNames x; try (refine (fun hx : Kept σ x => ?_) ?_; on_goal 1 => clear_value x; on_goal 2 => subst x))
    | with_reducible assumption | with_reducible rfl | with_reducible exact (fun h => h) | split | (rename State => x; subst x)
    | with_reducible apply flex_kept | with_reducible exact PortsKept.refl _)

/-! ### Migrate -/

theorem dropMove_kept {σ τ : State} (hw : Kept σ τ) (r : Nat) (mirror : Bool) : Kept σ (dropMove r mirror τ) := by
  unfold dropMove
  repeat' (first
    | (extract_lets +onlyGivenNames x; try (refine (fun hx : Kept σ x => ?_) ?_; on_goal 1 => clear_value x; on_goal 2 => subst x))
    | with_reducible assumption | with_reducible rfl | with_reducible exact (fun h => h) | with_reducible apply setTrks_kept | split
    | (rename State => x; subst x) | with_reducible apply flex_kept | with_reducible exact PortsKept.refl _
    | (simp only [List.length_modify, List.length_map, List.length_set, lmod]; done))

theorem takeMove_kept {σ τ : State} (hw : Kept σ τ) (r : Nat) (mirror : Bool) : Kept σ (takeMove r mirror τ) := by
  unfold takeMove
  repeat' (first
    | (extract_lets +onlyGivenNames x; try (refine (fun hx : Kept σ x => ?_) ?_; on_goal 1 => clear_value x; on_goal 2 => subst x))
    | with_reducible assumption | with_reducible rfl | with_reducible exact (fun h => h) | with_reducible apply setTrks_kept | split
    | (rename State => x; subst x) | with_reducible apply flex_kept | with_reducible exact PortsKept.refl _
    | (simp only [List.length_modify, List.length_map, List.length_set, lmod]; done))

theorem beginMove_kept {σ τ : State} (hw : Kept σ τ) (r : Nat) (dst : Nat) (mirror : Bool) : Kept σ (beginMove r dst mirror τ) := by
  unfold beginMove
  repeat' (first
    | (extract_lets +onlyGivenNames x; try (refine (fun hx : Kept σ x => ?_) ?_; on_goal 1 => clear_value x; on_goal 2 => subst x))
    | with_reducible assumption | with_reducible rfl | with_reducible exact (fun h => h) | with_reducible apply takeMove_kept
    | with_reducible apply dropMove_kept | split | (rename State => x; subst x) | with_reducible apply flex_kept
    | with_reducible exact PortsKept.refl _ | (simp only [List.length_modify, List.length_map, List.length_set, lmod]; done))

theorem sendMigAck_kept {σ τ : State} (hw : Kept σ τ) (r : Nat) (mirror : Bool) : Kept σ (sendMigAck r mirror τ) := by
  unfold sendMigAck
  repeat' (first | with_reducible assumption | with_reducible apply queueMsg_kept)

theorem wipeRole_kept {σ τ : State} (hw : Kept σ τ) (r : Nat) (orphan : Bool) : Kept σ (wipeRole r orphan τ) := by
  unfold wipeRole
  repeat' (first
    | (extract_lets +onlyGivenNames x; try (refine (fun hx : Kept σ x => ?_) ?_; on_goal 1 => clear_value x; on_goal 2 => subst x))
    | with_reducible assumption | with_reducible rfl | with_reducible exact (fun h => h) | split | (rename State => x; subst x)
    | with_reducible apply flex_kept | with_reducible exact PortsKept.refl _)

theorem orphanRest_kept {σ τ : State} (hw : Kept σ τ) (r : Nat) : Kept σ (orphanRest r τ) := by
  unfold orphanRest
  repeat' (first | with_reducible assumption | with_reducible apply each_kept | intro _ _ _ | with_reducible apply setLine_kept)

theorem ackKnown_kept {σ τ : State} (hw : Kept σ τ) (r : Nat) (mirror : Bool) : Kept σ (ackKnown r mirror τ) := by
  unfold ackKnown
  repeat' (first
    | (extract_lets +onlyGivenNames x; try (refine (fun hx : Kept σ x => ?_) ?_; on_goal 1 => clear_value x; on_goal 2 => subst x))
    | with_reducible assumption | with_reducible rfl | with_reducible exact (fun h => h) | split | (rename State => x; subst x)
    | with_reducible apply flex_kept | with_reducible exact PortsKept.refl _
    | (simp only [List.length_modify, List.length_map, List.length_set, lmod]; done))

theorem roleMoved_kept {σ τ : State} (hw : Kept σ τ) (r : Nat) : Kept σ (roleMoved r τ) := by
  unfold roleMoved
  repeat' (first
    | (extract_lets +onlyGivenNames x; try (refine (fun hx : Kept σ x => ?_) ?_; on_goal 1 => clear_value x; on_goal 2 => subst x))
    | with_reducible assumption | with_reducible rfl | with_reducible exact (fun h => h) | with_reducible apply complete_kept | split
    | (rename State => x; subst x) | with_reducible apply flex_kept | with_reducible exact PortsKept.refl _)

theorem modMigIn_kept {σ τ : State} (hw : Kept σ τ) (r src : Nat) (mirror : Bool) (f : MigIn → MigIn) : Kept σ (modMigIn r src mirror f τ) := by
  unfold modMigIn
  repeat' (first
    | (extract_lets +onlyGivenNames x; try (refine (fun hx : Kept σ x => ?_) ?_; on_goal 1 => clear_value x; on_goal 2 => subst x))
    | with_reducible assumption | with_reducible rfl | with_reducible exact (fun h => h) | (rename State => x; subst x)
    | with_reducible apply flex_kept | with_reducible exact PortsKept.refl _)

theorem ownRole_kept {σ τ : State} (hw : Kept σ τ) (r : Nat) : Kept σ (ownRole r τ) := by
  unfold ownRole
  repeat' (first
    | (extract_lets +onlyGivenNames x; try (refine (fun hx : Kept σ x => ?_) ?_; on_goal 1 => clear_value x; on_goal 2 => subst x))
    | with_reducible assumption | with_reducible rfl | with_reducible exact (fun h => h) | with_reducible apply each_kept | intro _ _ _
    | with_reducible apply ownLine_kept | split | (rename State => x; subst x) | with_reducible apply flex_kept
    | with_reducible exact PortsKept.refl _ | (simp only [List.length_modify, List.length_map, List.length_set, lmod]; done))

theorem ackEffect_kept {σ τ : State} (hw : Kept σ τ) (r : Nat) (mirror : Bool) : Kept σ (ackEffect r mirror τ) := by
  unfold ackEffect
  repeat' (first
    | (extract_lets +onlyGivenNames x; try (refine (fun hx : Kept σ x => ?_) ?_; on_goal 1 => clear_value x; on_goal 2 => subst x))
    | with_reducible assumption | with_reducible rfl | with_reducible exact (fun h => h) | with_reducible apply ownRole_kept
    | with_reducible apply beginMove_kept | with_reducible apply ackKnown_kept | with_reducible apply roleMoved_kept | split
    | (rename State => x; subst x) | with_reducible apply flex_kept | with_reducible exact PortsKept.refl _
    | (simp only [List.length_modify, List.length_map, List.length_set, lmod]; done))

theorem ackLeft_kept {σ τ : State} (hw : Kept σ τ) (m : LineMsg) : Kept σ (ackLeft m τ) := by
  unfold ackLeft
  repeat' (first
    | (extract_lets +onlyGivenNames x; try (refine (fun hx : Kept σ x => ?_) ?_; on_goal 1 => clear_value x; on_goal 2 => subst x))
    | with_reducible assumption | with_reducible rfl | with_reducible exact (fun h => h) | with_reducible apply ackEffect_kept
    | with_reducible apply modMigIn_kept | split | (rename State => x; subst x) | with_reducible apply flex_kept
    | with_reducible exact PortsKept.refl _ | (simp only [List.length_modify, List.length_map, List.length_set, lmod]; done))

theorem storeMig_kept {σ τ : State} (hw : Kept σ τ) (m : LineMsg) : Kept σ (storeMig m τ) := by
  unfold storeMig
  repeat' (first
    | (extract_lets +onlyGivenNames x; try (refine (fun hx : Kept σ x => ?_) ?_; on_goal 1 => clear_value x; on_goal 2 => subst x))
    | with_reducible assumption | with_reducible rfl | with_reducible exact (fun h => h) | with_reducible apply setLine_kept
    | with_reducible apply replayAdd_kept | split | (rename State => x; subst x) | with_reducible apply flex_kept
    | with_reducible exact PortsKept.refl _)

theorem mirrorAck_kept {σ τ : State} (hw : Kept σ τ) (r : Rx) : Kept σ (mirrorAck r τ) := by
  unfold mirrorAck
  repeat' (first | with_reducible assumption | with_reducible apply queueMsg_kept)

theorem takeOwned_kept {σ τ : State} (hw : Kept σ τ) (m : LineMsg) : Kept σ (takeOwned m τ) := by
  unfold takeOwned
  repeat' (first
    | (extract_lets +onlyGivenNames x; try (refine (fun hx : Kept σ x => ?_) ?_; on_goal 1 => clear_value x; on_goal 2 => subst x))
    | with_reducible assumption | with_reducible rfl | with_reducible exact (fun h => h) | with_reducible apply mirrorSend_kept
    | with_reducible apply homeCommit_kept | with_reducible apply setLine_kept | split | (rename State => x; subst x) | with_reducible apply flex_kept
    | with_reducible exact PortsKept.refl _ | (simp only [List.length_modify, List.length_map, List.length_set, lmod]; done))

theorem takeMigLine_kept {σ τ : State} (hw : Kept σ τ) (r : Rx) : Kept σ (takeMigLine r τ) := by
  unfold takeMigLine
  repeat' (first
    | (extract_lets +onlyGivenNames x; try (refine (fun hx : Kept σ x => ?_) ?_; on_goal 1 => clear_value x; on_goal 2 => subst x))
    | with_reducible assumption | with_reducible rfl | with_reducible exact (fun h => h) | with_reducible apply modMigIn_kept
    | with_reducible apply storeMig_kept | with_reducible apply mirrorAck_kept | with_reducible apply takeOwned_kept | split
    | (rename State => x; subst x) | with_reducible apply flex_kept | with_reducible exact PortsKept.refl _
    | (simp only [List.length_modify, List.length_map, List.length_set, lmod]; done))

theorem takeDir_kept {σ τ : State} (hw : Kept σ τ) (m : LineMsg) (i : Nat) : Kept σ (takeDir m τ i) := by
  unfold takeDir
  repeat' (first
    | (extract_lets +onlyGivenNames x; try (refine (fun hx : Kept σ x => ?_) ?_; on_goal 1 => clear_value x; on_goal 2 => subst x))
    | with_reducible assumption | with_reducible rfl | with_reducible exact (fun h => h) | with_reducible apply setEntry_kept
    | with_reducible apply dirTrk_kept | with_reducible apply setTrks_kept | split | (rename State => x; subst x) | with_reducible apply flex_kept
    | with_reducible exact PortsKept.refl _ | (simp only [List.length_modify, List.length_map, List.length_set, lmod]; done))

theorem takeMigDir_kept {σ τ : State} (hw : Kept σ τ) (r : Rx) : Kept σ (takeMigDir r τ) := by
  unfold takeMigDir
  repeat' (first
    | (extract_lets +onlyGivenNames x; try (refine (fun hx : Kept σ x => ?_) ?_; on_goal 1 => clear_value x; on_goal 2 => subst x))
    | with_reducible assumption | with_reducible rfl | with_reducible exact (fun h => h) | with_reducible apply each_kept | intro _ _ _
    | with_reducible apply modMigIn_kept | with_reducible apply takeDir_kept | split | (rename State => x; subst x) | with_reducible apply flex_kept
    | with_reducible exact PortsKept.refl _ | (simp only [List.length_modify, List.length_map, List.length_set, lmod]; done))

theorem closeMove_kept {σ τ : State} (hw : Kept σ τ) (r : Rx) (k : Nat) : Kept σ (closeMove r k τ) := by
  unfold closeMove
  repeat' (first
    | (extract_lets +onlyGivenNames x; try (refine (fun hx : Kept σ x => ?_) ?_; on_goal 1 => clear_value x; on_goal 2 => subst x))
    | with_reducible assumption | with_reducible rfl | with_reducible exact (fun h => h) | with_reducible apply sendMigAck_kept
    | with_reducible apply modMigIn_kept | split | (rename State => x; subst x) | with_reducible apply flex_kept
    | with_reducible exact PortsKept.refl _ | (simp only [List.length_modify, List.length_map, List.length_set, lmod]; done))

theorem sourceAcked_kept {σ τ : State} (hw : Kept σ τ) (k : Nat) : Kept σ (sourceAcked k τ) := by
  unfold sourceAcked
  repeat' (first
    | (extract_lets +onlyGivenNames x; try (refine (fun hx : Kept σ x => ?_) ?_; on_goal 1 => clear_value x; on_goal 2 => subst x))
    | with_reducible assumption | with_reducible rfl | with_reducible exact (fun h => h) | (rename State => x; subst x)
    | with_reducible apply flex_kept | with_reducible exact PortsKept.refl _)

theorem hearAck_kept {σ τ : State} (hw : Kept σ τ) (k : Nat) (mirror : Bool) : Kept σ (hearAck k mirror τ) := by
  unfold hearAck
  repeat' (first
    | (extract_lets +onlyGivenNames x; try (refine (fun hx : Kept σ x => ?_) ?_; on_goal 1 => clear_value x; on_goal 2 => subst x))
    | with_reducible assumption | with_reducible rfl | with_reducible exact (fun h => h) | with_reducible apply dropMove_kept
    | with_reducible apply sourceAcked_kept | with_reducible apply ackKnown_kept | with_reducible apply roleMoved_kept | split
    | (rename State => x; subst x) | with_reducible apply flex_kept | with_reducible exact PortsKept.refl _
    | (simp only [List.length_modify, List.length_map, List.length_set, lmod]; done))

theorem takeMigDone_kept {σ τ : State} (hw : Kept σ τ) (r : Rx) : Kept σ (takeMigDone r τ) := by
  unfold takeMigDone
  repeat' (first
    | (extract_lets +onlyGivenNames x; try (refine (fun hx : Kept σ x => ?_) ?_; on_goal 1 => clear_value x; on_goal 2 => subst x))
    | with_reducible assumption | with_reducible rfl | with_reducible exact (fun h => h) | with_reducible apply mirrorAnswer_kept
    | with_reducible apply closeMove_kept | with_reducible apply hearAck_kept | split | (rename State => x; subst x)
    | with_reducible apply flex_kept | with_reducible exact PortsKept.refl _)

theorem migLeft_kept {σ τ : State} (hw : Kept σ τ) (m : LineMsg) : Kept σ (migLeft m τ) := by
  unfold migLeft
  repeat' (first
    | (extract_lets +onlyGivenNames x; try (refine (fun hx : Kept σ x => ?_) ?_; on_goal 1 => clear_value x; on_goal 2 => subst x))
    | with_reducible assumption | with_reducible rfl | with_reducible exact (fun h => h) | split | (rename State => x; subst x)
    | with_reducible apply flex_kept | with_reducible exact PortsKept.refl _)

/-! ### Sides -/

theorem modLane_kept {σ τ : State} (hw : Kept σ τ) (l : LaneId) (f : LaneSt → LaneSt) : Kept σ (modLane l f τ) := by
  unfold modLane
  repeat' (first
    | (extract_lets +onlyGivenNames x; try (refine (fun hx : Kept σ x => ?_) ?_; on_goal 1 => clear_value x; on_goal 2 => subst x))
    | with_reducible assumption | with_reducible rfl | with_reducible exact (fun h => h) | (rename State => x; subst x)
    | with_reducible apply flex_kept | with_reducible exact PortsKept.refl _
    | (simp only [List.length_modify, List.length_map, List.length_set, lmod]; done))

theorem modSide_kept {σ τ : State} (hw : Kept σ τ) (l : LaneId) (sd : Side) (f : SideSt → SideSt) : Kept σ (modSide l sd f τ) := by
  unfold modSide
  repeat' (first
    | (extract_lets +onlyGivenNames x; try (refine (fun hx : Kept σ x => ?_) ?_; on_goal 1 => clear_value x; on_goal 2 => subst x))
    | with_reducible assumption | with_reducible rfl | with_reducible exact (fun h => h) | with_reducible apply modLane_kept | split
    | (rename State => x; subst x) | with_reducible apply flex_kept | with_reducible exact PortsKept.refl _)

theorem judgeHop_kept {σ τ : State} (hw : Kept σ τ) (l : LaneId) (sd : Side) : Kept σ (judgeHop l sd τ) := by
  unfold judgeHop
  repeat' (first
    | (extract_lets +onlyGivenNames x; try (refine (fun hx : Kept σ x => ?_) ?_; on_goal 1 => clear_value x; on_goal 2 => subst x))
    | with_reducible assumption | with_reducible rfl | with_reducible exact (fun h => h) | with_reducible apply modSide_kept
    | with_reducible apply raise_kept | with_reducible apply count_kept | split | (rename State => x; subst x) | with_reducible apply flex_kept
    | with_reducible exact PortsKept.refl _ | (simp only [List.length_modify, List.length_map, List.length_set, lmod]; done))

theorem judgeHops_kept {σ τ : State} (hw : Kept σ τ)  : Kept σ (judgeHops τ) := by
  unfold judgeHops
  repeat' (first
    | (extract_lets +onlyGivenNames x; try (refine (fun hx : Kept σ x => ?_) ?_; on_goal 1 => clear_value x; on_goal 2 => subst x))
    | with_reducible assumption | with_reducible rfl | with_reducible exact (fun h => h) | with_reducible apply each_kept | intro _ _ _
    | with_reducible apply judgeHop_kept | with_reducible apply modSide_kept | split | (rename State => x; subst x) | with_reducible apply flex_kept
    | with_reducible exact PortsKept.refl _ | (simp only [List.length_modify, List.length_map, List.length_set, lmod]; done))

/-! ### Cut -/

theorem remapEntry_kept {σ τ : State} (hw : Kept σ τ) (old : List Nat) (new : List Nat) (x : Nat) (e : FEntry) : Kept σ (remapEntry old new x e τ) := by
  unfold remapEntry
  repeat' (first
    | (extract_lets +onlyGivenNames x; try (refine (fun hx : Kept σ x => ?_) ?_; on_goal 1 => clear_value x; on_goal 2 => subst x))
    | with_reducible assumption | with_reducible rfl | with_reducible exact (fun h => h) | with_reducible apply raise_kept
    | with_reducible apply cohCount_kept | with_reducible apply setLine_kept | with_reducible apply setEntry_kept | split
    | (rename State => x; subst x) | with_reducible apply flex_kept | with_reducible exact PortsKept.refl _
    | (simp only [List.length_modify, List.length_map, List.length_set, lmod]; done))

theorem unholdCopy_kept {σ τ : State} (hw : Kept σ τ) (k : Nat) (c : Copy) : Kept σ (unholdCopy k c τ) := by
  unfold unholdCopy
  repeat' (first
    | (extract_lets +onlyGivenNames x; try (refine (fun hx : Kept σ x => ?_) ?_; on_goal 1 => clear_value x; on_goal 2 => subst x))
    | with_reducible assumption | with_reducible rfl | with_reducible exact (fun h => h) | with_reducible apply setBob_kept
    | with_reducible apply setCopy_kept | split | (rename State => x; subst x) | with_reducible apply flex_kept
    | with_reducible exact PortsKept.refl _)

theorem cutCopy_kept {σ τ : State} (hw : Kept σ τ) (e : Nat × Copy) : Kept σ (cutCopy τ e) := by
  unfold cutCopy
  repeat' (first
    | (extract_lets +onlyGivenNames x; try (refine (fun hx : Kept σ x => ?_) ?_; on_goal 1 => clear_value x; on_goal 2 => subst x))
    | with_reducible assumption | with_reducible rfl | with_reducible exact (fun h => h) | with_reducible apply setCopy_kept
    | with_reducible apply dropWay_kept | with_reducible apply unholdCopy_kept | split | (rename State => x; subst x)
    | with_reducible apply flex_kept | with_reducible exact PortsKept.refl _)

theorem discardCopies_kept {σ τ : State} (hw : Kept σ τ) (dominant : Bool) : Kept σ (discardCopies dominant τ) := by
  unfold discardCopies
  repeat' (first
    | (extract_lets +onlyGivenNames x; try (refine (fun hx : Kept σ x => ?_) ?_; on_goal 1 => clear_value x; on_goal 2 => subst x))
    | with_reducible assumption | with_reducible rfl | with_reducible exact (fun h => h) | with_reducible apply dropCopies_kept | split
    | (rename State => x; subst x) | with_reducible apply flex_kept | with_reducible exact PortsKept.refl _
    | (simp only [List.length_modify, List.length_map, List.length_set, lmod]; done))

theorem leaveWay_kept {σ τ : State} (hw : Kept σ τ) (k : Nat) (c : Copy) : Kept σ (leaveWay k c τ) := by
  unfold leaveWay
  repeat' (first
    | (extract_lets +onlyGivenNames x; try (refine (fun hx : Kept σ x => ?_) ?_; on_goal 1 => clear_value x; on_goal 2 => subst x))
    | with_reducible assumption | with_reducible rfl | with_reducible exact (fun h => h) | with_reducible apply setCopy_kept
    | with_reducible apply dropWay_kept | split | (rename State => x; subst x) | with_reducible apply flex_kept
    | with_reducible exact PortsKept.refl _ | (simp only [List.length_modify, List.length_map, List.length_set, lmod]; done))

theorem commitOwn_kept {σ τ : State} (hw : Kept σ τ) (la : Nat) (data : Line) : Kept σ (commitOwn la data τ) := by
  unfold commitOwn
  repeat' (first
    | (extract_lets +onlyGivenNames x; try (refine (fun hx : Kept σ x => ?_) ?_; on_goal 1 => clear_value x; on_goal 2 => subst x))
    | with_reducible assumption | with_reducible rfl | with_reducible exact (fun h => h) | with_reducible apply mirrorSend_kept
    | with_reducible apply homeCommit_kept | split | (rename State => x; subst x) | with_reducible apply flex_kept
    | with_reducible exact PortsKept.refl _ | (simp only [List.length_modify, List.length_map, List.length_set, lmod]; done))

theorem sendOwned_kept {σ τ : State} (hw : Kept σ τ) (rebuilt : Nat → Bool) : Kept σ (sendOwned rebuilt τ) := by
  unfold sendOwned
  repeat' (first
    | (extract_lets +onlyGivenNames x; try (refine (fun hx : Kept σ x => ?_) ?_; on_goal 1 => clear_value x; on_goal 2 => subst x))
    | with_reducible assumption | with_reducible rfl | with_reducible exact (fun h => h) | with_reducible apply each_kept | intro _ _ _
    | with_reducible apply queueMsg_kept | with_reducible apply leaveWay_kept | split | (rename State => x; subst x) | with_reducible apply flex_kept
    | with_reducible exact PortsKept.refl _ | (simp only [List.length_modify, List.length_map, List.length_set, lmod]; done))

theorem ownCopies_kept {σ τ : State} (hw : Kept σ τ)  : Kept σ (ownCopies τ) := by
  unfold ownCopies
  repeat' (first
    | (extract_lets +onlyGivenNames x; try (refine (fun hx : Kept σ x => ?_) ?_; on_goal 1 => clear_value x; on_goal 2 => subst x))
    | with_reducible assumption | with_reducible rfl | with_reducible exact (fun h => h) | with_reducible apply each_kept | intro _ _ _
    | with_reducible apply commitOwn_kept | with_reducible apply setLine_kept | with_reducible apply leaveWay_kept | split
    | (rename State => x; subst x) | with_reducible apply flex_kept | with_reducible exact PortsKept.refl _
    | (simp only [List.length_modify, List.length_map, List.length_set, lmod]; done))

theorem cutRole_kept {σ τ : State} (hw : Kept σ τ) (o : Outcome) (src : Nat × Nat) (me : Nat) (wasDom : Bool) (r : Nat) : Kept σ (cutRole o src me wasDom r τ) := by
  unfold cutRole
  repeat' (first
    | (extract_lets +onlyGivenNames x; try (refine (fun hx : Kept σ x => ?_) ?_; on_goal 1 => clear_value x; on_goal 2 => subst x))
    | with_reducible assumption | with_reducible rfl | with_reducible exact (fun h => h) | with_reducible apply raise_kept
    | with_reducible apply wipeRole_kept | with_reducible apply orphanRest_kept | with_reducible apply beginMove_kept | split
    | (rename State => x; subst x) | with_reducible apply flex_kept | with_reducible exact PortsKept.refl _
    | (simp only [List.length_modify, List.length_map, List.length_set, lmod]; done))

theorem cutRoles_kept {σ τ : State} (hw : Kept σ τ) (o : Outcome) (me : Nat) : Kept σ (cutRoles o me τ) := by
  unfold cutRoles
  repeat' (first
    | (extract_lets +onlyGivenNames x; try (refine (fun hx : Kept σ x => ?_) ?_; on_goal 1 => clear_value x; on_goal 2 => subst x))
    | with_reducible assumption | with_reducible rfl | with_reducible exact (fun h => h) | with_reducible apply each_kept | intro _ _ _
    | with_reducible apply discardCopies_kept | with_reducible apply cutRole_kept | with_reducible apply beginMove_kept
    | with_reducible apply modMigIn_kept | with_reducible apply sendOwned_kept | with_reducible apply ownCopies_kept | split
    | (rename State => x; subst x) | with_reducible apply flex_kept | with_reducible exact PortsKept.refl _
    | (simp only [List.length_modify, List.length_map, List.length_set, lmod]; done) | dsimp only)

theorem cutPattern_kept {σ τ : State} (hw : Kept σ τ) (o : Outcome) : Kept σ (cutPattern o τ) := by
  unfold cutPattern
  repeat' (first
    | (extract_lets +onlyGivenNames x; try (refine (fun hx : Kept σ x => ?_) ?_; on_goal 1 => clear_value x; on_goal 2 => subst x))
    | with_reducible assumption | with_reducible rfl | with_reducible exact (fun h => h) | with_reducible apply judgeHops_kept | split
    | (rename State => x; subst x) | with_reducible apply flex_kept | with_reducible exact PortsKept.refl _
    | (simp only [List.length_modify, List.length_map, List.length_set, lmod]; done))

theorem doCut_kept {σ τ : State} (hw : Kept σ τ) (o : Outcome) : Kept σ (doCut o τ) := by
  unfold doCut
  repeat' (first
    | (extract_lets +onlyGivenNames x; try (refine (fun hx : Kept σ x => ?_) ?_; on_goal 1 => clear_value x; on_goal 2 => subst x))
    | with_reducible assumption | with_reducible rfl | with_reducible exact (fun h => h) | with_reducible apply each_kept | intro _ _ _
    | with_reducible apply dropTrackers_kept | with_reducible apply remapEntry_kept | with_reducible apply cutCopy_kept
    | with_reducible apply cutRoles_kept | with_reducible apply cutPattern_kept | with_reducible apply refitRegions_kept | split
    | (rename State => x; subst x) | with_reducible apply flex_kept | with_reducible exact PortsKept.refl _
    | (simp only [List.length_modify, List.length_map, List.length_set, lmod]; done))

theorem cutNow_kept {σ τ : State} (hw : Kept σ τ)  : Kept σ (cutNow τ) := by
  unfold cutNow
  repeat' (first
    | (extract_lets +onlyGivenNames x; try (refine (fun hx : Kept σ x => ?_) ?_; on_goal 1 => clear_value x; on_goal 2 => subst x))
    | with_reducible assumption | with_reducible rfl | with_reducible exact (fun h => h) | with_reducible apply doCut_kept | split
    | (rename State => x; subst x) | with_reducible apply flex_kept | with_reducible exact PortsKept.refl _)

theorem rewait_kept {σ τ : State} (hw : Kept σ τ) (b : Nat) (q : LineMsg) : Kept σ (rewait b q τ) := by
  unfold rewait
  repeat' (first
    | (extract_lets +onlyGivenNames x; try (refine (fun hx : Kept σ x => ?_) ?_; on_goal 1 => clear_value x; on_goal 2 => subst x))
    | with_reducible assumption | with_reducible rfl | with_reducible exact (fun h => h) | split | (rename State => x; subst x)
    | with_reducible apply flex_kept | with_reducible exact PortsKept.refl _)

theorem reissue_kept {σ τ : State} (hw : Kept σ τ) (b : Nat) (v : Bobbin) : Kept σ (reissue b v τ) := by
  unfold reissue
  repeat' (first
    | (extract_lets +onlyGivenNames x; try (refine (fun hx : Kept σ x => ?_) ?_; on_goal 1 => clear_value x; on_goal 2 => subst x))
    | with_reducible assumption | with_reducible rfl | with_reducible exact (fun h => h) | with_reducible apply cutOff_kept
    | with_reducible apply nowLocal_kept | with_reducible apply count_kept | with_reducible apply rewait_kept | with_reducible apply queueMsg_kept
    | with_reducible apply setBob_kept | split | (rename State => x; subst x) | with_reducible apply flex_kept | with_reducible exact PortsKept.refl _
    | (simp only [List.length_modify, List.length_map, List.length_set, lmod]; done))

theorem refreshStale_kept {σ τ : State} (hw : Kept σ τ)  : Kept σ (refreshStale τ) := by
  unfold refreshStale
  repeat' (first
    | (extract_lets +onlyGivenNames x; try (refine (fun hx : Kept σ x => ?_) ?_; on_goal 1 => clear_value x; on_goal 2 => subst x))
    | with_reducible assumption | with_reducible rfl | with_reducible exact (fun h => h) | with_reducible apply each_kept | intro _ _ _
    | with_reducible apply refreshLine_kept | split | (rename State => x; subst x) | with_reducible apply flex_kept
    | with_reducible exact PortsKept.refl _ | (simp only [List.length_modify, List.length_map, List.length_set, lmod]; done))

theorem resumeMemb_kept {σ τ : State} (hw : Kept σ τ)  : Kept σ (resumeMemb τ) := by
  unfold resumeMemb
  repeat' (first
    | (extract_lets +onlyGivenNames x; try (refine (fun hx : Kept σ x => ?_) ?_; on_goal 1 => clear_value x; on_goal 2 => subst x))
    | with_reducible assumption | with_reducible apply raise_kept | with_reducible apply setMemb_kept | with_reducible apply leaveTrain_kept
    | with_reducible apply isolate_kept | split | (rename State => x; subst x))

theorem endRequests_kept {σ τ : State} (hw : Kept σ τ)  : Kept σ (endRequests τ) := by
  unfold endRequests
  repeat' (first | with_reducible assumption | with_reducible apply each_kept | intro _ _ _ | with_reducible apply complete_kept | split)

theorem doResume_kept {σ τ : State} (hw : Kept σ τ)  : Kept σ (doResume τ) := by
  unfold doResume
  refine instant_kept hw _ fun σ τ hw => ?_
  repeat' (first
    | (extract_lets +onlyGivenNames x; try (refine (fun hx : Kept σ x => ?_) ?_; on_goal 1 => clear_value x; on_goal 2 => subst x))
    | with_reducible assumption | with_reducible rfl | with_reducible exact (fun h => h) | with_reducible apply each_kept | intro _ _ _
    | with_reducible apply setDev_kept | with_reducible apply resumeMemb_kept | with_reducible apply reissue_kept
    | with_reducible apply refreshStale_kept | with_reducible apply raise_kept | with_reducible apply timeForDev_kept
    | with_reducible apply resumeResets_kept | with_reducible apply endRequests_kept | split | (rename State => x; subst x)
    | with_reducible apply flex_kept | with_reducible exact PortsKept.refl _
    | (simp only [List.length_modify, List.length_map, List.length_set, lmod]; done))

theorem execStatusResume_kept {σ τ : State} (hw : Kept σ τ) (m : InaugMsg) : ∀ u, execStatusResume m τ = .next u → Kept σ u := by
  intro u hu
  unfold execStatusResume at hu
  repeat' (first | (with_reducible (replace hu := Host.Outcome.next.inj hu; subst hu)) | (split at hu))
  all_goals (try clear hu)
  any_goals repeat' (first | with_reducible assumption | with_reducible apply doResume_kept | split)

/-! ### Keep -/

theorem putPage_kept {σ τ : State} (hw : Kept σ τ) (p : Nat) (bs : List Byte) : Kept σ (putPage p bs τ) := by
  unfold putPage
  exact flex_kept hw _ _ _ _ _ _ _ _ _ _ _ _ _ _ _ _ _ _ _ rfl rfl (fun h => memPuts_wf h _ _) id id rfl (PortsKept.refl _)

theorem slotOff_kept {σ τ : State} (hw : Kept σ τ) (w : KeepWr) : Kept σ (slotOff w τ) := by
  unfold slotOff
  repeat' (first
    | (extract_lets +onlyGivenNames x; try (refine (fun hx : Kept σ x => ?_) ?_; on_goal 1 => clear_value x; on_goal 2 => subst x))
    | with_reducible assumption | with_reducible rfl | with_reducible exact (fun h => h) | with_reducible apply modBob_kept | split
    | (rename State => x; subst x) | with_reducible apply flex_kept | with_reducible exact PortsKept.refl _
    | (simp only [List.length_modify, List.length_map, List.length_set, lmod]; done))

theorem keepKick_kept {σ τ : State} (hw : Kept σ τ)  : Kept σ (keepKick τ) := by
  unfold keepKick
  repeat' (first
    | (extract_lets +onlyGivenNames x; try (refine (fun hx : Kept σ x => ?_) ?_; on_goal 1 => clear_value x; on_goal 2 => subst x))
    | with_reducible assumption | with_reducible rfl | with_reducible exact (fun h => h) | with_reducible apply slotOff_kept | split
    | (rename State => x; subst x) | with_reducible apply flex_kept | with_reducible exact PortsKept.refl _)

theorem keepAsk_kept {σ τ : State} (hw : Kept σ τ) (w : KeepWr) : Kept σ (keepAsk w τ) := by
  unfold keepAsk
  repeat' (first
    | (extract_lets +onlyGivenNames x; try (refine (fun hx : Kept σ x => ?_) ?_; on_goal 1 => clear_value x; on_goal 2 => subst x))
    | with_reducible assumption | with_reducible rfl | with_reducible exact (fun h => h) | with_reducible apply keepKick_kept
    | (rename State => x; subst x) | with_reducible apply flex_kept | with_reducible exact PortsKept.refl _)

theorem faultWrite_kept {σ τ : State} (hw : Kept σ τ) (ev : Nat) (detail : List Byte) : Kept σ (faultWrite ev detail τ) := by
  unfold faultWrite
  repeat' (first
    | (extract_lets +onlyGivenNames x; try (refine (fun hx : Kept σ x => ?_) ?_; on_goal 1 => clear_value x; on_goal 2 => subst x))
    | with_reducible assumption | with_reducible rfl | with_reducible exact (fun h => h) | with_reducible apply keepAsk_kept
    | (rename State => x; subst x) | with_reducible apply flex_kept | with_reducible exact PortsKept.refl _)

theorem recordFault_kept {σ τ : State} (hw : Kept σ τ) (ev : Nat) (detail : List Byte) : Kept σ (recordFault ev detail τ) := by
  unfold recordFault
  repeat' (first
    | (extract_lets +onlyGivenNames x; try (refine (fun hx : Kept σ x => ?_) ?_; on_goal 1 => clear_value x; on_goal 2 => subst x))
    | with_reducible assumption | with_reducible rfl | with_reducible exact (fun h => h) | with_reducible apply count_kept
    | with_reducible apply faultWrite_kept | split | (rename State => x; subst x) | with_reducible apply flex_kept
    | with_reducible exact PortsKept.refl _)

theorem addWear_kept {σ τ : State} (hw : Kept σ τ) (p : Nat) (hot : Bool) : Kept σ (addWear p hot τ) := by
  unfold addWear
  repeat' (first
    | (extract_lets +onlyGivenNames x; try (refine (fun hx : Kept σ x => ?_) ?_; on_goal 1 => clear_value x; on_goal 2 => subst x))
    | with_reducible assumption | with_reducible rfl | with_reducible exact (fun h => h) | with_reducible apply raise_kept | split
    | (rename State => x; subst x) | with_reducible apply flex_kept | with_reducible exact PortsKept.refl _)

theorem checkSlot_kept {σ τ : State} (hw : Kept σ τ) (i : Nat) : Kept σ (checkSlot i τ) := by
  unfold checkSlot
  repeat' (first
    | (extract_lets +onlyGivenNames x; try (refine (fun hx : Kept σ x => ?_) ?_; on_goal 1 => clear_value x; on_goal 2 => subst x))
    | with_reducible assumption | with_reducible rfl | with_reducible exact (fun h => h) | (rename State => x; subst x)
    | with_reducible apply flex_kept | with_reducible exact PortsKept.refl _
    | (simp only [List.length_modify, List.length_map, List.length_set, lmod]; done))

theorem failedSlot_kept {σ τ : State} (hw : Kept σ τ) (i : Nat) : Kept σ (failedSlot i τ).1 := by
  unfold failedSlot
  repeat' (first
    | (extract_lets +onlyGivenNames x; try (refine (fun hx : Kept σ x => ?_) ?_; on_goal 1 => clear_value x; on_goal 2 => subst x))
    | with_reducible assumption | with_reducible rfl | with_reducible exact (fun h => h) | with_reducible apply checkSlot_kept | split
    | (rename State => x; subst x) | with_reducible apply flex_kept | with_reducible exact PortsKept.refl _
    | (simp only [List.length_modify, List.length_map, List.length_set, lmod]; done))

theorem keepEnd_kept {σ τ : State} (hw : Kept σ τ) (w : KeepWr) (p : Nat) (ok : Bool) : Kept σ (keepEnd w p ok τ) := by
  unfold keepEnd
  repeat' (first
    | (extract_lets +onlyGivenNames x; try (refine (fun hx : Kept σ x => ?_) ?_; on_goal 1 => clear_value x; on_goal 2 => subst x))
    | with_reducible assumption | with_reducible rfl | with_reducible exact (fun h => h) | with_reducible apply count_kept
    | with_reducible apply complete_kept | with_reducible apply checkSlot_kept | with_reducible apply failedSlot_kept | split
    | (rename State => x; subst x) | with_reducible apply flex_kept | with_reducible exact PortsKept.refl _)

theorem pageWritten_kept {σ τ : State} (hw : Kept σ τ) (same hot : Bool) : Kept σ (pageWritten same hot τ) := by
  unfold pageWritten
  refine instant_kept hw _ fun σ τ hw => ?_
  repeat' (first
    | (extract_lets +onlyGivenNames x; try (refine (fun hx : Kept σ x => ?_) ?_; on_goal 1 => clear_value x; on_goal 2 => subst x))
    | with_reducible assumption | with_reducible rfl | with_reducible exact (fun h => h) | with_reducible apply count_kept
    | with_reducible apply perf_kept | with_reducible apply raise_kept | with_reducible apply putPage_kept | with_reducible apply keepKick_kept
    | with_reducible apply addWear_kept | with_reducible apply keepEnd_kept | split | (rename State => x; subst x)
    | with_reducible apply flex_kept | with_reducible exact PortsKept.refl _)

theorem keeFail_kept {σ τ : State} (hw : Kept σ τ) (err : Nat) : Kept σ (keeFail err τ) := by
  unfold keeFail
  repeat' (first
    | (extract_lets +onlyGivenNames x; try (refine (fun hx : Kept σ x => ?_) ?_; on_goal 1 => clear_value x; on_goal 2 => subst x))
    | with_reducible assumption | with_reducible rfl | with_reducible exact (fun h => h) | (rename State => x; subst x)
    | with_reducible apply flex_kept | with_reducible exact PortsKept.refl _)

theorem keeRead_kept {σ τ : State} (hw : Kept σ τ) (p : Nat) : Kept σ (keeRead p τ) := by
  unfold keeRead
  repeat' (first
    | (extract_lets +onlyGivenNames x; try (refine (fun hx : Kept σ x => ?_) ?_; on_goal 1 => clear_value x; on_goal 2 => subst x))
    | with_reducible assumption | with_reducible rfl | with_reducible exact (fun h => h) | split | (rename State => x; subst x)
    | with_reducible apply flex_kept | with_reducible exact PortsKept.refl _)

theorem idClamped_kept {σ τ : State} (hw : Kept σ τ) (p : Nat) (bs : List Byte) : Kept σ (idClamped p bs τ).2 := by
  unfold idClamped
  extract_lets hk
  split
  · exact hw
  · exact ownClamp_kept hw _ _ _ _ _

theorem keeWrite_kept {σ τ : State} (hw : Kept σ τ) (p : Nat) : Kept σ (keeWrite p τ) := by
  unfold keeWrite
  extract_lets q bs ok
  split
  · exact hw
  · split
    · exact keeFail_kept hw _
    · split
      · exact keeFail_kept hw _
      · split
        · exact keeFail_kept hw _
        · apply keepAsk_kept
          exact flex_kept (idClamped_kept hw q bs) _ _ _ _ _ _ _ _ _ _ _ _ _ _ _ _ _ _ _ rfl rfl id id id rfl (PortsKept.refl _)

theorem keeVerify_kept {σ τ : State} (hw : Kept σ τ)  : Kept σ (keeVerify τ) := by
  unfold keeVerify
  repeat' (first
    | (extract_lets +onlyGivenNames x; try (refine (fun hx : Kept σ x => ?_) ?_; on_goal 1 => clear_value x; on_goal 2 => subst x))
    | with_reducible assumption | with_reducible rfl | with_reducible exact (fun h => h) | split | (rename State => x; subst x)
    | with_reducible apply flex_kept | with_reducible exact PortsKept.refl _)

theorem readFound_kept {σ τ : State} (hw : Kept σ τ) (p : Nat) (r : ScrubFind) : Kept σ (readFound p r τ) := by
  unfold readFound
  repeat' (first
    | (extract_lets +onlyGivenNames x; try (refine (fun hx : Kept σ x => ?_) ?_; on_goal 1 => clear_value x; on_goal 2 => subst x))
    | with_reducible assumption | with_reducible rfl | with_reducible exact (fun h => h) | with_reducible apply count_kept
    | with_reducible apply raise_kept | split | (rename State => x; subst x) | with_reducible apply flex_kept
    | with_reducible exact PortsKept.refl _)

theorem fillBuf_kept {σ τ : State} (hw : Kept σ τ) (bs : List Byte) : Kept σ (fillBuf bs τ) := by
  unfold fillBuf
  repeat' (first | with_reducible assumption | with_reducible apply each_kept | intro _ _ _ | with_reducible apply regSet_kept)

/-! ### Switch -/

theorem putPrp_kept {σ τ : State} (hw : Kept σ τ) (p : Proposal) : Kept σ (putPrp p τ) := by
  unfold putPrp
  repeat' (first
    | (extract_lets +onlyGivenNames x; try (refine (fun hx : Kept σ x => ?_) ?_; on_goal 1 => clear_value x; on_goal 2 => subst x))
    | with_reducible assumption | with_reducible rfl | with_reducible exact (fun h => h) | (rename State => x; subst x)
    | with_reducible apply flex_kept | with_reducible exact PortsKept.refl _)

theorem queueCtl_kept {σ τ : State} (hw : Kept σ τ) (m : Msg) : Kept σ (queueCtl m τ) := by
  unfold queueCtl
  repeat' (first
    | (extract_lets +onlyGivenNames x; try (refine (fun hx : Kept σ x => ?_) ?_; on_goal 1 => clear_value x; on_goal 2 => subst x))
    | with_reducible assumption | with_reducible rfl | with_reducible exact (fun h => h) | (rename State => x; subst x)
    | with_reducible apply flex_kept | with_reducible exact PortsKept.refl _)

theorem execPatSwitchPropose_kept {σ τ : State} (hw : Kept σ τ) (src : Nat) (m : PatMsg) :
    ∀ u, execPatSwitchPropose src m τ = .next u → Kept σ u := by
  intro u hu
  unfold execPatSwitchPropose at hu
  repeat' (first | (with_reducible (replace hu := Host.Outcome.next.inj hu; subst hu)) | (split at hu))
  all_goals (try clear hu)
  any_goals repeat' (first
    | (extract_lets +onlyGivenNames x; try (refine (fun hx : Kept σ x => ?_) ?_; on_goal 1 => clear_value x; on_goal 2 => subst x))
    | with_reducible assumption | with_reducible rfl | with_reducible exact (fun h => h) | with_reducible apply putPrp_kept
    | with_reducible apply queueCtl_kept | split | (rename State => x; subst x) | with_reducible apply flex_kept
    | with_reducible exact PortsKept.refl _)

theorem execPatSwitchAck_kept {σ τ : State} (hw : Kept σ τ) (src : Nat) (m : PatMsg) : ∀ u, execPatSwitchAck src m τ = .next u → Kept σ u := by
  intro u hu
  unfold execPatSwitchAck at hu
  repeat' (first | (with_reducible (replace hu := Host.Outcome.next.inj hu; subst hu)) | (split at hu))
  all_goals (try clear hu)
  any_goals repeat' (first | with_reducible assumption | with_reducible apply putPrp_kept | split)

theorem execPatSwitchNack_kept {σ τ : State} (hw : Kept σ τ) (src : Nat) (m : PatMsg) : ∀ u, execPatSwitchNack src m τ = .next u → Kept σ u := by
  intro u hu
  unfold execPatSwitchNack at hu
  repeat' (first | (with_reducible (replace hu := Host.Outcome.next.inj hu; subst hu)) | (split at hu))
  all_goals (try clear hu)
  any_goals repeat' (first | with_reducible assumption | with_reducible apply putPrp_kept | split)

theorem takeVerdict_kept {σ τ : State} (hw : Kept σ τ) (p : Proposal) (verdict reason subject : Nat) :
    Kept σ (takeVerdict p verdict reason subject τ) := by
  unfold takeVerdict
  repeat' (first
    | (extract_lets +onlyGivenNames x; try (refine (fun hx : Kept σ x => ?_) ?_; on_goal 1 => clear_value x; on_goal 2 => subst x))
    | with_reducible assumption | with_reducible rfl | with_reducible exact (fun h => h) | with_reducible apply putPrp_kept | split
    | (rename State => x; subst x) | with_reducible apply flex_kept | with_reducible exact PortsKept.refl _)

theorem execPatSwitchGo_kept {σ τ : State} (hw : Kept σ τ) (m : PatMsg) : ∀ u, execPatSwitchGo m τ = .next u → Kept σ u := by
  intro u hu
  unfold execPatSwitchGo at hu
  repeat' (first | (with_reducible (replace hu := Host.Outcome.next.inj hu; subst hu)) | (split at hu))
  all_goals (try clear hu)
  any_goals repeat' (first | with_reducible assumption | with_reducible apply takeVerdict_kept | split)

theorem execPatSwitchCancel_kept {σ τ : State} (hw : Kept σ τ) (m : PatMsg) : ∀ u, execPatSwitchCancel m τ = .next u → Kept σ u := by
  intro u hu
  unfold execPatSwitchCancel at hu
  repeat' (first | (with_reducible (replace hu := Host.Outcome.next.inj hu; subst hu)) | (split at hu))
  all_goals (try clear hu)
  any_goals repeat' (first | with_reducible assumption | with_reducible apply takeVerdict_kept | split)

theorem verdicts_kept {σ τ : State} (hw : Kept σ τ)  : Kept σ (verdicts τ) := by
  unfold verdicts
  repeat' (first
    | (extract_lets +onlyGivenNames x; try (refine (fun hx : Kept σ x => ?_) ?_; on_goal 1 => clear_value x; on_goal 2 => subst x))
    | with_reducible assumption | with_reducible rfl | with_reducible exact (fun h => h) | with_reducible apply each_kept | intro _ _ _
    | with_reducible apply takeVerdict_kept | split | (rename State => x; subst x) | with_reducible apply flex_kept
    | with_reducible exact PortsKept.refl _)

theorem putPattern_kept {σ τ : State} (hw : Kept σ τ) (t : Nat) : Kept σ (putPattern t τ) := by
  unfold putPattern
  repeat' (first
    | (extract_lets +onlyGivenNames x; try (refine (fun hx : Kept σ x => ?_) ?_; on_goal 1 => clear_value x; on_goal 2 => subst x))
    | with_reducible assumption | with_reducible rfl | with_reducible exact (fun h => h) | with_reducible apply refitRegions_kept
    | with_reducible apply judgeHops_kept | split | (rename State => x; subst x) | with_reducible apply flex_kept
    | with_reducible exact PortsKept.refl _ | (simp only [List.length_modify, List.length_map, List.length_set, lmod]; done))

theorem switchTo_kept {σ τ : State} (hw : Kept σ τ) (p : Proposal) : Kept σ (switchTo p τ) := by
  unfold switchTo
  repeat' (first
    | (extract_lets +onlyGivenNames x; try (refine (fun hx : Kept σ x => ?_) ?_; on_goal 1 => clear_value x; on_goal 2 => subst x))
    | with_reducible assumption | with_reducible rfl | with_reducible exact (fun h => h) | with_reducible apply raise_kept
    | with_reducible apply count_kept | with_reducible apply setMemb_kept | with_reducible apply putPattern_kept | split
    | (rename State => x; subst x) | with_reducible apply flex_kept | with_reducible exact PortsKept.refl _
    | (simp only [List.length_modify, List.length_map, List.length_set, lmod]; done))

theorem mirrorMoved_kept {σ τ : State} (hw : Kept σ τ) (claimant : Nat) : Kept σ (mirrorMoved claimant τ) := by
  unfold mirrorMoved
  repeat' (first
    | (extract_lets +onlyGivenNames x; try (refine (fun hx : Kept σ x => ?_) ?_; on_goal 1 => clear_value x; on_goal 2 => subst x))
    | with_reducible assumption | with_reducible rfl | with_reducible exact (fun h => h) | with_reducible apply each_kept | intro _ _ _
    | with_reducible apply modMigIn_kept | with_reducible apply beginMove_kept | split | (rename State => x; subst x) | with_reducible apply flex_kept
    | with_reducible exact PortsKept.refl _ | (simp only [List.length_modify, List.length_map, List.length_set, lmod]; done))

theorem takeUnheld_kept {σ τ : State} (hw : Kept σ τ) (r : Nat) (src : Nat) : Kept σ (takeUnheld r src τ) := by
  unfold takeUnheld
  repeat' (first
    | (extract_lets +onlyGivenNames x; try (refine (fun hx : Kept σ x => ?_) ?_; on_goal 1 => clear_value x; on_goal 2 => subst x))
    | with_reducible assumption | with_reducible rfl | with_reducible exact (fun h => h) | with_reducible apply roleMoved_kept
    | with_reducible apply ownRole_kept | with_reducible apply orphanRest_kept | with_reducible apply wipeRole_kept
    | with_reducible apply modMigIn_kept | split | (rename State => x; subst x) | with_reducible apply flex_kept
    | with_reducible exact PortsKept.refl _ | (simp only [List.length_modify, List.length_map, List.length_set, lmod]; done) | dsimp only)

theorem moveRole_kept {σ τ : State} (hw : Kept σ τ) (r : Nat) (claimant : Nat) : Kept σ (moveRole r claimant τ) := by
  unfold moveRole
  repeat' (first
    | (extract_lets +onlyGivenNames x; try (refine (fun hx : Kept σ x => ?_) ?_; on_goal 1 => clear_value x; on_goal 2 => subst x))
    | with_reducible assumption | with_reducible rfl | with_reducible exact (fun h => h) | with_reducible apply beginMove_kept
    | with_reducible apply mirrorMoved_kept | with_reducible apply modMigIn_kept | with_reducible apply wipeRole_kept
    | with_reducible apply takeUnheld_kept | split | (rename State => x; subst x) | with_reducible apply flex_kept
    | with_reducible exact PortsKept.refl _ | (simp only [List.length_modify, List.length_map, List.length_set, lmod]; done))

theorem settle_kept {σ τ : State} (hw : Kept σ τ) (p : Proposal) : Kept σ (settle p τ) := by
  unfold settle
  repeat' (first
    | (extract_lets +onlyGivenNames x; try (refine (fun hx : Kept σ x => ?_) ?_; on_goal 1 => clear_value x; on_goal 2 => subst x))
    | with_reducible assumption | with_reducible rfl | with_reducible exact (fun h => h) | with_reducible apply modBob_kept
    | with_reducible apply moveRole_kept | with_reducible apply switchTo_kept | with_reducible apply complete_kept
    | with_reducible apply endProposal_kept | split | (rename State => x; subst x) | with_reducible apply flex_kept
    | with_reducible exact PortsKept.refl _ | (simp only [List.length_modify, List.length_map, List.length_set, lmod]; done))

theorem switchBoundary_kept {σ τ : State} (hw : Kept σ τ)  : Kept σ (switchBoundary τ) := by
  unfold switchBoundary
  repeat' (first
    | (extract_lets +onlyGivenNames x; try (refine (fun hx : Kept σ x => ?_) ?_; on_goal 1 => clear_value x; on_goal 2 => subst x))
    | with_reducible assumption | with_reducible rfl | with_reducible exact (fun h => h) | with_reducible apply each_kept | intro _ _ _
    | with_reducible apply settle_kept | with_reducible apply endProposal_kept | split | (rename State => x; subst x) | with_reducible apply flex_kept
    | with_reducible exact PortsKept.refl _ | (simp only [List.length_modify, List.length_map, List.length_set, lmod]; done))

theorem unmute_kept {σ τ : State} (hw : Kept σ τ) (pat : Nat) (digest : Word) : Kept σ (unmute pat digest τ) := by
  unfold unmute
  repeat' (first
    | (extract_lets +onlyGivenNames x; try (refine (fun hx : Kept σ x => ?_) ?_; on_goal 1 => clear_value x; on_goal 2 => subst x))
    | with_reducible assumption | with_reducible rfl | with_reducible exact (fun h => h) | with_reducible apply setMemb_kept | split
    | (rename State => x; subst x) | with_reducible apply flex_kept | with_reducible exact PortsKept.refl _
    | (simp only [List.length_modify, List.length_map, List.length_set, lmod]; done))

theorem unmuteRow_kept {σ τ : State} (hw : Kept σ τ)  : Kept σ (unmuteRow τ) := by
  unfold unmuteRow
  repeat' (first
    | (extract_lets +onlyGivenNames x; try (refine (fun hx : Kept σ x => ?_) ?_; on_goal 1 => clear_value x; on_goal 2 => subst x))
    | with_reducible assumption | with_reducible rfl | with_reducible exact (fun h => h) | with_reducible apply foldl_kept | intro _ _ _
    | with_reducible apply foldl_kept | with_reducible apply putPattern_kept | with_reducible apply setMemb_kept | split
    | (rename State => x; subst x) | with_reducible apply flex_kept | with_reducible exact PortsKept.refl _
    | (simp only [List.length_modify, List.length_map, List.length_set, lmod]; done))

theorem propose_kept {σ τ : State} (hw : Kept σ τ) (b target : Nat) (digest : Word) : Kept σ (propose b target digest τ) := by
  unfold propose
  repeat' (first
    | (extract_lets +onlyGivenNames x; try (refine (fun hx : Kept σ x => ?_) ?_; on_goal 1 => clear_value x; on_goal 2 => subst x))
    | with_reducible assumption | with_reducible rfl | with_reducible exact (fun h => h) | with_reducible apply waitAs_kept
    | with_reducible apply queueCtl_kept | (rename State => x; subst x) | with_reducible apply flex_kept | with_reducible exact PortsKept.refl _)

theorem proposeLeft_kept {σ τ : State} (hw : Kept σ τ) (m : PatMsg) : Kept σ (proposeLeft m τ) := by
  unfold proposeLeft
  repeat' (first
    | (extract_lets +onlyGivenNames x; try (refine (fun hx : Kept σ x => ?_) ?_; on_goal 1 => clear_value x; on_goal 2 => subst x))
    | with_reducible assumption | with_reducible rfl | with_reducible exact (fun h => h) | split | (rename State => x; subst x)
    | with_reducible apply flex_kept | with_reducible exact PortsKept.refl _)

theorem trainJob_kept {σ τ : State} (hw : Kept σ τ) (b op : Nat) (go : Bobbin → State → State)
    (hg : ∀ v u, Kept σ u → Kept σ (go v u)) : Kept σ (trainJob b op go τ) := by
  unfold trainJob
  repeat' (first
    | with_reducible assumption | apply hg | with_reducible apply complete_kept | with_reducible apply jobFail_kept
    | with_reducible apply setBob_kept | with_reducible apply waitAs_kept | split | extract_lets)

theorem proposePattern_kept {σ τ : State} (hw : Kept σ τ) (b : Nat) (v : Bobbin) : Kept σ (proposePattern b v τ) := by
  unfold proposePattern
  repeat' (first
    | (extract_lets +onlyGivenNames x; try (refine (fun hx : Kept σ x => ?_) ?_; on_goal 1 => clear_value x; on_goal 2 => subst x))
    | with_reducible assumption | with_reducible apply complete_kept | with_reducible apply waitAs_kept | with_reducible apply jobDone_kept
    | with_reducible apply propose_kept | split | (rename State => x; subst x))

theorem claimRole_kept {σ τ : State} (hw : Kept σ τ) (b : Nat) (v : Bobbin) : Kept σ (claimRole b v τ) := by
  unfold claimRole
  repeat' (first
    | (extract_lets +onlyGivenNames x; try (refine (fun hx : Kept σ x => ?_) ?_; on_goal 1 => clear_value x; on_goal 2 => subst x))
    | with_reducible assumption | with_reducible apply waitAs_kept | with_reducible apply jobDone_kept | with_reducible apply jobFail_kept
    | with_reducible apply propose_kept | split | (rename State => x; subst x))

theorem stageHold_kept {σ τ : State} (hw : Kept σ τ) (v : Word) : Kept σ (stageHold v τ) := by
  unfold stageHold
  repeat' (first
    | (extract_lets +onlyGivenNames x; try (refine (fun hx : Kept σ x => ?_) ?_; on_goal 1 => clear_value x; on_goal 2 => subst x))
    | with_reducible assumption | with_reducible rfl | with_reducible exact (fun h => h) | split | (rename State => x; subst x)
    | with_reducible apply flex_kept | with_reducible exact PortsKept.refl _)

/-! ### Links -/

theorem emit_kept {σ τ : State} (hw : Kept σ τ) (l : LaneId) (sd : Side) (bytes : List Byte) : Kept σ (emit l sd bytes τ) := by
  unfold emit
  repeat' (first
    | (extract_lets +onlyGivenNames x; try (refine (fun hx : Kept σ x => ?_) ?_; on_goal 1 => clear_value x; on_goal 2 => subst x))
    | with_reducible assumption | with_reducible rfl | with_reducible exact (fun h => h) | with_reducible apply modSide_kept
    | with_reducible apply perfN_kept | with_reducible apply perf_kept | split | (rename State => x; subst x) | with_reducible apply flex_kept
    | with_reducible exact PortsKept.refl _ | (simp only [List.length_modify, List.length_map, List.length_set, lmod]; done))

theorem sendOn_kept {σ τ : State} (hw : Kept σ τ) (l : LaneId) (sd : Side) (h : FrameHdr) (ms : List Msg) : Kept σ (sendOn l sd h ms τ) := by
  unfold sendOn
  repeat' (first | with_reducible assumption | with_reducible apply emit_kept | split)

theorem sendRanging_kept {σ τ : State} (hw : Kept σ τ) (l : LaneId) (sd : Side) (y : Bool) (waves : List DiscMsg) (t : Nat) : Kept σ (sendRanging l sd y waves t τ) := by
  unfold sendRanging
  repeat' (first
    | (extract_lets +onlyGivenNames x; try (refine (fun hx : Kept σ x => ?_) ?_; on_goal 1 => clear_value x; on_goal 2 => subst x))
    | with_reducible assumption | with_reducible rfl | with_reducible exact (fun h => h) | with_reducible apply emit_kept
    | with_reducible apply modSide_kept | split | (rename State => x; subst x) | with_reducible apply flex_kept
    | with_reducible exact PortsKept.refl _ | (simp only [List.length_modify, List.length_map, List.length_set, lmod]; done))

theorem endCoord_kept {σ τ : State} (hw : Kept σ τ) (l : LaneId) (sd : Side) : Kept σ (endCoord l sd τ) := by
  unfold endCoord
  repeat' (first
    | (extract_lets +onlyGivenNames x; try (refine (fun hx : Kept σ x => ?_) ?_; on_goal 1 => clear_value x; on_goal 2 => subst x))
    | with_reducible assumption | with_reducible rfl | with_reducible exact (fun h => h) | with_reducible apply modSide_kept | split
    | (rename State => x; subst x) | with_reducible apply flex_kept | with_reducible exact PortsKept.refl _)

theorem missY_kept {σ τ : State} (hw : Kept σ τ) (l : LaneId) (sd : Side) : Kept σ (missY l sd τ) := by
  unfold missY
  repeat' (first
    | (extract_lets +onlyGivenNames x; try (refine (fun hx : Kept σ x => ?_) ?_; on_goal 1 => clear_value x; on_goal 2 => subst x))
    | with_reducible assumption | with_reducible rfl | with_reducible exact (fun h => h) | with_reducible apply raiseLane_kept
    | with_reducible apply modSide_kept | split | (rename State => x; subst x) | with_reducible apply flex_kept
    | with_reducible exact PortsKept.refl _)

theorem closeSide_kept {σ τ : State} (hw : Kept σ τ) (l : LaneId) (sd : Side) : Kept σ (closeSide l τ sd) := by
  unfold closeSide
  repeat' (first
    | (extract_lets +onlyGivenNames x; try (refine (fun hx : Kept σ x => ?_) ?_; on_goal 1 => clear_value x; on_goal 2 => subst x))
    | with_reducible assumption | with_reducible rfl | with_reducible exact (fun h => h) | with_reducible apply modSide_kept
    | with_reducible apply missY_kept | split | (rename State => x; subst x) | with_reducible apply flex_kept | with_reducible exact PortsKept.refl _
    | (simp only [List.length_modify, List.length_map, List.length_set, lmod]; done))

theorem closeLane_kept {σ τ : State} (hw : Kept σ τ) (l : LaneId) : Kept σ (closeLane τ l) := by
  unfold closeLane
  repeat' (first
    | (extract_lets +onlyGivenNames x; try (refine (fun hx : Kept σ x => ?_) ?_; on_goal 1 => clear_value x; on_goal 2 => subst x))
    | with_reducible assumption | with_reducible rfl | with_reducible exact (fun h => h) | with_reducible apply each_kept | intro _ _ _
    | with_reducible apply closeSide_kept | with_reducible apply modLane_kept | split | (rename State => x; subst x) | with_reducible apply flex_kept
    | with_reducible exact PortsKept.refl _ | (simp only [List.length_modify, List.length_map, List.length_set, lmod]; done))

theorem endRanging_kept {σ τ : State} (hw : Kept σ τ) (l : LaneId) : Kept σ (endRanging l τ) := by
  unfold endRanging
  repeat' (first
    | (extract_lets +onlyGivenNames x; try (refine (fun hx : Kept σ x => ?_) ?_; on_goal 1 => clear_value x; on_goal 2 => subst x))
    | with_reducible assumption | with_reducible rfl | with_reducible exact (fun h => h) | with_reducible apply closeLane_kept | split
    | (rename State => x; subst x) | with_reducible apply flex_kept | with_reducible exact PortsKept.refl _
    | (simp only [List.length_modify, List.length_map, List.length_set, lmod]; done))

theorem rangingStart_kept {σ τ : State} (hw : Kept σ τ) (l : LaneId) : Kept σ (rangingStart l τ) := by
  unfold rangingStart
  repeat' (first
    | (extract_lets +onlyGivenNames x; try (refine (fun hx : Kept σ x => ?_) ?_; on_goal 1 => clear_value x; on_goal 2 => subst x))
    | with_reducible assumption | with_reducible rfl | with_reducible exact (fun h => h) | with_reducible apply each_kept | intro _ _ _
    | with_reducible apply closeLane_kept | with_reducible apply modLane_kept | with_reducible apply endCoord_kept
    | with_reducible apply sendRanging_kept | split | (rename State => x; subst x) | with_reducible apply flex_kept
    | with_reducible exact PortsKept.refl _ | (simp only [List.length_modify, List.length_map, List.length_set, lmod]; done) | dsimp only)

theorem takeMean_kept {σ τ : State} (hw : Kept σ τ) (l : LaneId) (sd : Side) (raw : Int) (m : RangeMsg) : Kept σ (takeMean l sd raw m τ) := by
  unfold takeMean
  repeat' (first
    | (extract_lets +onlyGivenNames x; try (refine (fun hx : Kept σ x => ?_) ?_; on_goal 1 => clear_value x; on_goal 2 => subst x))
    | with_reducible assumption | with_reducible rfl | with_reducible exact (fun h => h) | with_reducible apply modSide_kept
    | with_reducible apply raiseLane_kept | with_reducible apply judgeHop_kept | split | (rename State => x; subst x) | with_reducible apply flex_kept
    | with_reducible exact PortsKept.refl _ | (simp only [List.length_modify, List.length_map, List.length_set, lmod]; done))

theorem takeRange_kept {σ τ : State} (hw : Kept σ τ) (l : LaneId) (sd : Side) (m : RangeMsg) (stamp : Nat) : Kept σ (takeRange l sd m stamp τ) := by
  unfold takeRange
  repeat' (first
    | (extract_lets +onlyGivenNames x; try (refine (fun hx : Kept σ x => ?_) ?_; on_goal 1 => clear_value x; on_goal 2 => subst x))
    | with_reducible assumption | with_reducible rfl | with_reducible exact (fun h => h) | with_reducible apply endRanging_kept
    | with_reducible apply modSide_kept | with_reducible apply takeMean_kept | with_reducible apply sendRanging_kept | split
    | (rename State => x; subst x) | with_reducible apply flex_kept | with_reducible exact PortsKept.refl _
    | (simp only [List.length_modify, List.length_map, List.length_set, lmod]; done))

theorem closeRanging_kept {σ τ : State} (hw : Kept σ τ)  : Kept σ (closeRanging τ) := by
  unfold closeRanging
  repeat' (first
    | (extract_lets +onlyGivenNames x; try (refine (fun hx : Kept σ x => ?_) ?_; on_goal 1 => clear_value x; on_goal 2 => subst x))
    | with_reducible assumption | with_reducible rfl | with_reducible exact (fun h => h) | with_reducible apply each_kept | intro _ _ _
    | with_reducible apply closeLane_kept | split | (rename State => x; subst x) | with_reducible apply flex_kept
    | with_reducible exact PortsKept.refl _ | (simp only [List.length_modify, List.length_map, List.length_set, lmod]; done))

theorem sideGone_kept {σ τ : State} (hw : Kept σ τ) (l : LaneId) (sd : Side) (tell : Bool) : Kept σ (sideGone l sd tell τ) := by
  unfold sideGone
  repeat' (first
    | (extract_lets +onlyGivenNames x; try (refine (fun hx : Kept σ x => ?_) ?_; on_goal 1 => clear_value x; on_goal 2 => subst x))
    | with_reducible assumption | with_reducible rfl | with_reducible exact (fun h => h) | with_reducible apply modSide_kept
    | with_reducible apply raiseLane_kept | with_reducible apply count_kept | split | (rename State => x; subst x) | with_reducible apply flex_kept
    | with_reducible exact PortsKept.refl _ | (simp only [List.length_modify, List.length_map, List.length_set, lmod]; done))

theorem sideDown_kept {σ τ : State} (hw : Kept σ τ) (l : LaneId) (sd : Side) (tell : Bool) : Kept σ (sideDown l sd tell τ) := by
  unfold sideDown
  repeat' (first
    | (extract_lets +onlyGivenNames x; try (refine (fun hx : Kept σ x => ?_) ?_; on_goal 1 => clear_value x; on_goal 2 => subst x))
    | with_reducible assumption | with_reducible rfl | with_reducible exact (fun h => h) | with_reducible apply modSide_kept
    | with_reducible apply sideGone_kept | split | (rename State => x; subst x) | with_reducible apply flex_kept
    | with_reducible exact PortsKept.refl _ | (simp only [List.length_modify, List.length_map, List.length_set, lmod]; done))

theorem linkDown_kept {σ τ : State} (hw : Kept σ τ) (l : LaneId) (sd : Side) : Kept σ (linkDown l sd τ) := by
  unfold linkDown
  repeat' (first
    | (extract_lets +onlyGivenNames x; try (refine (fun hx : Kept σ x => ?_) ?_; on_goal 1 => clear_value x; on_goal 2 => subst x))
    | with_reducible assumption | with_reducible rfl | with_reducible exact (fun h => h) | with_reducible apply sideGone_kept | split
    | (rename State => x; subst x) | with_reducible apply flex_kept | with_reducible exact PortsKept.refl _
    | (simp only [List.length_modify, List.length_map, List.length_set, lmod]; done))

theorem sideUp_kept {σ τ : State} (hw : Kept σ τ) (l : LaneId) (sd : Side) : Kept σ (sideUp l sd τ) := by
  unfold sideUp
  repeat' (first
    | (extract_lets +onlyGivenNames x; try (refine (fun hx : Kept σ x => ?_) ?_; on_goal 1 => clear_value x; on_goal 2 => subst x))
    | with_reducible assumption | with_reducible rfl | with_reducible exact (fun h => h) | with_reducible apply raiseLane_kept
    | with_reducible apply modSide_kept | split | (rename State => x; subst x) | with_reducible apply flex_kept
    | with_reducible exact PortsKept.refl _)

theorem sideSpeed_kept {σ τ : State} (hw : Kept σ τ) (l : LaneId) (sd : Side) : Kept σ (sideSpeed l sd τ) := by
  unfold sideSpeed
  repeat' (first
    | with_reducible assumption | with_reducible apply raiseLane_kept | with_reducible apply modSide_kept | with_reducible apply sideDown_kept
    | split)

theorem applyLink_kept {σ τ : State} (hw : Kept σ τ) (l : LaneId) (sd : Side) (up : Bool) (fast : Bool) : Kept σ (applyLink l sd up fast τ) := by
  unfold applyLink
  repeat' (first
    | (extract_lets +onlyGivenNames x; try (refine (fun hx : Kept σ x => ?_) ?_; on_goal 1 => clear_value x; on_goal 2 => subst x))
    | with_reducible assumption | with_reducible rfl | with_reducible exact (fun h => h) | with_reducible apply linkDown_kept
    | with_reducible apply sideSpeed_kept | with_reducible apply sideUp_kept | split | (rename State => x; subst x) | with_reducible apply flex_kept
    | with_reducible exact PortsKept.refl _ | (simp only [List.length_modify, List.length_map, List.length_set, lmod]; done))

theorem lanesDown_kept {σ τ : State} (hw : Kept σ τ) (l : LaneId) (tell : Bool) : Kept σ (lanesDown l tell τ) := by
  unfold lanesDown
  repeat' (first | with_reducible assumption | with_reducible apply sideDown_kept)

theorem setBypass_kept {σ τ : State} (hw : Kept σ τ) (l : LaneId) (tell : Bool) : Kept σ (setBypass l tell τ) := by
  unfold setBypass
  repeat' (first
    | (extract_lets +onlyGivenNames x; try (refine (fun hx : Kept σ x => ?_) ?_; on_goal 1 => clear_value x; on_goal 2 => subst x))
    | with_reducible assumption | with_reducible rfl | with_reducible exact (fun h => h) | with_reducible apply modLane_kept
    | with_reducible apply lanesDown_kept | split | (rename State => x; subst x) | with_reducible apply flex_kept
    | with_reducible exact PortsKept.refl _)

theorem bypassAll_kept {σ τ : State} (hw : Kept σ τ) (tell : Bool) : Kept σ (bypassAll tell τ) := by
  unfold bypassAll
  repeat' (first | with_reducible assumption | with_reducible apply setBypass_kept)

theorem lanCtrlWrite_kept {σ τ : State} (hw : Kept σ τ) (cause : ClampBy) (l : LaneId) (v : Word) : Kept σ (lanCtrlWrite cause l v τ) := by
  unfold lanCtrlWrite
  repeat' (first
    | (extract_lets +onlyGivenNames x; try (refine (fun hx : Kept σ x => ?_) ?_; on_goal 1 => clear_value x; on_goal 2 => subst x))
    | with_reducible assumption | with_reducible apply raiseLane_kept | with_reducible apply regPutChecked_kept
    | with_reducible apply setBypass_kept | split | (rename State => x; subst x))

theorem mdioCmd_kept {σ τ : State} (hw : Kept σ τ) (v : Word) : Kept σ (mdioCmd v τ) := by
  unfold mdioCmd
  repeat' (first
    | (extract_lets +onlyGivenNames x; try (refine (fun hx : Kept σ x => ?_) ?_; on_goal 1 => clear_value x; on_goal 2 => subst x))
    | with_reducible assumption | with_reducible rfl | with_reducible exact (fun h => h) | split | (rename State => x; subst x)
    | with_reducible apply flex_kept | with_reducible exact PortsKept.refl _)

/-! ### Stitches -/

theorem late_kept {σ τ : State} (hw : Kept σ τ) (l : LaneId) (sd : Side) (stitch : Nat) : Kept σ (late l sd stitch τ) := by
  unfold late
  repeat' (first
    | (extract_lets +onlyGivenNames x; try (refine (fun hx : Kept σ x => ?_) ?_; on_goal 1 => clear_value x; on_goal 2 => subst x))
    | with_reducible assumption | with_reducible apply count_kept | with_reducible apply perf_kept | with_reducible apply raise_kept
    | (rename State => x; subst x))

theorem launchOn_kept {σ τ : State} (hw : Kept σ τ) (l : LaneId) (sd : Side) (stitch : Nat) (h : FrameHdr) (ms : List Msg) :
    Kept σ (launchOn l sd stitch h ms τ) := by
  unfold launchOn
  repeat' (first
    | (extract_lets +onlyGivenNames x; try (refine (fun hx : Kept σ x => ?_) ?_; on_goal 1 => clear_value x; on_goal 2 => subst x))
    | with_reducible assumption | with_reducible rfl | with_reducible exact (fun h => h) | with_reducible apply modSide_kept
    | with_reducible apply emit_kept | with_reducible apply late_kept | split | (rename State => x; subst x) | with_reducible apply flex_kept
    | with_reducible exact PortsKept.refl _)

theorem launchLane_kept {σ τ : State} (hw : Kept σ τ) (l : LaneId) (stitch : Nat) (h : FrameHdr) (ms : List Msg) :
    Kept σ (launchLane l stitch h ms τ) := by
  unfold launchLane
  repeat' (first | with_reducible assumption | with_reducible apply launchOn_kept)

theorem launchLanes_kept {σ τ : State} (hw : Kept σ τ) (lanes : Nat) (stitch : Nat) (h : FrameHdr) (ms : List Msg) :
    Kept σ (launchLanes lanes stitch h ms τ) := by
  unfold launchLanes
  repeat' (first | with_reducible assumption | with_reducible apply each_kept | intro _ _ _ | with_reducible apply launchLane_kept)

theorem itemLeft_kept {σ τ : State} (hw : Kept σ τ) (i : TxItem) : Kept σ (itemLeft τ i) := by
  unfold itemLeft
  repeat' (first
    | (extract_lets +onlyGivenNames x; try (refine (fun hx : Kept σ x => ?_) ?_; on_goal 1 => clear_value x; on_goal 2 => subst x))
    | with_reducible assumption | with_reducible rfl | with_reducible exact (fun h => h) | with_reducible apply modBob_kept
    | with_reducible apply migLeft_kept | with_reducible apply ackLeft_kept | with_reducible apply proposeLeft_kept | split
    | (rename State => x; subst x) | with_reducible apply flex_kept | with_reducible exact PortsKept.refl _
    | (simp only [List.length_modify, List.length_map, List.length_set, lmod]; done))

theorem countStitch_kept {σ τ : State} (hw : Kept σ τ) (c : Cls) : Kept σ (countStitch c τ) := by
  unfold countStitch
  repeat' (first
    | (extract_lets +onlyGivenNames x; try (refine (fun hx : Kept σ x => ?_) ?_; on_goal 1 => clear_value x; on_goal 2 => subst x))
    | with_reducible assumption | with_reducible rfl | with_reducible exact (fun h => h) | split | (rename State => x; subst x)
    | with_reducible apply flex_kept | with_reducible exact PortsKept.refl _)

theorem dataFrame_kept {σ τ : State} (hw : Kept σ τ) (n : Nat) (t : Stitch) (lanes : Nat) (cap : Nat) : Kept σ (dataFrame n t lanes cap τ) := by
  unfold dataFrame
  repeat' (first
    | (extract_lets +onlyGivenNames x; try (refine (fun hx : Kept σ x => ?_) ?_; on_goal 1 => clear_value x; on_goal 2 => subst x))
    | with_reducible assumption | with_reducible rfl | with_reducible exact (fun h => h) | with_reducible apply each_kept | intro _ _ _
    | with_reducible apply launchLanes_kept | with_reducible apply itemLeft_kept | with_reducible apply perf_kept | split
    | (rename State => x; subst x) | with_reducible apply flex_kept | with_reducible exact PortsKept.refl _
    | (simp only [List.length_modify, List.length_map, List.length_set, lmod]; done))

theorem dataStitch_kept {σ τ : State} (hw : Kept σ τ) (n : Nat) (t : Stitch) : Kept σ (dataStitch n t τ) := by
  unfold dataStitch
  repeat' (first
    | (extract_lets +onlyGivenNames x; try (refine (fun hx : Kept σ x => ?_) ?_; on_goal 1 => clear_value x; on_goal 2 => subst x))
    | with_reducible assumption | with_reducible apply each_kept | with_reducible apply foldl_kept | intro _ _ _
    | with_reducible apply countStitch_kept | with_reducible apply dataFrame_kept | split | (rename State => x; subst x))

theorem controlStitch_kept {σ τ : State} (hw : Kept σ τ) (t : Stitch) : Kept σ (controlStitch t τ) := by
  unfold controlStitch
  repeat' (first
    | (extract_lets +onlyGivenNames x; try (refine (fun hx : Kept σ x => ?_) ?_; on_goal 1 => clear_value x; on_goal 2 => subst x))
    | with_reducible assumption | with_reducible rfl | with_reducible exact (fun h => h) | with_reducible apply launchLanes_kept
    | with_reducible apply noteDrained_kept | with_reducible apply endDrain_kept | with_reducible apply masterAgree_kept | split
    | (rename State => x; subst x) | with_reducible apply flex_kept | with_reducible exact PortsKept.refl _
    | (simp only [List.length_modify, List.length_map, List.length_set, lmod]; done))

theorem queuePushes_kept {σ τ : State} (hw : Kept σ τ)  : Kept σ (queuePushes τ) := by
  unfold queuePushes
  repeat' (first
    | (focus (intro c hm; (try extract_lets); (try dsimp only); with_reducible (repeat' first | exact hm | apply memPuts_wf | apply memPut_wf | split); done))
    | (focus (intro hm; (try extract_lets); (try dsimp only); with_reducible (repeat' first | exact hm | apply memPuts_wf | apply memPut_wf | split); done)) | (extract_lets +onlyGivenNames x; try (refine (fun hx : Kept σ x => ?_) ?_; on_goal 1 => clear_value x; on_goal 2 => subst x))
    | with_reducible assumption | with_reducible rfl | with_reducible exact (fun h => h) | (rename State => x; subst x)
    | with_reducible apply flex_kept | with_reducible exact PortsKept.refl _)

/-! ### Lanes -/

theorem after_kept {σ τ : State} (hw : Kept σ τ) (o : Out3) (ho : ∀ u, o = .next u → Kept σ u) : Kept σ (after o τ) := by
  unfold after
  split
  · exact ho _ rfl
  · exact hw

theorem laneCount_kept {σ τ : State} (hw : Kept σ τ) (l : LaneId) (i n : Nat) : Kept σ (laneCount l i n τ) := by
  unfold laneCount
  repeat' (first | with_reducible assumption | with_reducible apply count_kept)

theorem lanePerf_kept {σ τ : State} (hw : Kept σ τ) (l : LaneId) (k n : Nat) : Kept σ (lanePerf l k n τ) := by
  unfold lanePerf
  repeat' (first | with_reducible assumption | with_reducible apply perfN_kept)

theorem unknownType_kept {σ τ : State} (hw : Kept σ τ) (l : LaneId) (sd : Side) : Kept σ (unknownType l sd τ) := by
  unfold unknownType
  repeat' (first | with_reducible assumption | with_reducible apply raiseLane_kept | with_reducible apply laneCount_kept)

theorem takeLine_kept {σ τ : State} (hw : Kept σ τ) (r : Rx) : Kept σ (takeLine r τ) := by
  unfold takeLine
  repeat' (first
    | (extract_lets +onlyGivenNames x; try (refine (fun hx : Kept σ x => ?_) ?_; on_goal 1 => clear_value x; on_goal 2 => subst x))
    | with_reducible assumption | with_reducible rfl | with_reducible exact (fun h => h) | with_reducible apply homeRequest_kept
    | with_reducible apply takeInvAck_kept | with_reducible apply takeRecallData_kept | with_reducible apply takeRecallNodata_kept
    | with_reducible apply homeWriteback_kept | with_reducible apply evictClean_kept | with_reducible apply takeUpdate_kept
    | with_reducible apply takeShared_kept | with_reducible apply takeOwn_kept | with_reducible apply takeGrant_kept
    | with_reducible apply takeInvalidate_kept | with_reducible apply takeRecall_kept | with_reducible apply takeForwarded_kept
    | with_reducible apply takeAck_kept | with_reducible apply takeNak_kept | with_reducible apply takeAtomic_kept
    | with_reducible apply takeGrantLease_kept | with_reducible apply takeBreak_kept | with_reducible apply takeMigLine_kept
    | with_reducible apply takeMigDir_kept | with_reducible apply takeMigDone_kept | split | (rename State => x; subst x)
    | with_reducible apply flex_kept | with_reducible exact PortsKept.refl _)

theorem takeInaug_kept {σ τ : State} (hw : Kept σ τ) (fromRanging : Bool) (src : Nat) (m : InaugMsg) : Kept σ (takeInaug fromRanging src m τ) := by
  unfold takeInaug
  repeat' (first
    | (extract_lets +onlyGivenNames x; try (refine (fun hx : Kept σ x => ?_) ?_; on_goal 1 => clear_value x; on_goal 2 => subst x))
    | with_reducible assumption | with_reducible rfl | with_reducible exact (fun h => h) | with_reducible apply hearCall_kept
    | (intro _ hu; with_reducible refine execInaugClaim_kept ?_ _ _ _ hu) | (intro _ hu; with_reducible refine execConfirm_kept ?_ _ _ _ hu)
    | with_reducible apply takeAgreed_kept | (intro _ hu; with_reducible refine execDrained_kept ?_ _ _ _ hu)
    | (intro _ hu; with_reducible refine execStatusCut_kept ?_ _ _ hu) | (intro _ hu; with_reducible refine execStatusResume_kept ?_ _ _ hu)
    | with_reducible apply after_kept | split | (rename State => x; subst x) | with_reducible apply flex_kept
    | with_reducible exact PortsKept.refl _)

theorem takePat_kept {σ τ : State} (hw : Kept σ τ) (src : Nat) (m : PatMsg) : Kept σ (takePat src m τ) := by
  unfold takePat
  repeat' (first
    | (extract_lets +onlyGivenNames x; try (refine (fun hx : Kept σ x => ?_) ?_; on_goal 1 => clear_value x; on_goal 2 => subst x))
    | with_reducible assumption | with_reducible rfl | with_reducible exact (fun h => h)
    | (intro _ hu; with_reducible refine execPatSwitchPropose_kept ?_ _ _ _ hu)
    | (intro _ hu; with_reducible refine execPatSwitchAck_kept ?_ _ _ _ hu)
    | (intro _ hu; with_reducible refine execPatSwitchNack_kept ?_ _ _ _ hu) | (intro _ hu; with_reducible refine execPatSwitchGo_kept ?_ _ _ hu)
    | (intro _ hu; with_reducible refine execPatSwitchCancel_kept ?_ _ _ hu) | with_reducible apply after_kept | split
    | (rename State => x; subst x) | with_reducible apply flex_kept | with_reducible exact PortsKept.refl _)

theorem takeMsg_kept {σ τ : State} (hw : Kept σ τ) (l : LaneId) (h : FrameHdr) (m : Msg) : Kept σ (takeMsg l h m τ) := by
  unfold takeMsg
  refine instant_kept hw _ fun σ τ hw => ?_
  repeat' (first
    | with_reducible assumption | (intro _ hu; with_reducible refine execDigest_kept ?_ _ _ _ hu) | with_reducible apply after_kept
    | with_reducible apply takeLine_kept | with_reducible apply takeInaug_kept | with_reducible apply takePat_kept | split)

theorem takeMsgs_kept {σ τ : State} (hw : Kept σ τ) (l : LaneId) (h : FrameHdr) (ms : List Msg) : Kept σ (takeMsgs l h ms τ) := by
  unfold takeMsgs
  repeat' (first | with_reducible assumption | with_reducible apply each_kept | intro _ _ _ | with_reducible apply takeMsg_kept)

theorem firstValid_kept {σ τ : State} (hw : Kept σ τ) (l : LaneId) : Kept σ (firstValid l τ) := by
  unfold firstValid
  repeat' (first | with_reducible assumption | with_reducible apply laneCount_kept | with_reducible apply lanePerf_kept)

theorem setStream_kept {σ τ : State} (hw : Kept σ τ) (k : Nat) (x : RxStream) : Kept σ (setStream k x τ) := by
  unfold setStream
  repeat' (first
    | (extract_lets +onlyGivenNames x; try (refine (fun hx : Kept σ x => ?_) ?_; on_goal 1 => clear_value x; on_goal 2 => subst x))
    | with_reducible assumption | with_reducible rfl | with_reducible exact (fun h => h) | (rename State => x; subst x)
    | with_reducible apply flex_kept | with_reducible exact PortsKept.refl _)

theorem deliver_kept {σ τ : State} (hw : Kept σ τ) (l : LaneId) (f : Frame) : Kept σ (deliver l f τ) := by
  unfold deliver
  repeat' (first | with_reducible assumption | with_reducible apply takeMsgs_kept | with_reducible apply firstValid_kept)

theorem followOn_kept {σ τ : State} (hw : Kept σ τ) (k : Nat) (fu : Nat) : Kept σ (followOn k fu τ) := by
  induction fu generalizing τ k with
  | zero => unfold followOn; first | exact hw | exact flex_kept hw _ _ _ _ _ _ _ _ _ _ _ _ _ _ _ _ _ _ _ rfl rfl id id id rfl (PortsKept.refl _)
  | succ n ih =>
    unfold followOn
    repeat' (first
    | (extract_lets +onlyGivenNames x; try (refine (fun hx : Kept σ x => ?_) ?_; on_goal 1 => clear_value x; on_goal 2 => subst x))
    | with_reducible assumption | with_reducible rfl | with_reducible exact (fun h => h) | with_reducible apply ih
    | with_reducible apply setStream_kept | with_reducible apply deliver_kept | split | (rename State => x; subst x)
    | with_reducible apply flex_kept | with_reducible exact PortsKept.refl _)

theorem declareLost_kept {σ τ : State} (hw : Kept σ τ) (k n : Nat) (l : LaneId) : Kept σ (declareLost k n l τ) := by
  unfold declareLost
  repeat' (first
    | (extract_lets +onlyGivenNames x; try (refine (fun hx : Kept σ x => ?_) ?_; on_goal 1 => clear_value x; on_goal 2 => subst x))
    | with_reducible assumption | with_reducible apply raise_kept | with_reducible apply staleMark_kept | with_reducible apply laneCount_kept
    | with_reducible apply lanePerf_kept | split | (rename State => x; subst x))

theorem closeGap_kept {σ τ : State} (hw : Kept σ τ) (k : Nat) : Kept σ (closeGap k τ) := by
  unfold closeGap
  repeat' (first
    | (extract_lets +onlyGivenNames x; try (refine (fun hx : Kept σ x => ?_) ?_; on_goal 1 => clear_value x; on_goal 2 => subst x))
    | with_reducible assumption | with_reducible rfl | with_reducible exact (fun h => h) | with_reducible apply setStream_kept
    | with_reducible apply followOn_kept | with_reducible apply declareLost_kept | split | (rename State => x; subst x)
    | with_reducible apply flex_kept | with_reducible exact PortsKept.refl _)

theorem closeGaps_kept {σ τ : State} (hw : Kept σ τ) (k : Nat) (late : Nat × LaneId × Nat × Frame → Bool) (fu : Nat) :
    Kept σ (closeGaps k late fu τ) := by
  induction fu generalizing τ with
  | zero => exact hw
  | succ n ih =>
    unfold closeGaps
    split
    · exact ih (closeGap_kept hw k)
    · exact hw

theorem holdRoom_kept {σ τ : State} (hw : Kept σ τ)  : Kept σ (holdRoom τ) := by
  unfold holdRoom
  repeat' (first
    | (extract_lets +onlyGivenNames x; try (refine (fun hx : Kept σ x => ?_) ?_; on_goal 1 => clear_value x; on_goal 2 => subst x))
    | with_reducible assumption | with_reducible rfl | with_reducible exact (fun h => h) | with_reducible apply closeGaps_kept | split
    | (rename State => x; subst x) | with_reducible apply flex_kept | with_reducible exact PortsKept.refl _
    | (simp only [List.length_modify, List.length_map, List.length_set, lmod]; done))

theorem sequence_kept {σ τ : State} (hw : Kept σ τ) (l : LaneId) (sd : Side) (f : Frame) (odd : Bool) : Kept σ (sequence l sd f odd τ) := by
  unfold sequence
  repeat' (first
    | (extract_lets +onlyGivenNames x; try (refine (fun hx : Kept σ x => ?_) ?_; on_goal 1 => clear_value x; on_goal 2 => subst x))
    | with_reducible assumption | with_reducible rfl | with_reducible exact (fun h => h) | with_reducible apply each_kept | intro _ _ _
    | with_reducible apply lanePerf_kept | with_reducible apply laneCount_kept | with_reducible apply unknownType_kept
    | with_reducible apply followOn_kept | with_reducible apply deliver_kept | with_reducible apply setStream_kept
    | with_reducible apply holdRoom_kept | with_reducible apply declareLost_kept | split | (rename State => x; subst x)
    | with_reducible apply flex_kept | with_reducible exact PortsKept.refl _
    | (simp only [List.length_modify, List.length_map, List.length_set, lmod]; done) | dsimp only)

theorem takePattern_kept {σ τ : State} (hw : Kept σ τ) (c : CopyWait) : Kept σ (takePattern c τ) := by
  unfold takePattern
  repeat' (first
    | (extract_lets +onlyGivenNames x; try (refine (fun hx : Kept σ x => ?_) ?_; on_goal 1 => clear_value x; on_goal 2 => subst x))
    | with_reducible assumption | with_reducible rfl | with_reducible exact (fun h => h) | with_reducible apply takeReference_kept
    | with_reducible apply takeMsgs_kept | split | (rename State => x; subst x) | with_reducible apply flex_kept
    | with_reducible exact PortsKept.refl _)

theorem patternFrame_kept {σ τ : State} (hw : Kept σ τ) (c : CopyWait) : Kept σ (patternFrame c τ) := by
  unfold patternFrame
  repeat' (first
    | (extract_lets +onlyGivenNames x; try (refine (fun hx : Kept σ x => ?_) ?_; on_goal 1 => clear_value x; on_goal 2 => subst x))
    | with_reducible assumption | with_reducible rfl | with_reducible exact (fun h => h) | with_reducible apply laneCount_kept
    | with_reducible apply firstValid_kept | with_reducible apply unmute_kept | with_reducible apply takePattern_kept | split
    | (rename State => x; subst x) | with_reducible apply flex_kept | with_reducible exact PortsKept.refl _
    | (simp only [List.length_modify, List.length_map, List.length_set, lmod]; done))

theorem inaugFrame_kept {σ τ : State} (hw : Kept σ τ) (c : CopyWait) : Kept σ (inaugFrame c τ) := by
  unfold inaugFrame
  repeat' (first
    | (extract_lets +onlyGivenNames x; try (refine (fun hx : Kept σ x => ?_) ?_; on_goal 1 => clear_value x; on_goal 2 => subst x))
    | with_reducible assumption | with_reducible rfl | with_reducible exact (fun h => h) | with_reducible apply firstValid_kept
    | with_reducible apply causeFound_kept | with_reducible apply takeMsgs_kept | split | (rename State => x; subst x)
    | with_reducible apply flex_kept | with_reducible exact PortsKept.refl _
    | (simp only [List.length_modify, List.length_map, List.length_set, lmod]; done))

theorem decideOn_kept {σ τ : State} (hw : Kept σ τ) (c : CopyWait) : Kept σ (decideOn c τ) := by
  unfold decideOn
  repeat' (first
    | (extract_lets +onlyGivenNames x; try (refine (fun hx : Kept σ x => ?_) ?_; on_goal 1 => clear_value x; on_goal 2 => subst x))
    | with_reducible assumption | with_reducible rfl | with_reducible exact (fun h => h) | with_reducible apply patternFrame_kept
    | with_reducible apply inaugFrame_kept | split | (rename State => x; subst x) | with_reducible apply flex_kept
    | with_reducible exact PortsKept.refl _)

theorem tryDecide_kept {σ τ : State} (hw : Kept σ τ) (h : FrameHdr) : Kept σ (tryDecide h τ) := by
  unfold tryDecide
  repeat' (first
    | (extract_lets +onlyGivenNames x; try (refine (fun hx : Kept σ x => ?_) ?_; on_goal 1 => clear_value x; on_goal 2 => subst x))
    | with_reducible assumption | with_reducible rfl | with_reducible exact (fun h => h) | with_reducible apply foldl_kept | intro _ _ _
    | with_reducible apply decideOn_kept | split | (rename State => x; subst x) | with_reducible apply flex_kept
    | with_reducible exact PortsKept.refl _)

theorem takeCopy_kept {σ τ : State} (hw : Kept σ τ) (c : CopyWait) (odd : Bool) : Kept σ (takeCopy c odd τ) := by
  unfold takeCopy
  repeat' (first
    | (extract_lets +onlyGivenNames x; try (refine (fun hx : Kept σ x => ?_) ?_; on_goal 1 => clear_value x; on_goal 2 => subst x))
    | with_reducible assumption | with_reducible rfl | with_reducible exact (fun h => h) | with_reducible apply unknownType_kept
    | with_reducible apply tryDecide_kept | split | (rename State => x; subst x) | with_reducible apply flex_kept
    | with_reducible exact PortsKept.refl _)

theorem badCopy_kept {σ τ : State} (hw : Kept σ τ) (l : LaneId) (h : FrameHdr) : Kept σ (badCopy l h τ) := by
  unfold badCopy
  repeat' (first
    | (extract_lets +onlyGivenNames x; try (refine (fun hx : Kept σ x => ?_) ?_; on_goal 1 => clear_value x; on_goal 2 => subst x))
    | with_reducible assumption | with_reducible rfl | with_reducible exact (fun h => h) | with_reducible apply tryDecide_kept | split
    | (rename State => x; subst x) | with_reducible apply flex_kept | with_reducible exact PortsKept.refl _)

theorem oldCopies_kept {σ τ : State} (hw : Kept σ τ)  : Kept σ (oldCopies τ) := by
  unfold oldCopies
  repeat' (first
    | (extract_lets +onlyGivenNames x; try (refine (fun hx : Kept σ x => ?_) ?_; on_goal 1 => clear_value x; on_goal 2 => subst x))
    | with_reducible assumption | with_reducible rfl | with_reducible exact (fun h => h) | (rename State => x; subst x)
    | with_reducible apply flex_kept | with_reducible exact PortsKept.refl _)

theorem takeRanging_kept {σ τ : State} (hw : Kept σ τ) (l : LaneId) (sd : Side) (f : Frame) (stamp : Nat) : Kept σ (takeRanging l sd f stamp τ) := by
  unfold takeRanging
  repeat' (first
    | (extract_lets +onlyGivenNames x; try (refine (fun hx : Kept σ x => ?_) ?_; on_goal 1 => clear_value x; on_goal 2 => subst x))
    | with_reducible assumption | with_reducible rfl | with_reducible exact (fun h => h)
    | (intro _ hu; with_reducible refine execDisc_kept ?_ _ _ _ _ hu) | with_reducible apply takeRange_kept | with_reducible apply after_kept
    | with_reducible apply takeMsgs_kept | split | (rename State => x; subst x) | with_reducible apply flex_kept
    | with_reducible exact PortsKept.refl _)

theorem badRanging_kept {σ τ : State} (hw : Kept σ τ) (l : LaneId) (sd : Side) : Kept σ (badRanging l sd τ) := by
  unfold badRanging
  repeat' (first
    | (extract_lets +onlyGivenNames x; try (refine (fun hx : Kept σ x => ?_) ?_; on_goal 1 => clear_value x; on_goal 2 => subst x))
    | with_reducible assumption | with_reducible rfl | with_reducible exact (fun h => h) | with_reducible apply modSide_kept | split
    | (rename State => x; subst x) | with_reducible apply flex_kept | with_reducible exact PortsKept.refl _)

theorem takeFrame_kept {σ τ : State} (hw : Kept σ τ) (l : LaneId) (sd : Side) (f : Frame) (odd : Bool) (len : Nat) :
    Kept σ (takeFrame l sd f odd len τ) := by
  unfold takeFrame
  repeat' (first
    | (extract_lets +onlyGivenNames x; try (refine (fun hx : Kept σ x => ?_) ?_; on_goal 1 => clear_value x; on_goal 2 => subst x))
    | with_reducible assumption | with_reducible rfl | with_reducible exact (fun h => h) | with_reducible apply laneCount_kept
    | with_reducible apply unknownType_kept | with_reducible apply sequence_kept | with_reducible apply takeCopy_kept
    | with_reducible apply takeRanging_kept | split | (rename State => x; subst x) | with_reducible apply flex_kept
    | with_reducible exact PortsKept.refl _)

theorem badFrame_kept {σ τ : State} (hw : Kept σ τ) (l : LaneId) (sd : Side) (h : FrameHdr) : Kept σ (badFrame l sd h τ) := by
  unfold badFrame
  repeat' (first
    | (extract_lets +onlyGivenNames x; try (refine (fun hx : Kept σ x => ?_) ?_; on_goal 1 => clear_value x; on_goal 2 => subst x))
    | with_reducible assumption | with_reducible rfl | with_reducible exact (fun h => h) | with_reducible apply badCopy_kept
    | with_reducible apply badRanging_kept | split | (rename State => x; subst x) | with_reducible apply flex_kept
    | with_reducible exact PortsKept.refl _)

theorem receive_kept {σ τ : State} (hw : Kept σ τ) (f : RawFrame) : Kept σ (receive f τ) := by
  unfold receive
  repeat' (first
    | (extract_lets +onlyGivenNames x; try (refine (fun hx : Kept σ x => ?_) ?_; on_goal 1 => clear_value x; on_goal 2 => subst x))
    | with_reducible assumption | with_reducible apply laneCount_kept | with_reducible apply lanePerf_kept | with_reducible apply takeFrame_kept
    | with_reducible apply badFrame_kept | split | (rename State => x; subst x))

theorem stomped_kept {σ τ : State} (hw : Kept σ τ) (l : LaneId) (o : Side) (ok : Bool) : Kept σ (stomped l o ok τ) := by
  unfold stomped
  repeat' (first
    | (extract_lets +onlyGivenNames x; try (refine (fun hx : Kept σ x => ?_) ?_; on_goal 1 => clear_value x; on_goal 2 => subst x))
    | with_reducible assumption | with_reducible rfl | with_reducible exact (fun h => h) | with_reducible apply raiseLane_kept
    | with_reducible apply laneCount_kept | split | (rename State => x; subst x) | with_reducible apply flex_kept
    | with_reducible exact PortsKept.refl _ | (simp only [List.length_modify, List.length_map, List.length_set, lmod]; done))

theorem sendRepeated_kept {σ τ : State} (hw : Kept σ τ) (l : LaneId) (o : Side) (bytes : List Byte) (ok : Bool) : Kept σ (sendRepeated l o bytes ok τ) := by
  unfold sendRepeated
  repeat' (first
    | (extract_lets +onlyGivenNames x; try (refine (fun hx : Kept σ x => ?_) ?_; on_goal 1 => clear_value x; on_goal 2 => subst x))
    | with_reducible assumption | with_reducible rfl | with_reducible exact (fun h => h) | with_reducible apply modSide_kept
    | with_reducible apply stomped_kept | with_reducible apply lanePerf_kept | split | (rename State => x; subst x) | with_reducible apply flex_kept
    | with_reducible exact PortsKept.refl _ | (simp only [List.length_modify, List.length_map, List.length_set, lmod]; done))

theorem passOn_kept {σ τ : State} (hw : Kept σ τ) (f : RawFrame) (pattern : Bool) (send : State → State) (hsend : ∀ u, Kept σ u → Kept σ (send u)) : Kept σ (passOn f pattern send τ) := by
  unfold passOn
  repeat' (first
    | (extract_lets +onlyGivenNames x; try (refine (fun hx : Kept σ x => ?_) ?_; on_goal 1 => clear_value x; on_goal 2 => subst x))
    | with_reducible assumption | with_reducible rfl | with_reducible exact (fun h => h) | apply hsend | with_reducible apply raiseLane_kept
    | with_reducible apply laneCount_kept | with_reducible apply modSide_kept | split | (rename State => x; subst x) | with_reducible apply flex_kept
    | with_reducible exact PortsKept.refl _ | (simp only [List.length_modify, List.length_map, List.length_set, lmod]; done))

theorem repeatAdezo_kept {σ τ : State} (hw : Kept σ τ) (f : RawFrame) : Kept σ (repeatAdezo f τ) := by
  unfold repeatAdezo
  repeat' (first
    | (extract_lets +onlyGivenNames x; try (refine (fun hx : Kept σ x => ?_) ?_; on_goal 1 => clear_value x; on_goal 2 => subst x))
    | with_reducible assumption | with_reducible rfl | with_reducible exact (fun h => h) | intro _ _ _ _ _ | intro _ _ _ _ | intro _ _ _ | intro _ _
    | with_reducible apply passOn_kept | with_reducible apply sendRepeated_kept | split | (rename State => x; subst x)
    | with_reducible apply flex_kept | with_reducible exact PortsKept.refl _
    | (simp only [List.length_modify, List.length_map, List.length_set, lmod]; done))

theorem sendForeign_kept {σ τ : State} (hw : Kept σ τ) (l : LaneId) (o : Side) (bytes : List Byte) (ok : Bool) (t : Nat) : Kept σ (sendForeign l o bytes ok t τ) := by
  unfold sendForeign
  repeat' (first
    | (extract_lets +onlyGivenNames x; try (refine (fun hx : Kept σ x => ?_) ?_; on_goal 1 => clear_value x; on_goal 2 => subst x))
    | with_reducible assumption | with_reducible rfl | with_reducible exact (fun h => h) | with_reducible apply modSide_kept
    | with_reducible apply stomped_kept | with_reducible apply laneCount_kept | split | (rename State => x; subst x) | with_reducible apply flex_kept
    | with_reducible exact PortsKept.refl _ | (simp only [List.length_modify, List.length_map, List.length_set, lmod]; done))

theorem dropForeign_kept {σ τ : State} (hw : Kept σ τ) (l : LaneId) : Kept σ (dropForeign l τ) := by
  unfold dropForeign
  repeat' (first | with_reducible assumption | with_reducible apply laneCount_kept)

theorem repeatForeign_kept {σ τ : State} (hw : Kept σ τ) (f : RawFrame) : Kept σ (repeatForeign f τ) := by
  unfold repeatForeign
  repeat' (first
    | (extract_lets +onlyGivenNames x; try (refine (fun hx : Kept σ x => ?_) ?_; on_goal 1 => clear_value x; on_goal 2 => subst x))
    | with_reducible assumption | with_reducible rfl | with_reducible exact (fun h => h) | intro _ _ _ _ _ | intro _ _ _ _ | intro _ _ _ | intro _ _
    | with_reducible apply passOn_kept | with_reducible apply sendForeign_kept | with_reducible apply dropForeign_kept | split
    | (rename State => x; subst x) | with_reducible apply flex_kept | with_reducible exact PortsKept.refl _
    | (simp only [List.length_modify, List.length_map, List.length_set, lmod]; done))

theorem heldOut_kept {σ τ : State} (hw : Kept σ τ) (l : LaneId) (sd : Side) : Kept σ (heldOut l sd τ) :=
  lanePerf_kept (laneCount_kept (modSide_kept hw _ _ _) _ _ _) _ _ _

theorem sendHeld_kept {σ τ : State} (hw : Kept σ τ) (l : LaneId) (sd : Side) (bytes : List Byte) (ok : Bool) : Kept σ (sendHeld l sd bytes ok τ) := by
  unfold sendHeld
  split
  · exact heldOut_kept (sendRepeated_kept hw _ _ _ _) _ _
  · split
    · exact heldOut_kept (sendForeign_kept hw _ _ _ _ _) _ _
    · exact dropForeign_kept hw _

theorem release_kept {σ τ : State} (hw : Kept σ τ) (l : LaneId) (sd : Side) (fu : Nat) : Kept σ (release l sd fu τ) := by
  induction fu generalizing τ l sd with
  | zero => unfold release; first | exact hw | exact flex_kept hw _ _ _ _ _ _ _ _ _ _ _ _ _ _ _ _ _ _ _ rfl rfl id id id rfl (PortsKept.refl _)
  | succ n ih =>
    unfold release
    repeat' (first
    | (extract_lets +onlyGivenNames x; try (refine (fun hx : Kept σ x => ?_) ?_; on_goal 1 => clear_value x; on_goal 2 => subst x))
    | with_reducible assumption | with_reducible rfl | with_reducible exact (fun h => h) | with_reducible apply ih
    | with_reducible apply modSide_kept | with_reducible apply sendForeign_kept | split | (rename State => x; subst x)
    | with_reducible apply flex_kept | with_reducible exact PortsKept.refl _)

/-! ### Picot -/

theorem cancelNow_kept {σ τ : State} (hw : Kept σ τ) (n : Nat) (b : Nat) (h : Word) : Kept σ (cancelNow n b h τ) := by
  unfold cancelNow
  repeat' (first
    | (extract_lets +onlyGivenNames x; try (refine (fun hx : Kept σ x => ?_) ?_; on_goal 1 => clear_value x; on_goal 2 => subst x))
    | with_reducible assumption | with_reducible rfl | with_reducible exact (fun h => h) | with_reducible apply jobDone_kept
    | with_reducible apply modCh_kept | split | (rename State => x; subst x) | with_reducible apply flex_kept | with_reducible exact PortsKept.refl _
    | (simp only [List.length_modify, List.length_map, List.length_set, lmod]; done))

theorem armNow_kept {σ τ : State} (hw : Kept σ τ) (n : Nat) (a : Nat × PicotPar × Word × Nat) (h : Word) : Kept σ (armNow n a h τ) := by
  unfold armNow
  repeat' (first
    | (extract_lets +onlyGivenNames x; try (refine (fun hx : Kept σ x => ?_) ?_; on_goal 1 => clear_value x; on_goal 2 => subst x))
    | with_reducible assumption | with_reducible rfl | with_reducible exact (fun h => h) | with_reducible apply modCh_kept
    | with_reducible apply jobDone_kept | split | (rename State => x; subst x) | with_reducible apply flex_kept
    | with_reducible exact PortsKept.refl _ | (simp only [List.length_modify, List.length_map, List.length_set, lmod]; done))

theorem picChannel_kept {σ τ : State} (hw : Kept σ τ) (row : Bool) (h : Word) (n : Nat) : Kept σ (picChannel row h n τ) := by
  unfold picChannel
  repeat' (first
    | (extract_lets +onlyGivenNames x; try (refine (fun hx : Kept σ x => ?_) ?_; on_goal 1 => clear_value x; on_goal 2 => subst x))
    | with_reducible assumption | with_reducible rfl | with_reducible exact (fun h => h) | with_reducible apply modCh_kept
    | with_reducible apply cancelNow_kept | with_reducible apply armNow_kept | with_reducible apply raise_kept | split | (rename State => x; subst x)
    | with_reducible apply flex_kept | with_reducible exact PortsKept.refl _
    | (simp only [List.length_modify, List.length_map, List.length_set, lmod]; done))

theorem picBoundary_kept {σ τ : State} (hw : Kept σ τ) (row : Bool) (h : Word) : Kept σ (picBoundary row h τ) := by
  unfold picBoundary
  repeat' (first | with_reducible assumption | with_reducible apply each_kept | intro _ _ _ | with_reducible apply picChannel_kept)

theorem capture_kept {σ τ : State} (hw : Kept σ τ) (n : Nat) (rising ord : Bool) : Kept σ (capture n rising ord τ) := by
  unfold capture
  repeat' (first
    | (extract_lets +onlyGivenNames x; try (refine (fun hx : Kept σ x => ?_) ?_; on_goal 1 => clear_value x; on_goal 2 => subst x))
    | with_reducible assumption | with_reducible rfl | with_reducible exact (fun h => h) | with_reducible apply raise_kept
    | with_reducible apply raiseTo_kept | with_reducible apply raiseNoRec_kept | with_reducible apply modCh_kept | split
    | (rename State => x; subst x) | with_reducible apply flex_kept | with_reducible exact PortsKept.refl _)

theorem capPop_kept {σ τ : State} (hw : Kept σ τ) (ch : Nat) : Kept σ (capPop ch τ) := by
  unfold capPop
  repeat' (first
    | (extract_lets +onlyGivenNames x; try (refine (fun hx : Kept σ x => ?_) ?_; on_goal 1 => clear_value x; on_goal 2 => subst x))
    | with_reducible assumption | with_reducible rfl | with_reducible exact (fun h => h) | with_reducible apply modCh_kept
    | (rename State => x; subst x) | with_reducible apply flex_kept | with_reducible exact PortsKept.refl _)

/-! ### Stores -/

theorem modWq_kept {σ τ : State} (hw : Kept σ τ) (i : Nat) (f : WayQ → WayQ) : Kept σ (modWq i f τ) := by
  unfold modWq
  repeat' (first
    | (extract_lets +onlyGivenNames x; try (refine (fun hx : Kept σ x => ?_) ?_; on_goal 1 => clear_value x; on_goal 2 => subst x))
    | with_reducible assumption | with_reducible rfl | with_reducible exact (fun h => h) | (rename State => x; subst x)
    | with_reducible apply flex_kept | with_reducible exact PortsKept.refl _)

theorem markPin_kept {σ τ : State} (hw : Kept σ τ) (p : Pin) (d : Bool) : Kept σ (markPin p d τ) := by
  unfold markPin
  repeat' (first
    | (extract_lets +onlyGivenNames x; try (refine (fun hx : Kept σ x => ?_) ?_; on_goal 1 => clear_value x; on_goal 2 => subst x))
    | with_reducible assumption | with_reducible rfl | with_reducible exact (fun h => h) | split | (rename State => x; subst x)
    | with_reducible apply flex_kept | with_reducible exact PortsKept.refl _)

theorem demoteSet_kept {σ τ : State} (hw : Kept σ τ) (set : Nat) (fu : Nat) : Kept σ (demoteSet set fu τ) := by
  induction fu generalizing τ set with
  | zero => unfold demoteSet; first | exact hw | exact flex_kept hw _ _ _ _ _ _ _ _ _ _ _ _ _ _ _ _ _ _ _ rfl rfl id id id rfl (PortsKept.refl _)
  | succ n ih =>
    unfold demoteSet
    repeat' (first
    | (extract_lets +onlyGivenNames x; try (refine (fun hx : Kept σ x => ?_) ?_; on_goal 1 => clear_value x; on_goal 2 => subst x))
    | with_reducible assumption | with_reducible rfl | with_reducible exact (fun h => h) | with_reducible apply ih
    | with_reducible apply count_kept | with_reducible apply raise_kept | with_reducible apply markPin_kept | split
    | (rename State => x; subst x) | with_reducible apply flex_kept | with_reducible exact PortsKept.refl _)

theorem promoteSet_kept {σ τ : State} (hw : Kept σ τ) (set : Nat) (fu : Nat) : Kept σ (promoteSet set fu τ) := by
  induction fu generalizing τ set with
  | zero => unfold promoteSet; first | exact hw | exact flex_kept hw _ _ _ _ _ _ _ _ _ _ _ _ _ _ _ _ _ _ _ rfl rfl id id id rfl (PortsKept.refl _)
  | succ n ih =>
    unfold promoteSet
    repeat' (first
    | (extract_lets +onlyGivenNames x; try (refine (fun hx : Kept σ x => ?_) ?_; on_goal 1 => clear_value x; on_goal 2 => subst x))
    | with_reducible assumption | with_reducible rfl | with_reducible exact (fun h => h) | with_reducible apply ih
    | with_reducible apply raise_kept | with_reducible apply markPin_kept | split | (rename State => x; subst x) | with_reducible apply flex_kept
    | with_reducible exact PortsKept.refl _)

theorem refitPins_kept {σ τ : State} (hw : Kept σ τ) (q : Nat) (down : Bool) : Kept σ (refitPins q down τ) := by
  unfold refitPins
  repeat' (first
    | with_reducible assumption | with_reducible apply each_kept | intro _ _ _ | with_reducible apply demoteSet_kept
    | with_reducible apply promoteSet_kept | split)

theorem enterDrain_kept {σ τ : State} (hw : Kept σ τ) (i : Nat) (auto : Bool) : Kept σ (enterDrain i auto τ) := by
  unfold enterDrain
  repeat' (first
    | (extract_lets +onlyGivenNames x; try (refine (fun hx : Kept σ x => ?_) ?_; on_goal 1 => clear_value x; on_goal 2 => subst x))
    | with_reducible assumption | with_reducible rfl | with_reducible exact (fun h => h) | with_reducible apply each_kept | intro _ _ _
    | with_reducible apply drainEntry_kept | with_reducible apply modWq_kept | with_reducible apply refitPins_kept | (rename State => x; subst x)
    | with_reducible apply flex_kept | with_reducible exact PortsKept.refl _)

theorem drainWay_kept {σ τ : State} (hw : Kept σ τ) (cause : ClampBy) (q way : Nat) : Kept σ (drainWay cause q way τ) := by
  unfold drainWay
  repeat' (first
    | (extract_lets +onlyGivenNames x; try (refine (fun hx : Kept σ x => ?_) ?_; on_goal 1 => clear_value x; on_goal 2 => subst x))
    | with_reducible assumption | with_reducible apply logClamps_kept | with_reducible apply enterDrain_kept | split
    | (rename State => x; subst x))

theorem onWay_kept {σ τ : State} (hw : Kept σ τ) (q way : Nat) : Kept σ (onWay q way τ) := by
  unfold onWay
  repeat' (first
    | (extract_lets +onlyGivenNames x; try (refine (fun hx : Kept σ x => ?_) ?_; on_goal 1 => clear_value x; on_goal 2 => subst x))
    | with_reducible assumption | with_reducible rfl | with_reducible exact (fun h => h) | with_reducible apply modWq_kept
    | with_reducible apply refitPins_kept | split | (rename State => x; subst x) | with_reducible apply flex_kept
    | with_reducible exact PortsKept.refl _)

theorem wayCtlWrite_kept {σ τ : State} (hw : Kept σ τ) (cause : ClampBy) (q v : Nat) : Kept σ (wayCtlWrite cause q v τ) := by
  unfold wayCtlWrite
  repeat' (first
    | (extract_lets +onlyGivenNames x; try (refine (fun hx : Kept σ x => ?_) ?_; on_goal 1 => clear_value x; on_goal 2 => subst x))
    | with_reducible assumption | with_reducible apply each_kept | intro _ _ _ | with_reducible apply logClamps_kept
    | with_reducible apply drainWay_kept | with_reducible apply onWay_kept | split | (rename State => x; subst x))

theorem wayOff_kept {σ τ : State} (hw : Kept σ τ) (q way : Nat) : Kept σ (wayOff q way τ) := by
  unfold wayOff
  refine instant_kept hw _ fun σ τ hw => ?_
  repeat' (first
    | (extract_lets +onlyGivenNames x; try (refine (fun hx : Kept σ x => ?_) ?_; on_goal 1 => clear_value x; on_goal 2 => subst x))
    | with_reducible assumption | with_reducible rfl | with_reducible exact (fun h => h) | with_reducible apply each_kept | intro _ _ _
    | with_reducible apply count_kept | with_reducible apply raise_kept | with_reducible apply drainEntry_kept | with_reducible apply modWq_kept
    | split | (rename State => x; subst x) | with_reducible apply flex_kept | with_reducible exact PortsKept.refl _)

theorem wqError_kept {σ τ : State} (hw : Kept σ τ) (i : Nat) : Kept σ (wqError i τ) := by
  unfold wqError
  repeat' (first
    | (extract_lets +onlyGivenNames x; try (refine (fun hx : Kept σ x => ?_) ?_; on_goal 1 => clear_value x; on_goal 2 => subst x))
    | with_reducible assumption | with_reducible rfl | with_reducible exact (fun h => h) | with_reducible apply raise_kept
    | with_reducible apply modWq_kept | with_reducible apply enterDrain_kept | split | (rename State => x; subst x)
    | with_reducible apply flex_kept | with_reducible exact PortsKept.refl _)

theorem lastErr_kept {σ τ : State} (hw : Kept σ τ) (k la kind : Nat) : Kept σ (lastErr k la kind τ) := by
  unfold lastErr
  repeat' (first
    | (extract_lets +onlyGivenNames x; try (refine (fun hx : Kept σ x => ?_) ?_; on_goal 1 => clear_value x; on_goal 2 => subst x))
    | with_reducible assumption | with_reducible rfl | with_reducible exact (fun h => h) | (rename State => x; subst x)
    | with_reducible apply flex_kept | with_reducible exact PortsKept.refl _)

theorem refetch_kept {σ τ : State} (hw : Kept σ τ) (k : Nat) (c : Copy) : Kept σ (refetch k c τ) := by
  unfold refetch
  repeat' (first
    | (extract_lets +onlyGivenNames x; try (refine (fun hx : Kept σ x => ?_) ?_; on_goal 1 => clear_value x; on_goal 2 => subst x))
    | with_reducible assumption | with_reducible rfl | with_reducible exact (fun h => h) | with_reducible apply setCopy_kept
    | with_reducible apply dropWay_kept | with_reducible apply sendOwn_kept | split | (rename State => x; subst x)
    | with_reducible apply flex_kept | with_reducible exact PortsKept.refl _)

theorem copyLost_kept {σ τ : State} (hw : Kept σ τ) (k : Nat) (c : Copy) : Kept σ (copyLost k c τ) := by
  unfold copyLost
  repeat' (first
    | (extract_lets +onlyGivenNames x; try (refine (fun hx : Kept σ x => ?_) ?_; on_goal 1 => clear_value x; on_goal 2 => subst x))
    | with_reducible assumption | with_reducible rfl | with_reducible exact (fun h => h) | with_reducible apply perf_kept
    | with_reducible apply raise_kept | with_reducible apply setCopy_kept | with_reducible apply dropWay_kept | with_reducible apply sendOwn_kept
    | with_reducible apply evictClean_kept | with_reducible apply refetch_kept | split | (rename State => x; subst x)
    | with_reducible apply flex_kept | with_reducible exact PortsKept.refl _)

theorem ccFound_kept {σ τ : State} (hw : Kept σ τ) (k : Nat) (r : ScrubFind) : Kept σ (ccFound k r τ) := by
  unfold ccFound
  repeat' (first
    | (extract_lets +onlyGivenNames x; try (refine (fun hx : Kept σ x => ?_) ?_; on_goal 1 => clear_value x; on_goal 2 => subst x))
    | with_reducible assumption | with_reducible rfl | with_reducible exact (fun h => h) | with_reducible apply count_kept
    | with_reducible apply perf_kept | with_reducible apply wqError_kept | with_reducible apply lastErr_kept | with_reducible apply copyLost_kept
    | split | (rename State => x; subst x) | with_reducible apply flex_kept | with_reducible exact PortsKept.refl _)

theorem homeLost_kept {σ τ : State} (hw : Kept σ τ) (la : Nat) (noMeta : Bool) : Kept σ (homeLost la noMeta τ) := by
  unfold homeLost
  repeat' (first
    | (extract_lets +onlyGivenNames x; try (refine (fun hx : Kept σ x => ?_) ?_; on_goal 1 => clear_value x; on_goal 2 => subst x))
    | with_reducible assumption | with_reducible rfl | with_reducible exact (fun h => h) | with_reducible apply count_kept
    | with_reducible apply raise_kept | with_reducible apply setLine_kept | with_reducible apply ownProbe_kept | split
    | (rename State => x; subst x) | with_reducible apply flex_kept | with_reducible exact PortsKept.refl _)

theorem hsFound_kept {σ τ : State} (hw : Kept σ τ) (x : Nat) (r : ScrubFind) : Kept σ (hsFound x r τ) := by
  unfold hsFound
  repeat' (first
    | (extract_lets +onlyGivenNames x; try (refine (fun hx : Kept σ x => ?_) ?_; on_goal 1 => clear_value x; on_goal 2 => subst x))
    | with_reducible assumption | with_reducible rfl | with_reducible exact (fun h => h) | with_reducible apply count_kept
    | with_reducible apply perf_kept | with_reducible apply homeLost_kept | split | (rename State => x; subst x) | with_reducible apply flex_kept
    | with_reducible exact PortsKept.refl _)

theorem recoverLine_kept {σ τ : State} (hw : Kept σ τ) (la : Nat) : Kept σ (recoverLine la τ) := by
  unfold recoverLine
  repeat' (first
    | (extract_lets +onlyGivenNames x; try (refine (fun hx : Kept σ x => ?_) ?_; on_goal 1 => clear_value x; on_goal 2 => subst x))
    | with_reducible assumption | with_reducible rfl | with_reducible exact (fun h => h) | with_reducible apply ownProbe_kept
    | with_reducible apply probesIn_kept | split | (rename State => x; subst x) | with_reducible apply flex_kept
    | with_reducible exact PortsKept.refl _)

theorem filtFound_kept {σ τ : State} (hw : Kept σ τ) (p : Nat) (r : ScrubFind) : Kept σ (filtFound p r τ) := by
  unfold filtFound
  repeat' (first
    | (extract_lets +onlyGivenNames x; try (refine (fun hx : Kept σ x => ?_) ?_; on_goal 1 => clear_value x; on_goal 2 => subst x))
    | with_reducible assumption | with_reducible rfl | with_reducible exact (fun h => h) | with_reducible apply each_kept | intro _ _ _
    | with_reducible apply count_kept | with_reducible apply perf_kept | with_reducible apply raise_kept | with_reducible apply recoverLine_kept
    | split | (rename State => x; subst x) | with_reducible apply flex_kept | with_reducible exact PortsKept.refl _)

theorem scrubOne_kept {σ τ : State} (hw : Kept σ τ) (st : ScrubStore) (r : ScrubFind) : Kept σ (scrubOne st r τ) := by
  unfold scrubOne
  refine instant_kept hw _ fun σ τ hw => ?_
  repeat' (first
    | (extract_lets +onlyGivenNames x; try (refine (fun hx : Kept σ x => ?_) ?_; on_goal 1 => clear_value x; on_goal 2 => subst x))
    | with_reducible assumption | with_reducible rfl | with_reducible exact (fun h => h) | with_reducible apply perf_kept
    | with_reducible apply ccFound_kept | with_reducible apply hsFound_kept | with_reducible apply filtFound_kept | split
    | (rename State => x; subst x) | with_reducible apply flex_kept | with_reducible exact PortsKept.refl _)

end Sys2Proof.Machine
end

