-- ==== Sys2Proof/Laws/KeptNode.lean ====
section
/-! SUPPORT. The invariant of the node is kept: one lemma for each operation of lanes, modes, stitches, frames, detectors, rows, register accesses, health, SPI and START. -/

set_option linter.all false

namespace Sys2Proof.Machine

/-! ### Modes -/

theorem parkAll_kept {σ τ : State} (hw : Kept σ τ)  : Kept σ (parkAll τ) := by
  unfold parkAll
  repeat' (first
    | (extract_lets +onlyGivenNames x; try (refine (fun hx : Kept σ x => ?_) ?_; on_goal 1 => clear_value x; on_goal 2 => subst x))
    | with_reducible assumption | with_reducible rfl | with_reducible exact (fun h => h) | split | (rename State => x; subst x)
    | with_reducible apply flex_kept | with_reducible exact PortsKept.refl _
    | (simp only [List.length_modify, List.length_map, List.length_set, lmod]; done))

theorem picOff_kept {σ τ : State} (hw : Kept σ τ)  : Kept σ (picOff τ) := by
  unfold picOff
  repeat' (first
    | (extract_lets +onlyGivenNames x; try (refine (fun hx : Kept σ x => ?_) ?_; on_goal 1 => clear_value x; on_goal 2 => subst x))
    | with_reducible assumption | with_reducible rfl | with_reducible exact (fun h => h) | (rename State => x; subst x)
    | with_reducible apply flex_kept | with_reducible exact PortsKept.refl _)

theorem endHalt_kept {σ τ : State} (hw : Kept σ τ)  : Kept σ (endHalt τ) := by
  unfold endHalt
  repeat' (first
    | (extract_lets +onlyGivenNames x; try (refine (fun hx : Kept σ x => ?_) ?_; on_goal 1 => clear_value x; on_goal 2 => subst x))
    | with_reducible assumption | with_reducible rfl | with_reducible exact (fun h => h) | with_reducible apply raise_kept | split
    | (rename State => x; subst x) | with_reducible apply flex_kept | with_reducible exact PortsKept.refl _)

theorem abortBob_kept {σ τ : State} (hw : Kept σ τ) (e : Nat × Bobbin) : Kept σ (abortBob τ e) := by
  unfold abortBob
  repeat' (first
    | with_reducible assumption | with_reducible apply cutOff_kept | with_reducible apply detachPicot_kept | with_reducible apply letGo_kept
    | split)

theorem quiesce_kept {σ τ : State} (hw : Kept σ τ)  : Kept σ (quiesce τ) := by
  unfold quiesce
  repeat' (first
    | (extract_lets +onlyGivenNames x; try (refine (fun hx : Kept σ x => ?_) ?_; on_goal 1 => clear_value x; on_goal 2 => subst x))
    | with_reducible assumption | with_reducible rfl | with_reducible exact (fun h => h) | with_reducible apply each_kept | intro _ _ _
    | with_reducible apply abortBob_kept | with_reducible apply setTrks_kept | with_reducible apply setMemb_kept
    | with_reducible apply leaveTrain_kept | with_reducible apply endHalt_kept | with_reducible apply picOff_kept | with_reducible apply zxSource_kept
    | with_reducible apply parkAll_kept | with_reducible apply stopPort_kept | split | (rename State => x; subst x) | with_reducible apply flex_kept
    | with_reducible exact PortsKept.refl _ | (simp only [List.length_modify, List.length_map, List.length_set, lmod]; done) | dsimp only)

theorem enterSafe_kept {σ τ : State} (hw : Kept σ τ) (d : Nat) : Kept σ (enterSafe d τ) := by
  unfold enterSafe
  repeat' (first
    | (extract_lets +onlyGivenNames x; try (refine (fun hx : Kept σ x => ?_) ?_; on_goal 1 => clear_value x; on_goal 2 => subst x))
    | with_reducible assumption | with_reducible rfl | with_reducible exact (fun h => h) | with_reducible apply setDev_kept
    | with_reducible apply bypassAll_kept | with_reducible apply quiesce_kept | split | (rename State => x; subst x)
    | with_reducible apply flex_kept | with_reducible exact PortsKept.refl _)

theorem dropKeep_kept {σ τ : State} (hw : Kept σ τ)  : Kept σ (dropKeep τ) := by
  unfold dropKeep
  repeat' (first
    | (extract_lets +onlyGivenNames x; try (refine (fun hx : Kept σ x => ?_) ?_; on_goal 1 => clear_value x; on_goal 2 => subst x))
    | with_reducible assumption | with_reducible rfl | with_reducible exact (fun h => h) | split | (rename State => x; subst x)
    | with_reducible apply flex_kept | with_reducible exact PortsKept.refl _)

theorem endInjections_kept {σ τ : State} (hw : Kept σ τ)  : Kept σ (endInjections τ) := by
  unfold endInjections
  repeat' (first
    | (extract_lets +onlyGivenNames x; try (refine (fun hx : Kept σ x => ?_) ?_; on_goal 1 => clear_value x; on_goal 2 => subst x))
    | with_reducible assumption | with_reducible rfl | with_reducible exact (fun h => h) | (rename State => x; subst x)
    | with_reducible apply flex_kept | with_reducible exact PortsKept.refl _)

theorem enterShutdown_kept {σ τ : State} (hw : Kept σ τ)  : Kept σ (enterShutdown τ) := by
  unfold enterShutdown
  refine instant_kept hw _ fun σ τ hw => ?_
  repeat' (first
    | (extract_lets +onlyGivenNames x; try (refine (fun hx : Kept σ x => ?_) ?_; on_goal 1 => clear_value x; on_goal 2 => subst x))
    | with_reducible assumption | with_reducible rfl | with_reducible exact (fun h => h) | with_reducible apply setDev_kept
    | with_reducible apply bypassAll_kept | with_reducible apply quiesce_kept | with_reducible apply dropKeep_kept
    | with_reducible apply endInjections_kept | split | (rename State => x; subst x) | with_reducible apply flex_kept
    | with_reducible exact PortsKept.refl _)

theorem enterAcquire_kept {σ τ : State} (hw : Kept σ τ)  : Kept σ (enterAcquire τ) := by
  unfold enterAcquire
  repeat' (first
    | with_reducible assumption | with_reducible apply setDev_kept | with_reducible apply timeForDev_kept | with_reducible apply bypassAll_kept
    | split)

theorem glbCtrlWrite_kept {σ τ : State} (hw : Kept σ τ) (cause : ClampBy) (v : Nat) : Kept σ (glbCtrlWrite cause v τ) := by
  unfold glbCtrlWrite
  refine instant_kept hw _ fun σ τ hw => ?_
  repeat' (first
    | (extract_lets +onlyGivenNames x; try (refine (fun hx : Kept σ x => ?_) ?_; on_goal 1 => clear_value x; on_goal 2 => subst x))
    | with_reducible assumption | with_reducible apply regPutChecked_kept | with_reducible apply enterAcquire_kept | split
    | (rename State => x; subst x))

theorem keepAfter_wf {s : State} (h : Memory.wf s.kee.mem = true) : Memory.wf (keepAfter s).mem = true := by
  unfold keepAfter
  extract_lets base kept
  split
  · dsimp only
    exact memPuts_wf h _ _
  · exact h

theorem resetState_kept {σ τ : State} (hw : Kept σ τ) (cause : Nat) (straps : BitVec 4) : Kept σ (resetState cause straps τ) :=
  hw.trans ⟨fun i => ⟨⟨keepAfter_wf i.mem.1, rfl, rfl, fun p hp => by
    have hp : p ∈ State.reset.can.ports := hp
    have key : ∀ p ∈ State.reset.can.ports, Memory.wf p.mem = true := by decide
    exact key p hp⟩, rfl, rfl, rfl, rfl⟩, fun _ => rfl, rfl⟩

theorem glbReset_kept {σ τ : State} (hw : Kept σ τ) (v : Nat) : Kept σ (glbReset v τ) := by
  unfold glbReset
  repeat' (first | with_reducible assumption | with_reducible apply resetState_kept | split)

theorem turnOff_kept {σ τ : State} (hw : Kept σ τ)  : Kept σ (turnOff τ) := by
  unfold turnOff
  repeat' (first
    | (extract_lets +onlyGivenNames x; try (refine (fun hx : Kept σ x => ?_) ?_; on_goal 1 => clear_value x; on_goal 2 => subst x))
    | with_reducible assumption | with_reducible rfl | with_reducible exact (fun h => h) | with_reducible apply resetState_kept
    | (rename State => x; subst x) | with_reducible apply flex_kept | with_reducible exact PortsKept.refl _)

/-! ### Detect -/

theorem detRecord_kept {σ τ : State} (hw : Kept σ τ) (d index value : Nat) : Kept σ (detRecord d index value τ) := by
  unfold detRecord
  repeat' (first
    | (extract_lets +onlyGivenNames x; try (refine (fun hx : Kept σ x => ?_) ?_; on_goal 1 => clear_value x; on_goal 2 => subst x))
    | with_reducible assumption | with_reducible rfl | with_reducible exact (fun h => h) | with_reducible apply count_kept
    | with_reducible apply raise_kept | (rename State => x; subst x) | with_reducible apply flex_kept | with_reducible exact PortsKept.refl _)

theorem injFired_kept {σ τ : State} (hw : Kept σ τ) (d : Nat) : Kept σ (injFired d τ) := by
  unfold injFired
  repeat' (first
    | (extract_lets +onlyGivenNames x; try (refine (fun hx : Kept σ x => ?_) ?_; on_goal 1 => clear_value x; on_goal 2 => subst x))
    | with_reducible assumption | with_reducible rfl | with_reducible exact (fun h => h) | with_reducible apply raise_kept | split
    | (rename State => x; subst x) | with_reducible apply flex_kept | with_reducible exact PortsKept.refl _)

theorem loseStream_kept {σ τ : State} (hw : Kept σ τ) (l : LaneId) (e : Nat × RxStream) : Kept σ (loseStream l τ e) := by
  unfold loseStream
  repeat' (first
    | (extract_lets +onlyGivenNames x; try (refine (fun hx : Kept σ x => ?_) ?_; on_goal 1 => clear_value x; on_goal 2 => subst x))
    | with_reducible assumption | with_reducible rfl | with_reducible exact (fun h => h) | with_reducible apply foldl_kept | intro _ _ _
    | with_reducible apply setStream_kept | with_reducible apply declareLost_kept | split | (rename State => x; subst x)
    | with_reducible apply flex_kept | with_reducible exact PortsKept.refl _)

theorem stompHeld_kept {σ τ : State} (hw : Kept σ τ) (l : LaneId) (sd : Side) : Kept σ (stompHeld l sd τ) := by
  unfold stompHeld
  repeat' (first
    | (extract_lets +onlyGivenNames x; try (refine (fun hx : Kept σ x => ?_) ?_; on_goal 1 => clear_value x; on_goal 2 => subst x))
    | with_reducible assumption | with_reducible rfl | with_reducible exact (fun h => h) | with_reducible apply modSide_kept
    | (rename State => x; subst x) | with_reducible apply flex_kept | with_reducible exact PortsKept.refl _)

theorem dropOwn_kept {σ τ : State} (hw : Kept σ τ) (l : LaneId) : Kept σ (dropOwn l τ) := by
  unfold dropOwn
  repeat' (first
    | (extract_lets +onlyGivenNames x; try (refine (fun hx : Kept σ x => ?_) ?_; on_goal 1 => clear_value x; on_goal 2 => subst x))
    | with_reducible assumption | with_reducible rfl | with_reducible exact (fun h => h) | with_reducible apply modSide_kept
    | with_reducible apply laneCount_kept | (rename State => x; subst x) | with_reducible apply flex_kept
    | with_reducible exact PortsKept.refl _)

theorem disarm_kept {σ τ : State} (hw : Kept σ τ) (ch : Nat) : Kept σ (disarm ch τ) := by
  unfold disarm
  repeat' (first
    | (extract_lets +onlyGivenNames x; try (refine (fun hx : Kept σ x => ?_) ?_; on_goal 1 => clear_value x; on_goal 2 => subst x))
    | with_reducible assumption | with_reducible rfl | with_reducible exact (fun h => h) | with_reducible apply modCh_kept | split
    | (rename State => x; subst x) | with_reducible apply flex_kept | with_reducible exact PortsKept.refl _)

theorem jobDataError_kept {σ τ : State} (hw : Kept σ τ) (t : Nat) : Kept σ (jobDataError t τ) := by
  unfold jobDataError
  repeat' (first
    | (extract_lets +onlyGivenNames x; try (refine (fun hx : Kept σ x => ?_) ?_; on_goal 1 => clear_value x; on_goal 2 => subst x))
    | with_reducible assumption | with_reducible rfl | with_reducible exact (fun h => h) | with_reducible apply cutOff_kept
    | with_reducible apply letGo_kept | split | (rename State => x; subst x) | with_reducible apply flex_kept
    | with_reducible exact PortsKept.refl _)

theorem ramError_kept {σ τ : State} (hw : Kept σ τ) (p : Nat) : Kept σ (ramError p τ) := by
  unfold ramError
  repeat' (first
    | (extract_lets +onlyGivenNames x; try (refine (fun hx : Kept σ x => ?_) ?_; on_goal 1 => clear_value x; on_goal 2 => subst x))
    | with_reducible assumption | with_reducible rfl | with_reducible exact (fun h => h) | with_reducible apply jobDataError_kept
    | split | (rename State => x; subst x) | with_reducible apply flex_kept | with_reducible exact PortsKept.refl _)

theorem detConf_kept {σ τ : State} (hw : Kept σ τ) (p : Nat) (stby now : Bool) : Kept σ (detConf p stby now τ) := by
  unfold detConf
  repeat' (first
    | (focus (intro c hm; (try extract_lets); (try dsimp only); with_reducible (repeat' first | exact hm | apply memPuts_wf | apply memPut_wf | split); done))
    | (focus (intro hm; (try extract_lets); (try dsimp only); with_reducible (repeat' first | exact hm | apply memPuts_wf | apply memPut_wf | split); done)) | (extract_lets +onlyGivenNames x; try (refine (fun hx : Kept σ x => ?_) ?_; on_goal 1 => clear_value x; on_goal 2 => subst x))
    | with_reducible assumption | with_reducible rfl | with_reducible exact (fun h => h) | with_reducible apply modPort_kept
    | with_reducible apply regSet_kept | with_reducible apply enterConf_kept | with_reducible apply stopPort_kept | split
    | (rename State => x; subst x) | with_reducible apply flex_kept | with_reducible exact PortsKept.refl _)

theorem dropRoute_kept {σ τ : State} (hw : Kept σ τ) (ev : Nat) : Kept σ (dropRoute ev τ) := by
  unfold dropRoute
  repeat' (first
    | (extract_lets +onlyGivenNames x; try (refine (fun hx : Kept σ x => ?_) ?_; on_goal 1 => clear_value x; on_goal 2 => subst x))
    | with_reducible assumption | with_reducible rfl | with_reducible exact (fun h => h) | with_reducible apply setStaged_kept
    | with_reducible apply regSet_kept | split | (rename State => x; subst x) | with_reducible apply flex_kept | with_reducible exact PortsKept.refl _
    | (simp only [List.length_modify, List.length_map, List.length_set, lmod]; done))

theorem contain_kept {σ τ : State} (hw : Kept σ τ) (d index : Nat) : Kept σ (contain d index τ) := by
  unfold contain
  repeat' (first
    | (extract_lets +onlyGivenNames x; try (refine (fun hx : Kept σ x => ?_) ?_; on_goal 1 => clear_value x; on_goal 2 => subst x))
    | with_reducible assumption | with_reducible rfl | with_reducible exact (fun h => h) | with_reducible apply each_kept | intro _ _ _
    | with_reducible apply pcieLink_kept | with_reducible apply resetFns_kept | with_reducible apply setTvalid_kept
    | with_reducible apply lanesDown_kept | with_reducible apply laneCount_kept | with_reducible apply loseStream_kept
    | with_reducible apply stompHeld_kept | with_reducible apply dropOwn_kept | with_reducible apply disarm_kept
    | with_reducible apply jobDataError_kept | with_reducible apply ramError_kept | with_reducible apply detConf_kept | with_reducible apply dropRoute_kept | split
    | (rename State => x; subst x) | with_reducible apply flex_kept | with_reducible exact PortsKept.refl _)

theorem railOut_kept {σ τ : State} (hw : Kept σ τ) (d : Nat) (injected : Bool) : Kept σ (railOut d injected τ) := by
  unfold railOut
  repeat' (first
    | (extract_lets +onlyGivenNames x; try (refine (fun hx : Kept σ x => ?_) ?_; on_goal 1 => clear_value x; on_goal 2 => subst x))
    | with_reducible assumption | with_reducible rfl | with_reducible exact (fun h => h) | split | (rename State => x; subst x)
    | with_reducible apply flex_kept | with_reducible exact PortsKept.refl _)

theorem fire_kept {σ τ : State} (hw : Kept σ τ) (d index value : Nat) (injected : Bool) : Kept σ (fire d index value injected τ) := by
  unfold fire
  refine instant_kept hw _ fun σ τ hw => ?_
  repeat' (first
    | (extract_lets +onlyGivenNames x; try (refine (fun hx : Kept σ x => ?_) ?_; on_goal 1 => clear_value x; on_goal 2 => subst x))
    | with_reducible assumption | with_reducible apply recordFault_kept | with_reducible apply enterSafe_kept
    | with_reducible apply detRecord_kept | with_reducible apply injFired_kept | with_reducible apply contain_kept
    | with_reducible apply railOut_kept | split | (rename State => x; subst x))

theorem clampClear_kept {σ τ : State} (hw : Kept σ τ)  : Kept σ (clampClear τ) := by
  unfold clampClear
  repeat' (first
    | (extract_lets +onlyGivenNames x; try (refine (fun hx : Kept σ x => ?_) ?_; on_goal 1 => clear_value x; on_goal 2 => subst x))
    | with_reducible assumption | with_reducible rfl | with_reducible exact (fun h => h) | (rename State => x; subst x)
    | with_reducible apply flex_kept | with_reducible exact PortsKept.refl _)

/-! ### Pins -/

theorem muxWrite_kept {σ τ : State} (hw : Kept σ τ) (cause : ClampBy) (k v : Nat) : Kept σ (muxWrite cause k v τ) := by
  unfold muxWrite
  repeat' (first
    | (extract_lets +onlyGivenNames x; try (refine (fun hx : Kept σ x => ?_) ?_; on_goal 1 => clear_value x; on_goal 2 => subst x))
    | with_reducible assumption | with_reducible rfl | with_reducible exact (fun h => h) | with_reducible apply regPutChecked_kept | split
    | (rename State => x; subst x) | with_reducible apply flex_kept | with_reducible exact PortsKept.refl _)

theorem setPin_kept {σ τ : State} (hw : Kept σ τ) (k f : Nat) (p : Bool) : Kept σ (setPin k f p τ) := by
  unfold setPin
  repeat' (first
    | (extract_lets +onlyGivenNames x; try (refine (fun hx : Kept σ x => ?_) ?_; on_goal 1 => clear_value x; on_goal 2 => subst x))
    | with_reducible assumption | with_reducible rfl | with_reducible exact (fun h => h) | (rename State => x; subst x)
    | with_reducible apply flex_kept | with_reducible exact PortsKept.refl _)

theorem ctcMoved_kept {σ τ : State} (hw : Kept σ τ) (k : Nat) (was : State) : Kept σ (ctcMoved k was τ) := by
  unfold ctcMoved
  repeat' (first
    | (extract_lets +onlyGivenNames x; try (refine (fun hx : Kept σ x => ?_) ?_; on_goal 1 => clear_value x; on_goal 2 => subst x))
    | with_reducible assumption | with_reducible rfl | with_reducible exact (fun h => h) | with_reducible apply zxSource_kept | split
    | (rename State => x; subst x) | with_reducible apply flex_kept | with_reducible exact PortsKept.refl _
    | (simp only [List.length_modify, List.length_map, List.length_set, lmod]; done))

theorem switchTick_kept {σ τ : State} (hw : Kept σ τ) (e : Nat × PinSw) : Kept σ (switchTick τ e) := by
  unfold switchTick
  repeat' (first
    | (extract_lets +onlyGivenNames x; try (refine (fun hx : Kept σ x => ?_) ?_; on_goal 1 => clear_value x; on_goal 2 => subst x))
    | with_reducible assumption | with_reducible rfl | with_reducible exact (fun h => h) | with_reducible apply setPin_kept
    | with_reducible apply ctcMoved_kept | with_reducible apply raise_kept | split | (rename State => x; subst x) | with_reducible apply flex_kept
    | with_reducible exact PortsKept.refl _ | (simp only [List.length_modify, List.length_map, List.length_set, lmod]; done))

theorem minorTick_kept {σ τ : State} (hw : Kept σ τ) (k : Nat) : Kept σ (minorTick τ k) := by
  unfold minorTick
  repeat' (first | with_reducible assumption | with_reducible apply setPin_kept)

theorem pinTick_kept {σ τ : State} (hw : Kept σ τ)  : Kept σ (pinTick τ) := by
  unfold pinTick
  repeat' (first
    | (extract_lets +onlyGivenNames x; try (refine (fun hx : Kept σ x => ?_) ?_; on_goal 1 => clear_value x; on_goal 2 => subst x))
    | with_reducible assumption | with_reducible rfl | with_reducible exact (fun h => h) | with_reducible apply each_kept | intro _ _ _
    | with_reducible apply switchTick_kept | with_reducible apply minorTick_kept | (rename State => x; subst x) | with_reducible apply flex_kept
    | with_reducible exact PortsKept.refl _)

/-! ### Rows -/

theorem patternOn_kept {σ τ : State} (hw : Kept σ τ) (l : LaneId) (sd : Side) (n : Nat) (h : FrameHdr) (ms : List Msg) :
    Kept σ (patternOn l sd n h ms τ) := by
  unfold patternOn
  repeat' (first | with_reducible assumption | with_reducible apply emit_kept | with_reducible apply late_kept | split)

theorem sendPattern_kept {σ τ : State} (hw : Kept σ τ)  : Kept σ (sendPattern τ) := by
  unfold sendPattern
  repeat' (first
    | (extract_lets +onlyGivenNames x; try (refine (fun hx : Kept σ x => ?_) ?_; on_goal 1 => clear_value x; on_goal 2 => subst x))
    | with_reducible assumption | with_reducible rfl | with_reducible exact (fun h => h) | with_reducible apply each_kept | intro _ _ _
    | with_reducible apply patternOn_kept | split | (rename State => x; subst x) | with_reducible apply flex_kept
    | with_reducible exact PortsKept.refl _ | (simp only [List.length_modify, List.length_map, List.length_set, lmod]; done))

theorem rowBegins_kept {σ τ : State} (hw : Kept σ τ)  : Kept σ (rowBegins τ) := by
  unfold rowBegins
  repeat' (first
    | (extract_lets +onlyGivenNames x; try (refine (fun hx : Kept σ x => ?_) ?_; on_goal 1 => clear_value x; on_goal 2 => subst x))
    | with_reducible assumption | with_reducible rfl | with_reducible exact (fun h => h) | with_reducible apply takeRows_kept
    | with_reducible apply anchorRow_kept | with_reducible apply oldCopies_kept | with_reducible apply perf_kept | split
    | (rename State => x; subst x) | with_reducible apply flex_kept | with_reducible exact PortsKept.refl _
    | (simp only [List.length_modify, List.length_map, List.length_set, lmod]; done))

theorem staleRow_kept {σ τ : State} (hw : Kept σ τ)  : Kept σ (staleRow τ) := by
  unfold staleRow
  repeat' (first
    | (extract_lets +onlyGivenNames x; try (refine (fun hx : Kept σ x => ?_) ?_; on_goal 1 => clear_value x; on_goal 2 => subst x))
    | with_reducible assumption | with_reducible rfl | with_reducible exact (fun h => h) | with_reducible apply raise_kept
    | with_reducible apply setDev_kept | with_reducible apply setMemb_kept | with_reducible apply leaveTrain_kept | split
    | (rename State => x; subst x) | with_reducible apply flex_kept | with_reducible exact PortsKept.refl _
    | (simp only [List.length_modify, List.length_map, List.length_set, lmod]; done))

theorem rowEntry_kept {σ τ : State} (hw : Kept σ τ)  : Kept σ (rowEntry τ) := by
  unfold rowEntry
  repeat' (first
    | (extract_lets +onlyGivenNames x; try (refine (fun hx : Kept σ x => ?_) ?_; on_goal 1 => clear_value x; on_goal 2 => subst x))
    | with_reducible assumption | with_reducible rfl | with_reducible exact (fun h => h) | with_reducible apply enterInaug_kept | split
    | (rename State => x; subst x) | with_reducible apply flex_kept | with_reducible exact PortsKept.refl _
    | (simp only [List.length_modify, List.length_map, List.length_set, lmod]; done))

theorem masterRow_kept {σ τ : State} (hw : Kept σ τ)  : Kept σ (masterRow τ) := by
  unfold masterRow
  repeat' (first
    | (extract_lets +onlyGivenNames x; try (refine (fun hx : Kept σ x => ?_) ?_; on_goal 1 => clear_value x; on_goal 2 => subst x))
    | with_reducible assumption | with_reducible rfl | with_reducible exact (fun h => h) | with_reducible apply takeAgreed_kept | split
    | (rename State => x; subst x) | with_reducible apply flex_kept | with_reducible exact PortsKept.refl _
    | (simp only [List.length_modify, List.length_map, List.length_set, lmod]; done))

theorem masterSends_kept {σ τ : State} (hw : Kept σ τ)  : Kept σ (masterSends τ) := by
  unfold masterSends
  repeat' (first
    | (extract_lets +onlyGivenNames x; try (refine (fun hx : Kept σ x => ?_) ?_; on_goal 1 => clear_value x; on_goal 2 => subst x))
    | with_reducible assumption | with_reducible rfl | with_reducible exact (fun h => h) | with_reducible apply stopMaster_kept
    | with_reducible apply masterPeriod_kept | with_reducible apply becomeMaster_kept | with_reducible apply masterRow_kept
    | with_reducible apply verdicts_kept | with_reducible apply sendPattern_kept | with_reducible apply doResume_kept | split
    | (rename State => x; subst x) | with_reducible apply flex_kept | with_reducible exact PortsKept.refl _
    | (simp only [List.length_modify, List.length_map, List.length_set, lmod]; done))

theorem engineRow_kept {σ τ : State} (hw : Kept σ τ)  : Kept σ (engineRow τ) := by
  unfold engineRow
  repeat' (first
    | (extract_lets +onlyGivenNames x; try (refine (fun hx : Kept σ x => ?_) ?_; on_goal 1 => clear_value x; on_goal 2 => subst x))
    | with_reducible assumption | with_reducible rfl | with_reducible exact (fun h => h) | with_reducible apply anchorRest_kept
    | with_reducible apply queuePushes_kept | with_reducible apply payOwed_kept | with_reducible apply mirrorRetry_kept | split
    | (rename State => x; subst x) | with_reducible apply flex_kept | with_reducible exact PortsKept.refl _
    | (simp only [List.length_modify, List.length_map, List.length_set, lmod]; done))

theorem rowStart_kept {σ τ : State} (hw : Kept σ τ)  : Kept σ (rowStart τ) := by
  unfold rowStart
  refine instant_kept hw _ fun σ τ hw => ?_
  repeat' (first
    | (extract_lets +onlyGivenNames x; try (refine (fun hx : Kept σ x => ?_) ?_; on_goal 1 => clear_value x; on_goal 2 => subst x))
    | with_reducible assumption | with_reducible rfl | with_reducible exact (fun h => h) | with_reducible apply rowBegins_kept
    | with_reducible apply closeRanging_kept | with_reducible apply agreementRow_kept | with_reducible apply restartNow_kept
    | with_reducible apply unmuteRow_kept | with_reducible apply rowEntry_kept | with_reducible apply staleRow_kept
    | with_reducible apply engineRow_kept | with_reducible apply masterSends_kept | split | (rename State => x; subst x)
    | with_reducible apply flex_kept | with_reducible exact PortsKept.refl _
    | (simp only [List.length_modify, List.length_map, List.length_set, lmod]; done))

theorem sourceCommitted_kept {σ τ : State} (hw : Kept σ τ) (off : Nat) (was : Nat) : Kept σ (sourceCommitted off was τ) := by
  unfold sourceCommitted
  repeat' (first
    | (extract_lets +onlyGivenNames x; try (refine (fun hx : Kept σ x => ?_) ?_; on_goal 1 => clear_value x; on_goal 2 => subst x))
    | with_reducible assumption | with_reducible rfl | with_reducible exact (fun h => h) | with_reducible apply zxSource_kept | split
    | (rename State => x; subst x) | with_reducible apply flex_kept | with_reducible exact PortsKept.refl _
    | (simp only [List.length_modify, List.length_map, List.length_set, lmod]; done))

theorem commitReg_kept {σ τ : State} (hw : Kept σ τ) (off : Nat) : Kept σ (commitReg off τ) := by
  unfold commitReg
  repeat' (first
    | (extract_lets +onlyGivenNames x; try (refine (fun hx : Kept σ x => ?_) ?_; on_goal 1 => clear_value x; on_goal 2 => subst x))
    | with_reducible assumption | with_reducible rfl | with_reducible exact (fun h => h) | with_reducible apply sourceCommitted_kept
    | with_reducible apply setStaged_kept | with_reducible apply regSet_kept | split | (rename State => x; subst x) | with_reducible apply flex_kept
    | with_reducible exact PortsKept.refl _ | (simp only [List.length_modify, List.length_map, List.length_set, lmod]; done))

theorem commit_kept {σ τ : State} (hw : Kept σ τ)  : Kept σ (commit τ) := by
  unfold commit
  repeat' (first
    | (extract_lets +onlyGivenNames x; try (refine (fun hx : Kept σ x => ?_) ?_; on_goal 1 => clear_value x; on_goal 2 => subst x))
    | with_reducible assumption | with_reducible rfl | with_reducible exact (fun h => h) | with_reducible apply each_kept | intro _ _ _
    | with_reducible apply commitReg_kept | with_reducible apply quotaCommit_kept | with_reducible apply setAttrCommit_kept
    | with_reducible apply jobDone_kept | split | (rename State => x; subst x) | with_reducible apply flex_kept
    | with_reducible exact PortsKept.refl _ | (simp only [List.length_modify, List.length_map, List.length_set, lmod]; done))

theorem freezeLeases_kept {σ τ : State} (hw : Kept σ τ)  : Kept σ (freezeLeases τ) := by
  unfold freezeLeases
  repeat' (first
    | (extract_lets +onlyGivenNames x; try (refine (fun hx : Kept σ x => ?_) ?_; on_goal 1 => clear_value x; on_goal 2 => subst x))
    | with_reducible assumption | with_reducible rfl | with_reducible exact (fun h => h) | with_reducible apply each_kept | intro _ _ _
    | with_reducible apply sendOwn_kept | split | (rename State => x; subst x) | with_reducible apply flex_kept
    | with_reducible exact PortsKept.refl _)

theorem virtJam_kept {σ τ : State} (hw : Kept σ τ)  : Kept σ (virtJam τ) := by
  unfold virtJam
  repeat' (first
    | (extract_lets +onlyGivenNames x; try (refine (fun hx : Kept σ x => ?_) ?_; on_goal 1 => clear_value x; on_goal 2 => subst x))
    | with_reducible assumption | with_reducible rfl | with_reducible exact (fun h => h) | with_reducible apply stepped_kept | split
    | (rename State => x; subst x) | with_reducible apply flex_kept | with_reducible exact PortsKept.refl _
    | (simp only [List.length_modify, List.length_map, List.length_set, lmod]; done))

theorem hoopBegins_kept {σ τ : State} (hw : Kept σ τ)  : Kept σ (hoopBegins τ) := by
  unfold hoopBegins
  repeat' (first
    | (extract_lets +onlyGivenNames x; try (refine (fun hx : Kept σ x => ?_) ?_; on_goal 1 => clear_value x; on_goal 2 => subst x))
    | with_reducible assumption | with_reducible rfl | with_reducible exact (fun h => h) | with_reducible apply perf_kept
    | with_reducible apply anchorRow_kept | split | (rename State => x; subst x) | with_reducible apply flex_kept
    | with_reducible exact PortsKept.refl _)

theorem lastRow_kept {σ τ : State} (hw : Kept σ τ)  : Kept σ (lastRow τ) := by
  unfold lastRow
  repeat' (first
    | (extract_lets +onlyGivenNames x; try (refine (fun hx : Kept σ x => ?_) ?_; on_goal 1 => clear_value x; on_goal 2 => subst x))
    | with_reducible assumption | with_reducible rfl | with_reducible exact (fun h => h) | (rename State => x; subst x)
    | with_reducible apply flex_kept | with_reducible exact PortsKept.refl _)

theorem hoopBoundary_kept {σ τ : State} (hw : Kept σ τ)  : Kept σ (hoopBoundary τ) := by
  unfold hoopBoundary
  refine instant_kept hw _ fun σ τ hw => ?_
  repeat' (first
    | (extract_lets +onlyGivenNames x; try (refine (fun hx : Kept σ x => ?_) ?_; on_goal 1 => clear_value x; on_goal 2 => subst x))
    | with_reducible assumption | with_reducible rfl | with_reducible exact (fun h => h) | with_reducible apply commit_kept
    | with_reducible apply hoopBegins_kept | with_reducible apply tierHoop_kept | with_reducible apply bigHoop_kept
    | with_reducible apply lockBand_kept | with_reducible apply cutNow_kept | with_reducible apply switchBoundary_kept
    | with_reducible apply verdicts_kept | with_reducible apply lastRow_kept | with_reducible apply virtJam_kept
    | with_reducible apply freezeLeases_kept | with_reducible apply phaseWaiters_kept | with_reducible apply picBoundary_kept | split
    | (rename State => x; subst x) | with_reducible apply flex_kept | with_reducible exact PortsKept.refl _
    | (simp only [List.length_modify, List.length_map, List.length_set, lmod]; done))

/-! ### Device -/

theorem evtClear_kept {σ τ : State} (hw : Kept σ τ) (j v : Nat) : Kept σ (evtClear j v τ) := by
  unfold evtClear
  repeat' (first
    | (extract_lets +onlyGivenNames x; try (refine (fun hx : Kept σ x => ?_) ?_; on_goal 1 => clear_value x; on_goal 2 => subst x))
    | with_reducible assumption | with_reducible rfl | with_reducible exact (fun h => h) | (rename State => x; subst x)
    | with_reducible apply flex_kept | with_reducible exact PortsKept.refl _)

theorem detClear_kept {σ τ : State} (hw : Kept σ τ) (j v : Nat) : Kept σ (detClear j v τ) := by
  unfold detClear
  repeat' (first
    | (extract_lets +onlyGivenNames x; try (refine (fun hx : Kept σ x => ?_) ?_; on_goal 1 => clear_value x; on_goal 2 => subst x))
    | with_reducible assumption | with_reducible rfl | with_reducible exact (fun h => h) | (rename State => x; subst x)
    | with_reducible apply flex_kept | with_reducible exact PortsKept.refl _)

theorem picStatClear_kept {σ τ : State} (hw : Kept σ τ) (n v : Nat) : Kept σ (picStatClear n v τ) := by
  unfold picStatClear
  repeat' (first
    | (extract_lets +onlyGivenNames x; try (refine (fun hx : Kept σ x => ?_) ?_; on_goal 1 => clear_value x; on_goal 2 => subst x))
    | with_reducible assumption | with_reducible rfl | with_reducible exact (fun h => h) | with_reducible apply modCh_kept
    | (rename State => x; subst x) | with_reducible apply flex_kept | with_reducible exact PortsKept.refl _)

theorem pmcSelWrite_kept {σ τ : State} (hw : Kept σ τ) (cause : ClampBy) (i v : Nat) : Kept σ (pmcSelWrite cause i v τ) := by
  unfold pmcSelWrite
  repeat' (first
    | (extract_lets +onlyGivenNames x; try (refine (fun hx : Kept σ x => ?_) ?_; on_goal 1 => clear_value x; on_goal 2 => subst x))
    | with_reducible assumption | with_reducible rfl | with_reducible exact (fun h => h) | with_reducible apply regPutChecked_kept
    | (rename State => x; subst x) | with_reducible apply flex_kept | with_reducible exact PortsKept.refl _)

theorem pmcStatClear_kept {σ τ : State} (hw : Kept σ τ) (i v : Nat) : Kept σ (pmcStatClear i v τ) := by
  unfold pmcStatClear
  repeat' (first
    | (extract_lets +onlyGivenNames x; try (refine (fun hx : Kept σ x => ?_) ?_; on_goal 1 => clear_value x; on_goal 2 => subst x))
    | with_reducible assumption | with_reducible rfl | with_reducible exact (fun h => h) | split | (rename State => x; subst x)
    | with_reducible apply flex_kept | with_reducible exact PortsKept.refl _)

theorem pmcCtrlWrite_kept {σ τ : State} (hw : Kept σ τ) (cause : ClampBy) (v : Nat) : Kept σ (pmcCtrlWrite cause v τ) := by
  unfold pmcCtrlWrite
  repeat' (first
    | (extract_lets +onlyGivenNames x; try (refine (fun hx : Kept σ x => ?_) ?_; on_goal 1 => clear_value x; on_goal 2 => subst x))
    | with_reducible assumption | with_reducible rfl | with_reducible exact (fun h => h) | with_reducible apply regPutChecked_kept | split
    | (rename State => x; subst x) | with_reducible apply flex_kept | with_reducible exact PortsKept.refl _)

theorem pmcLatch_kept {σ τ : State} (hw : Kept σ τ) (i : Nat) : Kept σ (pmcLatch i τ) := by
  unfold pmcLatch
  repeat' (first
    | (extract_lets +onlyGivenNames x; try (refine (fun hx : Kept σ x => ?_) ?_; on_goal 1 => clear_value x; on_goal 2 => subst x))
    | with_reducible assumption | with_reducible rfl | with_reducible exact (fun h => h) | (rename State => x; subst x)
    | with_reducible apply flex_kept | with_reducible exact PortsKept.refl _)

theorem keeCmd_kept {σ τ : State} (hw : Kept σ τ) (v : Nat) : Kept σ (keeCmd v τ) := by
  unfold keeCmd
  repeat' (first
    | (extract_lets +onlyGivenNames x; try (refine (fun hx : Kept σ x => ?_) ?_; on_goal 1 => clear_value x; on_goal 2 => subst x))
    | with_reducible assumption | with_reducible rfl | with_reducible exact (fun h => h) | with_reducible apply keeRead_kept
    | with_reducible apply keeWrite_kept | with_reducible apply keeVerify_kept | split | (rename State => x; subst x)
    | with_reducible apply flex_kept | with_reducible exact PortsKept.refl _)

theorem msixWrite_kept {σ τ : State} (hw : Kept σ τ) (n i v : Nat) : Kept σ (msixWrite n i v τ) := by
  unfold msixWrite
  repeat' (first
    | (extract_lets +onlyGivenNames x; try (refine (fun hx : Kept σ x => ?_) ?_; on_goal 1 => clear_value x; on_goal 2 => subst x))
    | with_reducible assumption | with_reducible rfl | with_reducible exact (fun h => h) | with_reducible apply modTen_kept
    | with_reducible apply msixFlush_kept | split | (rename State => x; subst x) | with_reducible apply flex_kept
    | with_reducible exact PortsKept.refl _)

theorem writePort_kept {σ τ : State} (hw : Kept σ τ) (cause : ClampBy) (p r v : Nat) : Kept σ (writePort cause p r v τ) := by
  unfold writePort
  repeat' (first
    | (extract_lets +onlyGivenNames x; try (refine (fun hx : Kept σ x => ?_) ?_; on_goal 1 => clear_value x; on_goal 2 => subst x))
    | with_reducible assumption | with_reducible rfl | with_reducible exact (fun h => h) | with_reducible apply regPutChecked_kept
    | with_reducible apply ctrlWrite_kept | with_reducible apply rxqAck_kept | with_reducible apply timingWrite_kept
    | with_reducible apply cfgWrite_kept | with_reducible apply objCmd_kept | with_reducible apply qtxCmd_kept | split
    | (rename State => x; subst x) | with_reducible apply flex_kept | with_reducible exact PortsKept.refl _)

theorem writePmc_kept {σ τ : State} (hw : Kept σ τ) (cause : ClampBy) (r v : Nat) : Kept σ (writePmc cause r v τ) := by
  unfold writePmc
  repeat' (first
    | (extract_lets +onlyGivenNames x; try (refine (fun hx : Kept σ x => ?_) ?_; on_goal 1 => clear_value x; on_goal 2 => subst x))
    | with_reducible assumption | with_reducible rfl | with_reducible exact (fun h => h) | with_reducible apply regPutChecked_kept
    | with_reducible apply pmcSelWrite_kept | with_reducible apply pmcStatClear_kept | with_reducible apply pmcCtrlWrite_kept | split
    | (rename State => x; subst x) | with_reducible apply flex_kept | with_reducible exact PortsKept.refl _)

theorem writeOwn_kept {σ τ : State} (hw : Kept σ τ) (cause : ClampBy) (n r v : Nat) : Kept σ (writeOwn cause n r v τ) := by
  unfold writeOwn
  repeat' (first
    | (focus (intro c hm; (try extract_lets); (try dsimp only); with_reducible (repeat' first | exact hm | apply memPuts_wf | apply memPut_wf | split); done))
    | (focus (intro hm; (try extract_lets); (try dsimp only); with_reducible (repeat' first | exact hm | apply memPuts_wf | apply memPut_wf | split); done)) | (extract_lets +onlyGivenNames x; try (refine (fun hx : Kept σ x => ?_) ?_; on_goal 1 => clear_value x; on_goal 2 => subst x))
    | with_reducible assumption | with_reducible rfl | with_reducible exact (fun h => h) | with_reducible apply regPutChecked_kept
    | with_reducible apply doorbell_kept | with_reducible apply cqDoorbell_kept | with_reducible apply rctlWrite_kept
    | with_reducible apply tenPhase_kept | with_reducible apply msixWrite_kept | split | (rename State => x; subst x)
    | with_reducible apply flex_kept | with_reducible exact PortsKept.refl _)

theorem writeSteward_kept {σ τ : State} (hw : Kept σ τ) (cause : ClampBy) (n r v : Nat) : Kept σ (writeSteward cause n r v τ) := by
  unfold writeSteward
  repeat' (first | with_reducible assumption | with_reducible apply regPutChecked_kept | with_reducible apply sctrlWrite_kept | split)

theorem writeAt_kept {σ τ : State} (hw : Kept σ τ) (cause : ClampBy) (off v : Nat) : Kept σ (writeAt cause off v τ) := by
  unfold writeAt
  repeat' (first
    | (extract_lets +onlyGivenNames x; try (refine (fun hx : Kept σ x => ?_) ?_; on_goal 1 => clear_value x; on_goal 2 => subst x))
    | with_reducible assumption | with_reducible rfl | with_reducible exact (fun h => h) | with_reducible apply regPutChecked_kept
    | with_reducible apply objMemWrite_kept | with_reducible apply phaseSnap_kept | with_reducible apply wayCtlWrite_kept
    | with_reducible apply capPop_kept | with_reducible apply stageHold_kept | with_reducible apply lanCtrlWrite_kept
    | with_reducible apply mdioCmd_kept | with_reducible apply glbCtrlWrite_kept | with_reducible apply glbReset_kept
    | with_reducible apply clampClear_kept | with_reducible apply muxWrite_kept | with_reducible apply evtClear_kept
    | with_reducible apply detClear_kept | with_reducible apply picStatClear_kept | with_reducible apply keeCmd_kept
    | with_reducible apply writePort_kept | with_reducible apply writePmc_kept | with_reducible apply writeOwn_kept
    | with_reducible apply writeSteward_kept | split | (rename State => x; subst x) | with_reducible apply flex_kept
    | with_reducible exact PortsKept.refl _)

theorem badAccess_kept {σ τ : State} (hw : Kept σ τ) (off : Nat) : Kept σ (badAccess off τ) := by
  unfold badAccess
  repeat' (first | with_reducible assumption | with_reducible apply raise_kept)

theorem writeBy_kept {σ τ : State} (hw : Kept σ τ) (w : Who) (off v : Nat) : Kept σ (writeBy w off v τ) := by
  unfold writeBy
  repeat' (first
    | (extract_lets +onlyGivenNames x; try (refine (fun hx : Kept σ x => ?_) ?_; on_goal 1 => clear_value x; on_goal 2 => subst x))
    | with_reducible assumption | with_reducible rfl | with_reducible exact (fun h => h) | intro _ _ | with_reducible apply gatedWrite_kept
    | with_reducible apply writeOwn_kept | with_reducible apply writeAt_kept | with_reducible apply badAccess_kept | split
    | (rename State => x; subst x) | with_reducible apply flex_kept | with_reducible exact PortsKept.refl _)

theorem readEffect_kept {σ τ : State} (hw : Kept σ τ) (w : Who) (off : Nat) : Kept σ (readEffect w off τ) := by
  unfold readEffect
  repeat' (first
    | (extract_lets +onlyGivenNames x; try (refine (fun hx : Kept σ x => ?_) ?_; on_goal 1 => clear_value x; on_goal 2 => subst x))
    | with_reducible assumption | with_reducible rfl | with_reducible exact (fun h => h) | with_reducible apply ctrClear_kept
    | with_reducible apply pmcLatch_kept | split | (rename State => x; subst x) | with_reducible apply flex_kept
    | with_reducible exact PortsKept.refl _)

theorem readOut_kept {σ τ : State} (hw : Kept σ τ) (w : Who) (off : Nat) : Kept σ (readOut w off τ) := by
  unfold readOut
  repeat' (first
    | (extract_lets +onlyGivenNames x; try (refine (fun hx : Kept σ x => ?_) ?_; on_goal 1 => clear_value x; on_goal 2 => subst x))
    | with_reducible assumption | with_reducible rfl | with_reducible exact (fun h => h) | with_reducible apply badAccess_kept
    | with_reducible apply readEffect_kept | split | (rename State => x; subst x) | with_reducible apply flex_kept
    | with_reducible exact PortsKept.refl _)

/-! ### Health -/

theorem healthJob_kept {σ τ : State} (hw : Kept σ τ) (b op : Nat) (go : Bobbin → State → State)
    (hg : ∀ v u, Kept σ u → Kept σ (go v u)) : Kept σ (healthJob b op go τ) := by
  unfold healthJob
  repeat' (first
    | with_reducible assumption | apply hg | with_reducible apply complete_kept | with_reducible apply jobFail_kept
    | with_reducible apply setBob_kept | with_reducible apply waitAs_kept | split | extract_lets)

theorem clearSticky_kept {σ τ : State} (hw : Kept σ τ) (i : Nat) : Kept σ (clearSticky τ i) := by
  unfold clearSticky
  repeat' (first
    | (extract_lets +onlyGivenNames x; try (refine (fun hx : Kept σ x => ?_) ?_; on_goal 1 => clear_value x; on_goal 2 => subst x))
    | with_reducible assumption | with_reducible rfl | with_reducible exact (fun h => h) | (rename State => x; subst x)
    | with_reducible apply flex_kept | with_reducible exact PortsKept.refl _)

theorem counterRead_kept {σ τ : State} (hw : Kept σ τ) (b : Nat) (v : Bobbin) : Kept σ (counterRead b v τ) := by
  unfold counterRead
  repeat' (first
    | (extract_lets +onlyGivenNames x; try (refine (fun hx : Kept σ x => ?_) ?_; on_goal 1 => clear_value x; on_goal 2 => subst x))
    | with_reducible assumption | with_reducible apply each_kept | intro _ _ _ | with_reducible apply jobDone_kept
    | with_reducible apply clearSticky_kept | split | (rename State => x; subst x))

theorem setSamples_kept {σ τ : State} (hw : Kept σ τ) (l : List (Nat × List Byte)) : Kept σ (setSamples l τ) := by
  unfold setSamples
  repeat' (first
    | (extract_lets +onlyGivenNames x; try (refine (fun hx : Kept σ x => ?_) ?_; on_goal 1 => clear_value x; on_goal 2 => subst x))
    | with_reducible assumption | with_reducible rfl | with_reducible exact (fun h => h) | (rename State => x; subst x)
    | with_reducible apply flex_kept | with_reducible exact PortsKept.refl _)

theorem sampleDrain_kept {σ τ : State} (hw : Kept σ τ) (b : Nat) (v : Bobbin) : Kept σ (sampleDrain b v τ) := by
  unfold sampleDrain
  repeat' (first
    | (extract_lets +onlyGivenNames x; try (refine (fun hx : Kept σ x => ?_) ?_; on_goal 1 => clear_value x; on_goal 2 => subst x))
    | with_reducible assumption | with_reducible apply jobDone_kept | with_reducible apply setSamples_kept | (rename State => x; subst x))

theorem clampLogRead_kept {σ τ : State} (hw : Kept σ τ) (b : Nat) (v : Bobbin) : Kept σ (clampLogRead b v τ) := by
  unfold clampLogRead
  repeat' (first
    | (extract_lets +onlyGivenNames x; try (refine (fun hx : Kept σ x => ?_) ?_; on_goal 1 => clear_value x; on_goal 2 => subst x))
    | with_reducible assumption | with_reducible apply jobDone_kept | with_reducible apply clampClear_kept | split
    | (rename State => x; subst x))

theorem setInj_kept {σ τ : State} (hw : Kept σ τ) (d : Nat) (i : Inj) : Kept σ (setInj d i τ) := by
  unfold setInj
  repeat' (first
    | (extract_lets +onlyGivenNames x; try (refine (fun hx : Kept σ x => ?_) ?_; on_goal 1 => clear_value x; on_goal 2 => subst x))
    | with_reducible assumption | with_reducible rfl | with_reducible exact (fun h => h) | split | (rename State => x; subst x)
    | with_reducible apply flex_kept | with_reducible exact PortsKept.refl _)

theorem injectJob_kept {σ τ : State} (hw : Kept σ τ) (b : Nat) (v : Bobbin) : Kept σ (injectJob b v τ) := by
  unfold injectJob
  repeat' (first
    | (extract_lets +onlyGivenNames x; try (refine (fun hx : Kept σ x => ?_) ?_; on_goal 1 => clear_value x; on_goal 2 => subst x))
    | with_reducible assumption | with_reducible rfl | with_reducible exact (fun h => h) | with_reducible apply jobDone_kept
    | with_reducible apply jobFail_kept | with_reducible apply setInj_kept | split | (rename State => x; subst x)
    | with_reducible apply flex_kept | with_reducible exact PortsKept.refl _)

theorem setNext_kept {σ τ : State} (hw : Kept σ τ) (n : Bool) : Kept σ (setNext n τ) := by
  unfold setNext
  repeat' (first
    | (extract_lets +onlyGivenNames x; try (refine (fun hx : Kept σ x => ?_) ?_; on_goal 1 => clear_value x; on_goal 2 => subst x))
    | with_reducible assumption | with_reducible rfl | with_reducible exact (fun h => h) | (rename State => x; subst x)
    | with_reducible apply flex_kept | with_reducible exact PortsKept.refl _)

theorem bistSchedule_kept {σ τ : State} (hw : Kept σ τ) (b : Nat) (v : Bobbin) : Kept σ (bistSchedule b v τ) := by
  unfold bistSchedule
  repeat' (first
    | (extract_lets +onlyGivenNames x; try (refine (fun hx : Kept σ x => ?_) ?_; on_goal 1 => clear_value x; on_goal 2 => subst x))
    | with_reducible assumption | with_reducible apply complete_kept | with_reducible apply jobDone_kept | with_reducible apply setNext_kept
    | split | (rename State => x; subst x))

theorem bistResult_kept {σ τ : State} (hw : Kept σ τ) (b : Nat) : Kept σ (bistResult b τ) := by
  unfold bistResult
  repeat' (first
    | (extract_lets +onlyGivenNames x; try (refine (fun hx : Kept σ x => ?_) ?_; on_goal 1 => clear_value x; on_goal 2 => subst x))
    | with_reducible assumption | with_reducible apply jobDone_kept | (rename State => x; subst x))

theorem shutdownJob_kept {σ τ : State} (hw : Kept σ τ) (b : Nat) (v : Bobbin) : Kept σ (shutdownJob b v τ) := by
  unfold shutdownJob
  repeat' (first
    | (extract_lets +onlyGivenNames x; try (refine (fun hx : Kept σ x => ?_) ?_; on_goal 1 => clear_value x; on_goal 2 => subst x))
    | with_reducible assumption | with_reducible rfl | with_reducible exact (fun h => h) | with_reducible apply jobDone_kept
    | with_reducible apply enterShutdown_kept | (rename State => x; subst x) | with_reducible apply flex_kept
    | with_reducible exact PortsKept.refl _)

theorem echoJob_kept {σ τ : State} (hw : Kept σ τ) (b : Nat) (v : Bobbin) : Kept σ (echoJob b v τ) := by
  unfold echoJob
  repeat' (first | with_reducible assumption | with_reducible apply jobDone_kept)

/-! ### Debug -/

theorem dapEnd_kept {σ τ : State} (hw : Kept σ τ) (status : Nat) (data : Word) : Kept σ (dapEnd status data τ) := by
  unfold dapEnd
  repeat' (first
    | (extract_lets +onlyGivenNames x; try (refine (fun hx : Kept σ x => ?_) ?_; on_goal 1 => clear_value x; on_goal 2 => subst x))
    | with_reducible assumption | with_reducible rfl | with_reducible exact (fun h => h) | (rename State => x; subst x)
    | with_reducible apply flex_kept | with_reducible exact PortsKept.refl _)

theorem dapNote_kept {σ τ : State} (hw : Kept σ τ)  : Kept σ (dapNote τ) := by
  unfold dapNote
  repeat' (first
    | (extract_lets +onlyGivenNames x; try (refine (fun hx : Kept σ x => ?_) ?_; on_goal 1 => clear_value x; on_goal 2 => subst x))
    | with_reducible assumption | with_reducible rfl | with_reducible exact (fun h => h) | with_reducible apply raise_kept | split
    | (rename State => x; subst x) | with_reducible apply flex_kept | with_reducible exact PortsKept.refl _)

theorem dapTake_kept {σ τ : State} (hw : Kept σ τ) (a : Nat) : Kept σ (dapTake a τ) := by
  unfold dapTake
  repeat' (first | with_reducible assumption | with_reducible apply readEffect_kept | with_reducible apply setSamples_kept | split)

theorem dapRead_kept {σ τ : State} (hw : Kept σ τ) (a : Nat) (take : Bool) : Kept σ (dapRead a take τ) := by
  unfold dapRead
  repeat' (first
    | (extract_lets +onlyGivenNames x; try (refine (fun hx : Kept σ x => ?_) ?_; on_goal 1 => clear_value x; on_goal 2 => subst x))
    | with_reducible assumption | with_reducible rfl | with_reducible exact (fun h => h) | with_reducible apply readEffect_kept
    | with_reducible apply dapEnd_kept | with_reducible apply dapTake_kept | split | (rename State => x; subst x)
    | with_reducible apply flex_kept | with_reducible exact PortsKept.refl _)

theorem dapWrite_kept {σ τ : State} (hw : Kept σ τ) (a : Nat) (data : Word) : Kept σ (dapWrite a data τ) := by
  unfold dapWrite
  repeat' (first | with_reducible assumption | with_reducible apply writeBy_kept | with_reducible apply dapEnd_kept | split)

/-! ### Spi -/

theorem spiErr_kept {σ τ : State} (hw : Kept σ τ) (p : Nat) : Kept σ (spiErr p τ) := by
  unfold spiErr
  repeat' (first
    | (extract_lets +onlyGivenNames x; try (refine (fun hx : Kept σ x => ?_) ?_; on_goal 1 => clear_value x; on_goal 2 => subst x))
    | with_reducible assumption | with_reducible rfl | with_reducible exact (fun h => h) | with_reducible apply modTen_kept
    | (rename State => x; subst x) | with_reducible apply flex_kept | with_reducible exact PortsKept.refl _)

theorem spiBad_kept {σ τ : State} (hw : Kept σ τ) (p : Nat) : Kept σ (spiBad p τ) := by
  unfold spiBad
  repeat' (first | with_reducible assumption | with_reducible apply count_kept | with_reducible apply spiErr_kept)

theorem spiOut_kept {σ τ : State} (hw : Kept σ τ) (op : Nat) (f : SpiFrame) (data : List Byte) : Kept σ (spiOut op f data τ) := by
  unfold spiOut
  repeat' (first
    | (extract_lets +onlyGivenNames x; try (refine (fun hx : Kept σ x => ?_) ?_; on_goal 1 => clear_value x; on_goal 2 => subst x))
    | with_reducible assumption | with_reducible rfl | with_reducible exact (fun h => h) | split | (rename State => x; subst x)
    | with_reducible apply flex_kept | with_reducible exact PortsKept.refl _)

theorem spiFrame_kept {σ τ : State} (hw : Kept σ τ) (f : SpiFrame) (go : State → State) (hg : ∀ u, Kept σ u → Kept σ (go u)) :
    Kept σ (spiFrame f go τ) := by
  unfold spiFrame
  split
  · exact hw
  · split
    · exact spiErr_kept hw _
    · exact hg _ (perf_kept hw _ _)

theorem spiWords_kept {σ τ : State} (hw : Kept σ τ) (t off : Nat) (data : List Byte) (fu : Nat) : Kept σ (spiWords t off data fu τ) := by
  induction fu generalizing τ t off data with
  | zero => unfold spiWords; first | exact hw | exact flex_kept hw _ _ _ _ _ _ _ _ _ _ _ _ _ _ _ _ _ _ _ rfl rfl id id id rfl (PortsKept.refl _)
  | succ n ih =>
    unfold spiWords
    repeat' (first | with_reducible assumption | with_reducible apply ih | with_reducible apply writeBy_kept)

theorem spiRegs_kept {σ τ : State} (hw : Kept σ τ) (t off : Nat) (fu : Nat) : Kept σ (spiRegs t off fu τ).2 := by
  induction fu generalizing τ t off with
  | zero => unfold spiRegs; first | exact hw | exact flex_kept hw _ _ _ _ _ _ _ _ _ _ _ _ _ _ _ _ _ _ _ rfl rfl id id id rfl (PortsKept.refl _)
  | succ n ih =>
    unfold spiRegs
    repeat' (first
    | (extract_lets +onlyGivenNames x; try (refine (fun hx : Kept σ x => ?_) ?_; on_goal 1 => clear_value x; on_goal 2 => subst x))
    | with_reducible assumption | with_reducible apply ih | with_reducible apply readEffect_kept | (rename State => x; subst x))

/-! ### Start -/

theorem setKee_kept {s t : State} (h : Kept s t) (k : KeepSt) (hk : k.mem = t.kee.mem) : Kept s { t with kee := k } :=
  flex_kept h _ _ _ _ _ _ _ _ _ _ _ _ _ _ _ _ _ _ _ rfl rfl (fun g => by rw [hk]; exact g) id id rfl (PortsKept.refl _)

theorem setInt_kept {s t : State} (h : Kept s t) (i : IntSt) : Kept s { t with int := i } :=
  flex_kept h _ _ _ _ _ _ _ _ _ _ _ _ _ _ _ _ _ _ _ rfl rfl id id id rfl (PortsKept.refl _)

theorem startRead_kept {σ τ : State} (hw : Kept σ τ) (idp : Nat) : Kept σ (startRead idp τ) := by
  rw [startRead]
  have ha : Kept σ (regSet 0x7008 (leAt (pageOf τ idp) 10 2) τ) := regSet_kept hw _ _
  generalize regSet 0x7008 (leAt (pageOf τ idp) 10 2) τ = a at ha ⊢
  split
  · exact flex_kept ha _ _ _ _ _ _ _ _ _ _ _ _ _ _ _ _ _ _ _ rfl rfl id id id rfl (PortsKept.refl _)
  · exact flex_kept ha _ _ _ _ _ _ _ _ _ _ _ _ _ _ _ _ _ _ _ rfl rfl id id id rfl (PortsKept.refl _)

theorem startRecord_kept {σ τ : State} (hw : Kept σ τ) (lb : BitVec 12) (mb : BitVec 20) (wqs : BitVec 64) : Kept σ (startRecord lb mb wqs τ) := by
  unfold startRecord
  repeat' (first
    | (extract_lets +onlyGivenNames x; try (refine (fun hx : Kept σ x => ?_) ?_; on_goal 1 => clear_value x; on_goal 2 => subst x))
    | with_reducible assumption | with_reducible rfl | with_reducible exact (fun h => h) | with_reducible apply count_kept
    | with_reducible apply putPage_kept | with_reducible apply addWear_kept | split | (rename State => x; subst x)
    | with_reducible apply flex_kept | with_reducible exact PortsKept.refl _)

theorem wqsOff_kept {σ τ : State} (hw : Kept σ τ) (wqs : BitVec 64) : Kept σ (wqsOff wqs τ) := by
  unfold wqsOff
  repeat' (first
    | (extract_lets +onlyGivenNames x; try (refine (fun hx : Kept σ x => ?_) ?_; on_goal 1 => clear_value x; on_goal 2 => subst x))
    | with_reducible assumption | with_reducible rfl | with_reducible exact (fun h => h) | with_reducible apply each_kept | intro _ _ _
    | with_reducible apply modWq_kept | (rename State => x; subst x) | with_reducible apply flex_kept | with_reducible exact PortsKept.refl _)

theorem bistOutcome_kept {σ τ : State} (hw : Kept σ τ) (lb : BitVec 12) (mb : BitVec 20) (wqs : BitVec 64) : Kept σ (bistOutcome lb mb wqs τ) := by
  unfold bistOutcome
  repeat' (first | with_reducible assumption | with_reducible apply fire_kept | with_reducible apply wqsOff_kept | split)

theorem startBist_kept {σ τ : State} (hw : Kept σ τ) (lb : BitVec 12) (mb : BitVec 20) (wqs : BitVec 64) : Kept σ (startBist lb mb wqs τ) := by
  unfold startBist
  repeat' (first | with_reducible assumption | with_reducible apply startRecord_kept | with_reducible apply bistOutcome_kept | split)

theorem logRestore_kept {σ τ : State} (hw : Kept σ τ)  : Kept σ (logRestore τ) := by
  unfold logRestore
  repeat' (first
    | (extract_lets +onlyGivenNames x; try (refine (fun hx : Kept σ x => ?_) ?_; on_goal 1 => clear_value x; on_goal 2 => subst x))
    | with_reducible assumption | with_reducible rfl | with_reducible exact (fun h => h) | split | (rename State => x; subst x)
    | with_reducible apply flex_kept | with_reducible exact PortsKept.refl _)

theorem raisePatchMin_kept {σ τ : State} (hw : Kept σ τ) (idp pv : Nat) : Kept σ (raisePatchMin idp pv τ) := by
  unfold raisePatchMin
  repeat' (first
    | (extract_lets +onlyGivenNames x; try (refine (fun hx : Kept σ x => ?_) ?_; on_goal 1 => clear_value x; on_goal 2 => subst x))
    | with_reducible assumption | with_reducible apply keepAsk_kept | (rename State => x; subst x))

theorem startPatch_kept {σ τ : State} (hw : Kept σ τ) (idp : Nat) : Kept σ (startPatch idp τ) := by
  unfold startPatch
  repeat' (first
    | (extract_lets +onlyGivenNames x; try (refine (fun hx : Kept σ x => ?_) ?_; on_goal 1 => clear_value x; on_goal 2 => subst x))
    | with_reducible assumption | with_reducible rfl | with_reducible exact (fun h => h) | with_reducible apply raise_kept
    | with_reducible apply raisePatchMin_kept | split | (rename State => x; subst x) | with_reducible apply flex_kept
    | with_reducible exact PortsKept.refl _)

theorem startSlot_kept {σ τ : State} (hw : Kept σ τ) (i : Nat) : Kept σ (startSlot τ i) := by
  unfold startSlot
  repeat' (first
    | (extract_lets +onlyGivenNames x; try (refine (fun hx : Kept σ x => ?_) ?_; on_goal 1 => clear_value x; on_goal 2 => subst x))
    | with_reducible assumption | with_reducible rfl | with_reducible exact (fun h => h) | with_reducible apply raise_kept
    | with_reducible apply checkSlot_kept | split | (rename State => x; subst x) | with_reducible apply flex_kept
    | with_reducible exact PortsKept.refl _ | (simp only [List.length_modify, List.length_map, List.length_set, lmod]; done))

theorem applyReg_kept {σ τ : State} (hw : Kept σ τ) (off v : Nat) : Kept σ (applyReg off v τ) := by
  unfold applyReg
  repeat' (first | with_reducible assumption | with_reducible apply writeAt_kept | with_reducible apply badAccess_kept | split)

theorem applyRegs_kept {σ τ : State} (hw : Kept σ τ) (l : List (Nat × ImgEntry)) : Kept σ (applyRegs l τ) := by
  induction l generalizing τ with
  | nil => exact hw
  | cons a l ih =>
    obtain ⟨i, e⟩ := a
    cases e with
    | reg off v =>
      rw [applyRegs]
      split
      · exact glbReset_kept hw _
      · exact ih (applyReg_kept hw _ _)
    | cmd v =>
      rw [applyRegs]
      exact ih hw

theorem enterStandby_kept {σ τ : State} (hw : Kept σ τ) (cmds : List (Nat × List Byte)) : Kept σ (enterStandby cmds τ) := by
  unfold enterStandby
  repeat' (first
    | (extract_lets +onlyGivenNames x; try (refine (fun hx : Kept σ x => ?_) ?_; on_goal 1 => clear_value x; on_goal 2 => subst x))
    | with_reducible assumption | with_reducible rfl | with_reducible exact (fun h => h) | with_reducible apply goOnCmds_kept
    | with_reducible apply setDev_kept | with_reducible apply enterAcquire_kept | split | (rename State => x; subst x)
    | with_reducible apply flex_kept | with_reducible exact PortsKept.refl _)

theorem startRest_kept {σ τ : State} (hw : Kept σ τ) (idp : Nat) : Kept σ (startRest idp τ) := by
  unfold startRest
  repeat' (first
    | (extract_lets +onlyGivenNames x; try (refine (fun hx : Kept σ x => ?_) ?_; on_goal 1 => clear_value x; on_goal 2 => subst x))
    | with_reducible assumption | with_reducible rfl | with_reducible exact (fun h => h) | with_reducible apply each_kept | intro _ _ _
    | with_reducible apply logRestore_kept | with_reducible apply startPatch_kept | with_reducible apply startSlot_kept
    | with_reducible apply applyRegs_kept | with_reducible apply enterStandby_kept | split | (rename State => x; subst x)
    | with_reducible apply flex_kept | with_reducible exact PortsKept.refl _)

theorem startDone_kept {σ τ : State} (hw : Kept σ τ) (lb : BitVec 12) (mb : BitVec 20) (wqs : BitVec 64) : Kept σ (startDone lb mb wqs τ) := by
  rw [startDone]
  generalize idPage τ = o
  cases o with
  | none =>
    apply bypassAll_kept
    apply setDev_kept
    exact flex_kept hw _ _ _ _ _ _ _ _ _ _ _ _ _ _ _ _ _ _ _ rfl rfl id id id rfl (PortsKept.refl _)
  | some p =>
    have h := startBist_kept (startRead_kept hw p) lb mb wqs
    dsimp only
    generalize startBist lb mb wqs (startRead p τ) = x at h ⊢
    split
    · exact startRest_kept h _
    · exact h

theorem shutStep_kept {σ τ : State} (hw : Kept σ τ)  : Kept σ (shutStep τ) := by
  unfold shutStep
  repeat' (first
    | (extract_lets +onlyGivenNames x; try (refine (fun hx : Kept σ x => ?_) ?_; on_goal 1 => clear_value x; on_goal 2 => subst x))
    | with_reducible assumption | with_reducible rfl | with_reducible exact (fun h => h) | split | (rename State => x; subst x)
    | with_reducible apply flex_kept | with_reducible exact PortsKept.refl _)

theorem shutRecord_kept {σ τ : State} (hw : Kept σ τ) (result why : Nat) : Kept σ (shutRecord result why τ) := by
  unfold shutRecord
  repeat' (first
    | (extract_lets +onlyGivenNames x; try (refine (fun hx : Kept σ x => ?_) ?_; on_goal 1 => clear_value x; on_goal 2 => subst x))
    | with_reducible assumption | with_reducible rfl | with_reducible exact (fun h => h) | with_reducible apply keepAsk_kept
    | (rename State => x; subst x) | with_reducible apply flex_kept | with_reducible exact PortsKept.refl _)

theorem shutOff_kept {σ τ : State} (hw : Kept σ τ)  : Kept σ (shutOff τ) := by
  unfold shutOff
  repeat' (first
    | (extract_lets +onlyGivenNames x; try (refine (fun hx : Kept σ x => ?_) ?_; on_goal 1 => clear_value x; on_goal 2 => subst x))
    | with_reducible assumption | with_reducible rfl | with_reducible exact (fun h => h) | (rename State => x; subst x)
    | with_reducible apply flex_kept | with_reducible exact PortsKept.refl _)

theorem injUsed_kept {σ τ : State} (hw : Kept σ τ) (d : Nat) : Kept σ (injUsed d τ) := by
  unfold injUsed
  repeat' (first
    | (extract_lets +onlyGivenNames x; try (refine (fun hx : Kept σ x => ?_) ?_; on_goal 1 => clear_value x; on_goal 2 => subst x))
    | with_reducible assumption | with_reducible rfl | with_reducible exact (fun h => h) | split | (rename State => x; subst x)
    | with_reducible apply flex_kept | with_reducible exact PortsKept.refl _)

end Sys2Proof.Machine
end

