-- ==== Sys2Proof/Laws/Lookups.lean ====
section
/-! SUPPORT. Bobbins read back after the updates that name them. -/

namespace Sys2Proof.Machine

@[simp] theorem bobOf_setBob (b : Nat) (v : Bobbin) (s : State) : bobOf (setBob b v s) b = some v := tget_tset_same _ b v

theorem bobOf_setBob_other {b c : Nat} (h : c ≠ b) (v : Bobbin) (s : State) : bobOf (setBob b v s) c = bobOf s c := tget_tset_other _ h v

@[simp] theorem bobOf_modBob (b : Nat) (f : Bobbin → Bobbin) (s : State) : bobOf (modBob b f s) b = (bobOf s b).map f := tget_tmod_same _ b f

theorem bobOf_modBob_other {b c : Nat} (h : c ≠ b) (f : Bobbin → Bobbin) (s : State) : bobOf (modBob b f s) c = bobOf s c := tget_tmod_other _ h f

@[simp] theorem bobOf_waitAs (b : Nat) (w : BWait) (s : State) : bobOf (waitAs b w s) b = (bobOf s b).map fun v => { v with wait := w } :=
  bobOf_modBob b _ s

end Sys2Proof.Machine
end

