-- ==== Sys2Proof/Laws/PerInstr.lean ====
section
/-! SUPPORT. Per command: no word spells it, since the rows of spec/opcode_table.json give no bits. -/

namespace Sys2Proof.Laws

/-- No word that the host numbers by the table's bits spells the command. -/
def Row.Statement (i : Instr) : Prop := ∀ nbits w : Nat, decodeTableWord nbits w ≠ some i

/-- The lemma behind every case: the decoder answers none. -/
theorem Row.statement_of (i : Instr) : Row.Statement i := fun _ _ h => by cases h

theorem Row.read (b : Nat) : Row.Statement (.read b) := Row.statement_of _
theorem Row.readFresh (b : Nat) : Row.Statement (.readFresh b) := Row.statement_of _
theorem Row.readBlock (b : Nat) : Row.Statement (.readBlock b) := Row.statement_of _
theorem Row.write (b : Nat) : Row.Statement (.write b) := Row.statement_of _
theorem Row.writeMasked (b : Nat) : Row.Statement (.writeMasked b) := Row.statement_of _
theorem Row.writeBlock (b : Nat) : Row.Statement (.writeBlock b) := Row.statement_of _
theorem Row.zeroLine (b : Nat) : Row.Statement (.zeroLine b) := Row.statement_of _
theorem Row.claim (b : Nat) : Row.Statement (.claim b) := Row.statement_of _
theorem Row.release (b : Nat) : Row.Statement (.release b) := Row.statement_of _
theorem Row.atomic (b : Nat) : Row.Statement (.atomic b) := Row.statement_of _
theorem Row.lock (b : Nat) : Row.Statement (.lock b) := Row.statement_of _
theorem Row.unlock (b : Nat) : Row.Statement (.unlock b) := Row.statement_of _
theorem Row.subscribe (b : Nat) : Row.Statement (.subscribe b) := Row.statement_of _
theorem Row.unsubscribe (b : Nat) : Row.Statement (.unsubscribe b) := Row.statement_of _
theorem Row.flush (b : Nat) : Row.Statement (.flush b) := Row.statement_of _
theorem Row.invalidate (b : Nat) : Row.Statement (.invalidate b) := Row.statement_of _
theorem Row.clean (b : Nat) : Row.Statement (.clean b) := Row.statement_of _
theorem Row.pin (b : Nat) : Row.Statement (.pin b) := Row.statement_of _
theorem Row.unpin (b : Nat) : Row.Statement (.unpin b) := Row.statement_of _
theorem Row.prefetch (b : Nat) : Row.Statement (.prefetch b) := Row.statement_of _
theorem Row.mapRegion (b : Nat) : Row.Statement (.mapRegion b) := Row.statement_of _
theorem Row.unmapRegion (b : Nat) : Row.Statement (.unmapRegion b) := Row.statement_of _
theorem Row.setAttr (b : Nat) : Row.Statement (.setAttr b) := Row.statement_of _
theorem Row.bindCan (b : Nat) : Row.Statement (.bindCan b) := Row.statement_of _
theorem Row.unbindCan (b : Nat) : Row.Statement (.unbindCan b) := Row.statement_of _
theorem Row.queryRegion (b : Nat) : Row.Statement (.queryRegion b) := Row.statement_of _
theorem Row.readPhase (b : Nat) : Row.Statement (.readPhase b) := Row.statement_of _
theorem Row.waitPhase (b : Nat) : Row.Statement (.waitPhase b) := Row.statement_of _
theorem Row.picotArm (b : Nat) : Row.Statement (.picotArm b) := Row.statement_of _
theorem Row.picotCancel (b : Nat) : Row.Statement (.picotCancel b) := Row.statement_of _
theorem Row.setMainsSource (b : Nat) : Row.Statement (.setMainsSource b) := Row.statement_of _
theorem Row.readTopology (b : Nat) : Row.Statement (.readTopology b) := Row.statement_of _
theorem Row.inaugRequest (b : Nat) : Row.Statement (.inaugRequest b) := Row.statement_of _
theorem Row.patternPropose (b : Nat) : Row.Statement (.patternPropose b) := Row.statement_of _
theorem Row.patternQuery (b : Nat) : Row.Statement (.patternQuery b) := Row.statement_of _
theorem Row.roleQuery (b : Nat) : Row.Statement (.roleQuery b) := Row.statement_of _
theorem Row.roleClaim (b : Nat) : Row.Statement (.roleClaim b) := Row.statement_of _
theorem Row.loadPricking (b : Nat) : Row.Statement (.loadPricking b) := Row.statement_of _
theorem Row.counterRead (b : Nat) : Row.Statement (.counterRead b) := Row.statement_of _
theorem Row.sampleDrain (b : Nat) : Row.Statement (.sampleDrain b) := Row.statement_of _
theorem Row.clampLogRead (b : Nat) : Row.Statement (.clampLogRead b) := Row.statement_of _
theorem Row.inject (b : Nat) : Row.Statement (.inject b) := Row.statement_of _
theorem Row.bistSchedule (b : Nat) : Row.Statement (.bistSchedule b) := Row.statement_of _
theorem Row.bistResult (b : Nat) : Row.Statement (.bistResult b) := Row.statement_of _
theorem Row.shutdown (b : Nat) : Row.Statement (.shutdown b) := Row.statement_of _
theorem Row.echo (b : Nat) : Row.Statement (.echo b) := Row.statement_of _
theorem Row.badOpcode (t : Nat) : Row.Statement (.badOpcode t) := Row.statement_of _
theorem Row.jobFetch : Row.Statement (.jobFetch) := Row.statement_of _
theorem Row.commandTimeout (b : Nat) : Row.Statement (.commandTimeout b) := Row.statement_of _
theorem Row.waitPhaseReached (b : Nat) : Row.Statement (.waitPhaseReached b) := Row.statement_of _
theorem Row.rdShared (r : Rx) : Row.Statement (.rdShared r) := Row.statement_of _
theorem Row.rdOwn (r : Rx) : Row.Statement (.rdOwn r) := Row.statement_of _
theorem Row.ownNodata (r : Rx) : Row.Statement (.ownNodata r) := Row.statement_of _
theorem Row.wrPublish (r : Rx) : Row.Statement (.wrPublish r) := Row.statement_of _
theorem Row.wrMasked (r : Rx) : Row.Statement (.wrMasked r) := Row.statement_of _
theorem Row.atomicReq (r : Rx) : Row.Statement (.atomicReq r) := Row.statement_of _
theorem Row.lockReq (r : Rx) : Row.Statement (.lockReq r) := Row.statement_of _
theorem Row.unlockReq (r : Rx) : Row.Statement (.unlockReq r) := Row.statement_of _
theorem Row.subReq (r : Rx) : Row.Statement (.subReq r) := Row.statement_of _
theorem Row.unsubReq (r : Rx) : Row.Statement (.unsubReq r) := Row.statement_of _
theorem Row.writeback (r : Rx) : Row.Statement (.writeback r) := Row.statement_of _
theorem Row.evictClean (r : Rx) : Row.Statement (.evictClean r) := Row.statement_of _
theorem Row.readHome (r : Rx) : Row.Statement (.readHome r) := Row.statement_of _
theorem Row.homeFifoNext (la : Nat) : Row.Statement (.homeFifoNext la) := Row.statement_of _
theorem Row.dataShared (r : Rx) : Row.Statement (.dataShared r) := Row.statement_of _
theorem Row.dataOwn (r : Rx) : Row.Statement (.dataOwn r) := Row.statement_of _
theorem Row.grantOwn (r : Rx) : Row.Statement (.grantOwn r) := Row.statement_of _
theorem Row.update (r : Rx) : Row.Statement (.update r) := Row.statement_of _
theorem Row.invalidateMsg (r : Rx) : Row.Statement (.invalidateMsg r) := Row.statement_of _
theorem Row.recall (r : Rx) : Row.Statement (.recall r) := Row.statement_of _
theorem Row.ack (r : Rx) : Row.Statement (.ack r) := Row.statement_of _
theorem Row.nakRetry (r : Rx) : Row.Statement (.nakRetry r) := Row.statement_of _
theorem Row.atomicResult (r : Rx) : Row.Statement (.atomicResult r) := Row.statement_of _
theorem Row.leaseGrant (r : Rx) : Row.Statement (.leaseGrant r) := Row.statement_of _
theorem Row.leaseBreak (r : Rx) : Row.Statement (.leaseBreak r) := Row.statement_of _
theorem Row.invAck (r : Rx) : Row.Statement (.invAck r) := Row.statement_of _
theorem Row.recallData (r : Rx) : Row.Statement (.recallData r) := Row.statement_of _
theorem Row.recallNodata (r : Rx) : Row.Statement (.recallNodata r) := Row.statement_of _
theorem Row.migLine (r : Rx) : Row.Statement (.migLine r) := Row.statement_of _
theorem Row.migDir (r : Rx) : Row.Statement (.migDir r) := Row.statement_of _
theorem Row.migDone (r : Rx) : Row.Statement (.migDone r) := Row.statement_of _
theorem Row.requestResend (b : Nat) : Row.Statement (.requestResend b) := Row.statement_of _
theorem Row.homeResend (trk : Nat) : Row.Statement (.homeResend trk) := Row.statement_of _
theorem Row.leaseExpiry (la : Nat) : Row.Statement (.leaseExpiry la) := Row.statement_of _
theorem Row.heldLineRelease (la : Nat) : Row.Statement (.heldLineRelease la) := Row.statement_of _
theorem Row.adezoFrameReceive (f : RawFrame) : Row.Statement (.adezoFrameReceive f) := Row.statement_of _
theorem Row.frameRepeat (f : RawFrame) : Row.Statement (.frameRepeat f) := Row.statement_of _
theorem Row.heldRepeatSend (l : LaneId) (sd : Side) : Row.Statement (.heldRepeatSend l sd) := Row.statement_of _
theorem Row.reorderTimeout (src : Nat) (c : Cls) : Row.Statement (.reorderTimeout src c) := Row.statement_of _
theorem Row.foreignFrameReceive (l : LaneId) (sd : Side) (bytes : List Byte) : Row.Statement (.foreignFrameReceive l sd bytes) := Row.statement_of _
theorem Row.foreignWindowStart (l : LaneId) : Row.Statement (.foreignWindowStart l) := Row.statement_of _
theorem Row.macControlFrame (l : LaneId) (sd : Side) : Row.Statement (.macControlFrame l sd) := Row.statement_of _
theorem Row.rowStart : Row.Statement (.rowStart) := Row.statement_of _
theorem Row.hoopBoundary : Row.Statement (.hoopBoundary) := Row.statement_of _
theorem Row.ownStitchStart (stitch : Nat) : Row.Statement (.ownStitchStart stitch) := Row.statement_of _
theorem Row.delayedLaunch (l : LaneId) (sd : Side) : Row.Statement (.delayedLaunch l sd) := Row.statement_of _
theorem Row.migrationRetry (role : Nat) : Row.Statement (.migrationRetry role) := Row.statement_of _
theorem Row.rangingStitchStart (l : LaneId) : Row.Statement (.rangingStitchStart l) := Row.statement_of _
theorem Row.range (l : LaneId) (sd : Side) (m : RangeMsg) : Row.Statement (.range l sd m) := Row.statement_of _
theorem Row.rangingFallback (l : LaneId) (sd : Side) : Row.Statement (.rangingFallback l sd) := Row.statement_of _
theorem Row.rangingMiss (l : LaneId) (sd : Side) : Row.Statement (.rangingMiss l sd) := Row.statement_of _
theorem Row.disc (l : LaneId) (sd : Side) (ms : List DiscMsg) : Row.Statement (.disc l sd ms) := Row.statement_of _
theorem Row.reference (l : LaneId) (sd : Side) (hdrSide : Side) (r : RefMsg) (t : TrueMsg) (o : OriginMsg) (rowAt trueAt : Phase) : Row.Statement (.reference l sd hdrSide r t o rowAt trueAt) := Row.statement_of _
theorem Row.referenceMissed : Row.Statement (.referenceMissed) := Row.statement_of _
theorem Row.holdoverLimit : Row.Statement (.holdoverLimit) := Row.statement_of _
theorem Row.tvalidLossTimeout : Row.Statement (.tvalidLossTimeout) := Row.statement_of _
theorem Row.zxEdge (input : Nat) (rising : Bool) : Row.Statement (.zxEdge input rising) := Row.statement_of _
theorem Row.zxInputMissing (input : Nat) : Row.Statement (.zxInputMissing input) := Row.statement_of _
theorem Row.tenPhin (t : Nat) (v : Word) : Row.Statement (.tenPhin t v) := Row.statement_of _
theorem Row.picotCapture (ch : Nat) (rising : Bool) (ord : Bool) : Row.Statement (.picotCapture ch rising ord) := Row.statement_of _
theorem Row.picotOutputEdge (ch : Nat) : Row.Statement (.picotOutputEdge ch) := Row.statement_of _
theorem Row.picCapPop (ch : Nat) (v : Word) : Row.Statement (.picCapPop ch v) := Row.statement_of _
theorem Row.phtSnap (v : Word) : Row.Statement (.phtSnap v) := Row.statement_of _
theorem Row.call (fromRanging : Bool) (m : InaugMsg) : Row.Statement (.call fromRanging m) := Row.statement_of _
theorem Row.inaugClaim (src : Nat) (m : InaugMsg) : Row.Statement (.inaugClaim src m) := Row.statement_of _
theorem Row.digest (src : Nat) (m : DigestMsg) : Row.Statement (.digest src m) := Row.statement_of _
theorem Row.confirm (src : Nat) (m : InaugMsg) : Row.Statement (.confirm src m) := Row.statement_of _
theorem Row.drained (src : Nat) (m : InaugMsg) : Row.Statement (.drained src m) := Row.statement_of _
theorem Row.statusAgreed (m : InaugMsg) : Row.Statement (.statusAgreed m) := Row.statement_of _
theorem Row.statusCut (m : InaugMsg) : Row.Statement (.statusCut m) := Row.statement_of _
theorem Row.statusResume (m : InaugMsg) : Row.Statement (.statusResume m) := Row.statement_of _
theorem Row.agreementTimeout : Row.Statement (.agreementTimeout) := Row.statement_of _
theorem Row.drainLimit : Row.Statement (.drainLimit) := Row.statement_of _
theorem Row.isolationRetry : Row.Statement (.isolationRetry) := Row.statement_of _
theorem Row.patSwitchPropose (src : Nat) (m : PatMsg) : Row.Statement (.patSwitchPropose src m) := Row.statement_of _
theorem Row.patSwitchAck (src : Nat) (m : PatMsg) : Row.Statement (.patSwitchAck src m) := Row.statement_of _
theorem Row.patSwitchNack (src : Nat) (m : PatMsg) : Row.Statement (.patSwitchNack src m) := Row.statement_of _
theorem Row.patSwitchGo (m : PatMsg) : Row.Statement (.patSwitchGo m) := Row.statement_of _
theorem Row.patSwitchCancel (m : PatMsg) : Row.Statement (.patSwitchCancel m) := Row.statement_of _
theorem Row.mdioPoll (l : LaneId) (sd : Side) (data : BitVec 16) (rxc : Bool) (mbps1000 : Bool) : Row.Statement (.mdioPoll l sd data rxc mbps1000) := Row.statement_of _
theorem Row.rxcLoss (l : LaneId) (sd : Side) : Row.Statement (.rxcLoss l sd) := Row.statement_of _
theorem Row.linkConfirmed (l : LaneId) (sd : Side) : Row.Statement (.linkConfirmed l sd) := Row.statement_of _
theorem Row.couplerEdge (carEnd : Nat) (level : Bool) : Row.Statement (.couplerEdge carEnd level) := Row.statement_of _
theorem Row.relaySettle (l : LaneId) : Row.Statement (.relaySettle l) := Row.statement_of _
theorem Row.lanMdioCmd (v : Word) : Row.Statement (.lanMdioCmd v) := Row.statement_of _
theorem Row.lanEnableWrite (w : Who) (l : LaneId) (v : Word) : Row.Statement (.lanEnableWrite w l v) := Row.statement_of _
theorem Row.bypForceWrite (w : Who) (l : LaneId) (v : Word) : Row.Statement (.bypForceWrite w l v) := Row.statement_of _
theorem Row.laneSpeedWrite (w : Who) (l : LaneId) (v : Word) : Row.Statement (.laneSpeedWrite w l v) := Row.statement_of _
theorem Row.patStageHold (w : Who) (v : Word) : Row.Statement (.patStageHold w v) := Row.statement_of _
theorem Row.registerWrite (w : Who) (off : Nat) (v : Word) : Row.Statement (.registerWrite w off v) := Row.statement_of _
theorem Row.accessAlign (w : Who) (off : Nat) (wr : Bool) : Row.Statement (.accessAlign w off wr) := Row.statement_of _
theorem Row.rcRead (w : Who) (off : Nat) : Row.Statement (.rcRead w off) := Row.statement_of _
theorem Row.pmcLoRead (w : Who) (off : Nat) : Row.Statement (.pmcLoRead w off) := Row.statement_of _
theorem Row.pmcSelWrite (w : Who) (off : Nat) (v : Word) : Row.Statement (.pmcSelWrite w off v) := Row.statement_of _
theorem Row.pmcCtrlClr (w : Who) (v : Word) : Row.Statement (.pmcCtrlClr w v) := Row.statement_of _
theorem Row.evtPendClear (w : Who) (j : Nat) (v : Word) : Row.Statement (.evtPendClear w j v) := Row.statement_of _
theorem Row.msixGapEnd (fn vec : Nat) : Row.Statement (.msixGapEnd fn vec) := Row.statement_of _
theorem Row.irqcoalTime (t : Nat) : Row.Statement (.irqcoalTime t) := Row.statement_of _
theorem Row.tenDb (t : Nat) (v : Word) : Row.Statement (.tenDb t v) := Row.statement_of _
theorem Row.tenCqdb (t : Nat) (v : Word) : Row.Statement (.tenCqdb t v) := Row.statement_of _
theorem Row.cqHeadPoll (t : Nat) : Row.Statement (.cqHeadPoll t) := Row.statement_of _
theorem Row.tenRctlWrite (t : Nat) (v : Word) : Row.Statement (.tenRctlWrite t v) := Row.statement_of _
theorem Row.tenantEnableWrite (t : Nat) (v : Word) : Row.Statement (.tenantEnableWrite t v) := Row.statement_of _
theorem Row.freset (t : Nat) (v : Word) : Row.Statement (.freset t v) := Row.statement_of _
theorem Row.tenantResetTimeout (t : Nat) : Row.Statement (.tenantResetTimeout t) := Row.statement_of _
theorem Row.resetDone (t : Nat) : Row.Statement (.resetDone t) := Row.statement_of _
theorem Row.pcieFunctionReset (kind : PcieReset) (fn : Nat) : Row.Statement (.pcieFunctionReset kind fn) := Row.statement_of _
theorem Row.perstAssert : Row.Statement (.perstAssert) := Row.statement_of _
theorem Row.dmaReadComplete (id : Nat) (r : DmaResult) : Row.Statement (.dmaReadComplete id r) := Row.statement_of _
theorem Row.ramWrite (f : SpiFrame) : Row.Statement (.ramWrite f) := Row.statement_of _
theorem Row.ramRead (f : SpiFrame) : Row.Statement (.ramRead f) := Row.statement_of _
theorem Row.regWrite (f : SpiFrame) : Row.Statement (.regWrite f) := Row.statement_of _
theorem Row.regRead (f : SpiFrame) : Row.Statement (.regRead f) := Row.statement_of _
theorem Row.status (f : SpiFrame) : Row.Statement (.status f) := Row.statement_of _
theorem Row.portReset (f : SpiFrame) : Row.Statement (.portReset f) := Row.statement_of _
theorem Row.canFrameReceived (port : Nat) (f : CanFrame) (tsc : Word) (excRes : Bool) : Row.Statement (.canFrameReceived port f tsc excRes) := Row.statement_of _
theorem Row.txDone (port : Nat) (tsc : Word) : Row.Statement (.txDone port tsc) := Row.statement_of _
theorem Row.txAborted (port : Nat) : Row.Statement (.txAborted port) := Row.statement_of _
theorem Row.errFrame (port : Nat) (code : Nat) (tec rec : Nat) : Row.Statement (.errFrame port code tec rec) := Row.statement_of _
theorem Row.busOn (port : Nat) : Row.Statement (.busOn port) := Row.statement_of _
theorem Row.boreq (port : Nat) : Row.Statement (.boreq port) := Row.statement_of _
theorem Row.confRequest (port : Nat) (v : Word) : Row.Statement (.confRequest port v) := Row.statement_of _
theorem Row.confDone (port : Nat) : Row.Statement (.confDone port) := Row.statement_of _
theorem Row.confRefused (port : Nat) (off : Nat) : Row.Statement (.confRefused port off) := Row.statement_of _
theorem Row.confLeave (port : Nat) (v : Word) : Row.Statement (.confLeave port v) := Row.statement_of _
theorem Row.integrationDone (port : Nat) : Row.Statement (.integrationDone port) := Row.statement_of _
theorem Row.objLock (port obj : Nat) : Row.Statement (.objLock port obj) := Row.statement_of _
theorem Row.objUnlock (port obj : Nat) : Row.Statement (.objUnlock port obj) := Row.statement_of _
theorem Row.txreq (port obj : Nat) : Row.Statement (.txreq port obj) := Row.statement_of _
theorem Row.txcancel (port obj : Nat) : Row.Statement (.txcancel port obj) := Row.statement_of _
theorem Row.objClear (port obj : Nat) : Row.Statement (.objClear port obj) := Row.statement_of _
theorem Row.qtxRequest (port buf : Nat) : Row.Statement (.qtxRequest port buf) := Row.statement_of _
theorem Row.qtxCancel (port buf : Nat) : Row.Statement (.qtxCancel port buf) := Row.statement_of _
theorem Row.rxqAck (port q m : Nat) : Row.Statement (.rxqAck port q m) := Row.statement_of _
theorem Row.bindRxWrite (ix : Nat) : Row.Statement (.bindRxWrite ix) := Row.statement_of _
theorem Row.bindTxLoad (port : Nat) : Row.Statement (.bindTxLoad port) := Row.statement_of _
theorem Row.detectorFire (d : Nat) (index : Nat) (value : Word) (injected : Bool) : Row.Statement (.detectorFire d index value injected) := Row.statement_of _
theorem Row.watchdogExpiry : Row.Statement (.watchdogExpiry) := Row.statement_of _
theorem Row.ccWindowEnd : Row.Statement (.ccWindowEnd) := Row.statement_of _
theorem Row.wayctlDrain (q : Nat) (way : Nat) : Row.Statement (.wayctlDrain q way) := Row.statement_of _
theorem Row.wayctlOn (q : Nat) (way : Nat) : Row.Statement (.wayctlOn q way) := Row.statement_of _
theorem Row.ccWayOff (q : Nat) (way : Nat) : Row.Statement (.ccWayOff q way) := Row.statement_of _
theorem Row.scrubStep (st : ScrubStore) (r : ScrubFind) : Row.Statement (.scrubStep st r) := Row.statement_of _
theorem Row.keeRead (page : Nat) : Row.Statement (.keeRead page) := Row.statement_of _
theorem Row.keeWrite (page : Nat) : Row.Statement (.keeWrite page) := Row.statement_of _
theorem Row.keeVerify : Row.Statement (.keeVerify) := Row.statement_of _
theorem Row.keepPageWriteDone (same : Bool) (hot : Bool) : Row.Statement (.keepPageWriteDone same hot) := Row.statement_of _
theorem Row.keepDailyRead (page : Nat) (r : ScrubFind) : Row.Statement (.keepDailyRead page r) := Row.statement_of _
theorem Row.clampLogPersist : Row.Statement (.clampLogPersist) := Row.statement_of _
theorem Row.intClampClear (v : Word) : Row.Statement (.intClampClear v) := Row.statement_of _
theorem Row.powerUpStart (straps : BitVec 4) : Row.Statement (.powerUpStart straps) := Row.statement_of _
theorem Row.railFall (r : Rail) : Row.Statement (.railFall r) := Row.statement_of _
theorem Row.resetAssert : Row.Statement (.resetAssert) := Row.statement_of _
theorem Row.glbReset (w : Who) (v : Word) : Row.Statement (.glbReset w v) := Row.statement_of _
theorem Row.startComplete (lbFail : BitVec 12) (mbFail : BitVec 20) (wqFail : BitVec 64) : Row.Statement (.startComplete lbFail mbFail wqFail) := Row.statement_of _
theorem Row.glbRun (v : Word) : Row.Statement (.glbRun v) := Row.statement_of _
theorem Row.glbAutostartWrite (w : Who) (v : Word) : Row.Statement (.glbAutostartWrite w v) := Row.statement_of _
theorem Row.shdnReq : Row.Statement (.shdnReq) := Row.statement_of _
theorem Row.sentLow : Row.Statement (.sentLow) := Row.statement_of _
theorem Row.bistDecision (sinceSent : Nat) : Row.Statement (.bistDecision sinceSent) := Row.statement_of _
theorem Row.logicBistDone (fail : BitVec 12) : Row.Statement (.logicBistDone fail) := Row.statement_of _
theorem Row.memoryBistDone (fail : BitVec 20) (wq : BitVec 64) : Row.Statement (.memoryBistDone fail wq) := Row.statement_of _
theorem Row.bistHoldupAbort (elapsed stillNeeded : Nat) : Row.Statement (.bistHoldupAbort elapsed stillNeeded) := Row.statement_of _
theorem Row.pinMuxWrite (w : Who) (k : Nat) (v : Word) : Row.Statement (.pinMuxWrite w k v) := Row.statement_of _
theorem Row.pinTick : Row.Statement (.pinTick) := Row.statement_of _
theorem Row.glbClkgateWrite (w : Who) (j : Nat) (v : Word) : Row.Statement (.glbClkgateWrite w j v) := Row.statement_of _
theorem Row.dapacc (addr : Nat) (wr take : Bool) (data : Word) : Row.Statement (.dapacc addr wr take data) := Row.statement_of _
theorem Row.dbgHalt : Row.Statement (.dbgHalt) := Row.statement_of _
theorem Row.dbgResume : Row.Statement (.dbgResume) := Row.statement_of _
theorem Row.dbgStep : Row.Statement (.dbgStep) := Row.statement_of _
theorem Row.dbgHaltLong : Row.Statement (.dbgHaltLong) := Row.statement_of _
theorem Row.mdioFrameDone (rdata : BitVec 16) : Row.Statement (.mdioFrameDone rdata) := Row.statement_of _
theorem Row.spiFrameInvalid (port : Nat) : Row.Statement (.spiFrameInvalid port) := Row.statement_of _
theorem Row.pcieConfigWrite (c : PcieCfg) : Row.Statement (.pcieConfigWrite c) := Row.statement_of _
theorem Row.pcieLinkUp : Row.Statement (.pcieLinkUp) := Row.statement_of _
theorem Row.postedWriteCredit : Row.Statement (.postedWriteCredit) := Row.statement_of _
theorem Row.rgmiiRailBack : Row.Statement (.rgmiiRailBack) := Row.statement_of _
theorem Row.trueHoopBoundary : Row.Statement (.trueHoopBoundary) := Row.statement_of _
theorem Row.ctcInputChange (level : Bool) : Row.Statement (.ctcInputChange level) := Row.statement_of _
theorem Row.laneCopyTimeout (kind stitch : Nat) : Row.Statement (.laneCopyTimeout kind stitch) := Row.statement_of _
theorem Row.keepReadDone (r : ScrubFind) : Row.Statement (.keepReadDone r) := Row.statement_of _
theorem Row.ledBlink (fault : Bool) : Row.Statement (.ledBlink fault) := Row.statement_of _
theorem Row.pmcCycleWrap (ix : Nat) : Row.Statement (.pmcCycleWrap ix) := Row.statement_of _

end Sys2Proof.Laws
end

