-- ==== Sys2Proof/Laws/Registers.lean ====
section
/-! SUPPORT. What a register write can change: the clamp log, the clock gates, and plain registers. -/

namespace Sys2Proof

open Machine

/-- Recording clamps changes the clamp log and otherwise only reports (13 R645, R648). -/
theorem logClamp_reports (c : ClampRec) (s : State) : Reports { s with int := (logClamp c s).int } (logClamp c s) := by
  have h : ∀ u : State, ∀ t, Reports u t → u = { s with int := u.int } → Reports { s with int := t.int } t := by
    intro u t hr hu
    have : t.int = u.int := hr.int
    rw [this, ← hu]; exact hr
  unfold logClamp
  extract_lets i a b e
  split
  · refine h _ _ (.ite ((raise_reports 432 (detN i 0) _).trans (raise_reports _ _ _)) (raise_reports _ _ _)) rfl
  · exact h _ _ (raise_reports 432 (detN 0xFFFF 0) _) rfl
theorem logClamps_reports (cause : ClampBy) (loc : Nat) (cs : List Clamped) (s : State) :
    Reports { s with int := (logClamps cause loc cs s).int } (logClamps cause loc cs s) := by
  unfold logClamps each
  induction cs generalizing s with
  | nil => exact .refl s
  | cons c cs ih =>
    simp only [List.foldl_cons]
    generalize hx : logClamp _ s = x
    have h1 : Reports { s with int := x.int } x := by rw [← hx]; exact logClamp_reports _ _
    refine Reports.trans ?_ (ih x)
    exact { h1 with int := rfl, ten := h1.ten }
/-- A clamp raises CLAMP, event 432 (13 R645). -/
theorem logClamps_raises (cause : ClampBy) (loc : Nat) (cs : List Clamped) (s : State) (h : cs ≠ []) :
    Raised 432 (logClamps cause loc cs s) := by
  have h1 : ∀ c s, Raised 432 (logClamp c s) := by
    intro c s
    unfold logClamp
    extract_lets i a b e
    split
    · split
      · exact (raise_reports _ _ _).pend _ (raise_pend (e := 432) (by norm_num) _ _)
      · exact raise_pend (e := 432) (by norm_num) _ _
    · exact raise_pend (e := 432) (by norm_num) _ _
  cases cs with
  | nil => exact absurd rfl h
  | cons c cs =>
    have := logClamps_reports cause loc cs (logClamp {
    kind := cause.kind, ten := cause.ten, debug := cause.debug, op := cause.op, flsb := c.lo, fwid := c.w
    loc := loc, hoop := s.tm.hoop.toNat % 256, written := word c.written, stored := word c.stored } s)
    exact this.pend 432 (h1 _ _)


/-- Ungating changes only the clock-gate registers (14 R696). -/
theorem ungate_reg (s : State) : ungate s = { s with reg := (ungate s).reg } ∧ (ungate s).reg.staged = s.reg.staged ∧ (ungate s).reg.ctr = s.reg.ctr ∧ (ungate s).reg.stagedClk = s.reg.stagedClk
    ∧ ∀ o, ¬(0x60 ≤ o ∧ o < 0x7C) → tget (ungate s).reg.cur o = tget s.reg.cur o := by
  unfold ungate
  have key : ∀ (l : List Nat) (u : State), (∀ d ∈ l, d < 204) → 
      let r := l.foldl (fun s d => fldSet (0x60 + 4 * (d / 32)) (d % 32) 1 0 s) u
      r = { u with reg := r.reg } ∧ r.reg.staged = u.reg.staged ∧ r.reg.ctr = u.reg.ctr ∧ r.reg.stagedClk = u.reg.stagedClk
    ∧ ∀ o, ¬(0x60 ≤ o ∧ o < 0x7C) → tget r.reg.cur o = tget u.reg.cur o := by
    intro l
    induction l with
    | nil => intro u _; exact ⟨rfl, rfl, rfl, rfl, fun _ _ => rfl⟩
    | cons d l ih =>
      intro u hd
      have := ih (fldSet (0x60 + 4 * (d / 32)) (d % 32) 1 0 u) (fun x hx => hd x (List.mem_cons_of_mem _ hx))
      obtain ⟨h1, h2, h3, h4, h5⟩ := this
      refine ⟨h1.trans rfl, h2, h3, h4, fun o ho => (h5 o ho).trans ?_⟩
      have hdl := hd d (by simp)
      have hne : o ≠ 0x60 + 4 * (d / 32) := by omega
      simp only [fldSet, regSet, RegSt.put]
      split
      · exact tget_tdel_other _ hne
      · exact tget_tset_other _ hne _
  refine key _ _ ?_
  intro d hd
  simp only [gatesFreed, List.mem_filterMap, List.mem_range] at hd
  obtain ⟨i, hi, h⟩ := hd
  split at h <;> simp at h
  omega

/-- Where its block's table names no register, an offset has no fields. -/
theorem regFlds_unnamed {off : Nat} {l : List RegSpec} (hb : specBlock off = l) (hn : l.find? (·.covers off) = none) : regFlds off = [] := by
  unfold regFlds
  rw [hb, hn]

/-- The picot channels' registers have no entry in the phase block's table: they are state of their own. -/
theorem picots_have_no_fields {off : Nat} (h : 0x3100 ≤ off ∧ off < 0x3580) : regFlds off = [] :=
  regFlds_unnamed (l := specPht) (by unfold specBlock; split_ifs <;> first | rfl | omega)
    (by simp [specPht, RegSpec.covers]; omega)

/-- The words of EVT_PEND have no entry in their block's table: they are state of their own. -/
theorem pends_have_no_fields {off : Nat} (h : 0xA800 ≤ off ∧ off < 0xA840) : regFlds off = [] :=
  regFlds_unnamed (l := specHigh) (by unfold specBlock; split_ifs <;> first | rfl | omega)
    (by simp [specHigh, RegSpec.covers]; omega)

/-- A plain register lies in no gated block. -/
theorem plain_gates {off : Nat} (h : PlainRegister off) : gatesOf off = [] := by
  obtain ⟨h1, h2, h3⟩ := h
  by_contra hg
  apply h2
  have : 0x3100 ≤ off ∧ off < 0x3580 := by
    unfold gatesOf at hg
    simp at h3
    split_ifs at hg <;> first | omega | exact absurd rfl hg
  exact picots_have_no_fields this

/-- A write of a plain register is checked and stored, and nothing more. -/
theorem plain_writeAt {off : Nat} (h : PlainRegister off) (c : ClampBy) (v : Nat) (s : State) : writeAt c off v s = regPutChecked c off v s := by
  obtain ⟨h1, h2, h3⟩ := h
  have hsp : ∀ o ∈ [0x2010, 0x600C, 0x8810, 0x8814, 0x8818, 0x881C, 0xC000, 0xC004, 0xC034, 0xD000], off ≠ o := by
    intro o ho he
    subst he
    apply h2
    simp at ho
    rcases ho with rfl | rfl | rfl | rfl | rfl | rfl | rfl | rfl | rfl | rfl <;> decide
  have hA : ¬(0xA800 ≤ off ∧ off < 0xA840) := by
    exact fun hh => h2 (pends_have_no_fields hh)
  have h3x : ¬ (0x3100 ≤ off ∧ off < 0x3580) := by
    exact fun hh => h2 (picots_have_no_fields hh)
  simp at hsp
  obtain ⟨p1, p2, p3, p4, p5, p6, p7, p8, p9, p10⟩ := hsp
  simp only [List.mem_cons, List.not_mem_nil, or_false] at h3
  unfold writeAt
  extract_lets r n r2
  have hr : r = off % 0x1000 := rfl
  rcases h3 with h | h | h | h | h | h | h | h | h <;>
    (rw [if_neg (by omega), if_neg (by omega), if_neg (by omega), h])
  · show (if r = 0x010 then _ else _) = _
    rw [if_neg (by omega)]
  · show (if 0x100 ≤ r ∧ r < 0x400 then _ else _) = _
    rw [if_neg (by omega), if_neg (by omega)]
  · show (if r = 0x00C then _ else _) = _
    rw [if_neg (by omega)]
  · rfl
  · show (if 0x810 ≤ r ∧ r < 0x820 then _ else _) = _
    rw [if_neg (by omega)]
  · show (if 0x800 ≤ r ∧ r < 0x840 then _ else _) = _
    rw [if_neg (by omega)]
  · show (if r = 0x000 ∨ r = 0x004 then _ else _) = _
    rw [if_neg (by omega), if_neg (by omega)]
  · show (if r = 0x000 then _ else _) = _
    rw [if_neg (by omega)]
  · rfl

theorem stewardly_writeBy {w : Who} (hw : stewardly w = true) {off : Nat} (v : Nat) (s : State) (hr : reachable s = true) (h4 : off % 4 = 0) :
    writeBy w off v s = gatedWrite off (writeAt (byWho w) off v) s := by
  unfold writeBy
  rw [if_neg (by simp [hr]), if_neg (by omega)]
  cases w <;> first | rfl | cases hw
theorem regCur_eq {s t : State} {o : Nat} (h : tget t.reg.cur o = tget s.reg.cur o) : regCur t o = regCur s o := by
  unfold regCur; rw [h]

end Sys2Proof
end

