-- ==== Sys2Proof/Laws/Sides.lean ====
section
/-! SUPPORT. Lanes and sides read back after an update: the one changed, its other side, and every other lane. -/

namespace Sys2Proof.Machine

@[simp] theorem modLane_lanes_length (l : LaneId) (f : LaneSt → LaneSt) (s : State) :
    (modLane l f s).lan.lanes.length = s.lan.lanes.length := List.length_modify ..

@[simp] theorem modSide_lanes_length (l : LaneId) (sd : Side) (f : SideSt → SideSt) (s : State) :
    (modSide l sd f s).lan.lanes.length = s.lan.lanes.length := List.length_modify ..

theorem laneIx_lt (l : LaneId) : laneIx l < 3 := by cases l <;> decide

theorem laneIx_inj {l m : LaneId} : laneIx l = laneIx m ↔ l = m := by cases l <;> cases m <;> decide

theorem laneAt_modLane {s : State} (h : s.lan.lanes.length = 3) (l m : LaneId) (f : LaneSt → LaneSt) :
    laneAt (modLane l f s) m = if l = m then f (laneAt s m) else laneAt s m := by
  have hm : laneIx m < s.lan.lanes.length := h ▸ laneIx_lt m
  simp only [laneAt, modLane, List.getD_eq_getElem?_getD, List.getElem?_modify, laneIx_inj, List.getElem?_eq_getElem hm]
  split <;> simp_all

theorem sideOf_eq (s : State) (l : LaneId) (sd : Side) : sideOf s l sd = (match sd with | .e1 => (laneAt s l).e1 | .e2 => (laneAt s l).e2) := rfl

theorem sideOf_modLane {s : State} (h : s.lan.lanes.length = 3) (l m : LaneId) (f : LaneSt → LaneSt) (sd : Side)
    (hf : ∀ x, (f x).e1 = x.e1 ∧ (f x).e2 = x.e2) : sideOf (modLane l f s) m sd = sideOf s m sd := by
  simp only [sideOf_eq, laneAt_modLane h]
  cases sd <;> dsimp only <;> split <;> simp [hf]

theorem sideOf_modSide {s : State} (h : s.lan.lanes.length = 3) (l m : LaneId) (sd se : Side) (f : SideSt → SideSt) :
    sideOf (modSide l sd f s) m se = if l = m ∧ sd = se then f (sideOf s m se) else sideOf s m se := by
  simp only [sideOf_eq, modSide, laneAt_modLane h]
  by_cases hl : l = m <;> cases sd <;> cases se <;> simp [hl]

/-- The side changed. -/
@[simp] theorem sideOf_modSide_self {s : State} (h : s.lan.lanes.length = 3) (l : LaneId) (sd : Side) (f : SideSt → SideSt) :
    sideOf (modSide l sd f s) l sd = f (sideOf s l sd) := by simp [sideOf_modSide h]

/-- The other side of its lane. -/
@[simp] theorem sideOf_modSide_other {s : State} (h : s.lan.lanes.length = 3) (l : LaneId) (sd : Side) (f : SideSt → SideSt) :
    sideOf (modSide l sd f s) l (other sd) = sideOf s l (other sd) := by
  rw [sideOf_modSide h, if_neg]
  rintro ⟨-, h⟩
  cases sd <;> simp [other] at h

@[simp] theorem sideOf_modSide_back {s : State} (h : s.lan.lanes.length = 3) (l : LaneId) (sd : Side) (f : SideSt → SideSt) :
    sideOf (modSide l (other sd) f s) l sd = sideOf s l sd := by
  rw [sideOf_modSide h, if_neg]
  rintro ⟨-, h⟩
  cases sd <;> simp [other] at h

end Sys2Proof.Machine

namespace Sys2Proof
open Machine

theorem Reports.sideOf {s t : State} (h : Reports s t) (l : LaneId) (sd : Side) : sideOf t l sd = sideOf s l sd := by
  simp only [Machine.sideOf, h.lan]

theorem Reports.laneAt {s t : State} (h : Reports s t) (l : LaneId) : laneAt t l = laneAt s l := by simp only [Machine.laneAt, h.lan]

end Sys2Proof
end

