-- ==== Sys2Proof/Laws/State.lean ====
section
/-! SUPPORT. What each named update of the state leaves alone: one lemma per update and field, so that no proof unfolds a record update.
Each is true by definition. -/

namespace Sys2Proof.Machine

/-! `regSet` changes `reg` alone. -/

@[simp] theorem regSet_dev (off v : Nat) (s : State) : (regSet off v s).dev = s.dev := rfl
@[simp] theorem regSet_tm (off v : Nat) (s : State) : (regSet off v s).tm = s.tm := rfl
@[simp] theorem regSet_zx (off v : Nat) (s : State) : (regSet off v s).zx = s.zx := rfl
@[simp] theorem regSet_pic (off v : Nat) (s : State) : (regSet off v s).pic = s.pic := rfl
@[simp] theorem regSet_lan (off v : Nat) (s : State) : (regSet off v s).lan = s.lan := rfl
@[simp] theorem regSet_pat (off v : Nat) (s : State) : (regSet off v s).pat = s.pat := rfl
@[simp] theorem regSet_trn (off v : Nat) (s : State) : (regSet off v s).trn = s.trn := rfl
@[simp] theorem regSet_home (off v : Nat) (s : State) : (regSet off v s).home = s.home := rfl
@[simp] theorem regSet_heldLeases (off v : Nat) (s : State) : (regSet off v s).heldLeases = s.heldLeases := rfl
@[simp] theorem regSet_cc (off v : Nat) (s : State) : (regSet off v s).cc = s.cc := rfl
@[simp] theorem regSet_kee (off v : Nat) (s : State) : (regSet off v s).kee = s.kee := rfl
@[simp] theorem regSet_ten (off v : Nat) (s : State) : (regSet off v s).ten = s.ten := rfl
@[simp] theorem regSet_can (off v : Nat) (s : State) : (regSet off v s).can = s.can := rfl
@[simp] theorem regSet_evt (off v : Nat) (s : State) : (regSet off v s).evt = s.evt := rfl
@[simp] theorem regSet_pmc (off v : Nat) (s : State) : (regSet off v s).pmc = s.pmc := rfl
@[simp] theorem regSet_dbg (off v : Nat) (s : State) : (regSet off v s).dbg = s.dbg := rfl
@[simp] theorem regSet_int (off v : Nat) (s : State) : (regSet off v s).int = s.int := rfl
@[simp] theorem regSet_out (off v : Nat) (s : State) : (regSet off v s).out = s.out := rfl
@[simp] theorem regSet_pending (off v : Nat) (s : State) : (regSet off v s).pending = s.pending := rfl

/-! `count` changes `reg` alone. -/

@[simp] theorem count_dev (off n : Nat) (s : State) : (count off n s).dev = s.dev := rfl
@[simp] theorem count_tm (off n : Nat) (s : State) : (count off n s).tm = s.tm := rfl
@[simp] theorem count_zx (off n : Nat) (s : State) : (count off n s).zx = s.zx := rfl
@[simp] theorem count_pic (off n : Nat) (s : State) : (count off n s).pic = s.pic := rfl
@[simp] theorem count_lan (off n : Nat) (s : State) : (count off n s).lan = s.lan := rfl
@[simp] theorem count_pat (off n : Nat) (s : State) : (count off n s).pat = s.pat := rfl
@[simp] theorem count_trn (off n : Nat) (s : State) : (count off n s).trn = s.trn := rfl
@[simp] theorem count_home (off n : Nat) (s : State) : (count off n s).home = s.home := rfl
@[simp] theorem count_heldLeases (off n : Nat) (s : State) : (count off n s).heldLeases = s.heldLeases := rfl
@[simp] theorem count_cc (off n : Nat) (s : State) : (count off n s).cc = s.cc := rfl
@[simp] theorem count_kee (off n : Nat) (s : State) : (count off n s).kee = s.kee := rfl
@[simp] theorem count_ten (off n : Nat) (s : State) : (count off n s).ten = s.ten := rfl
@[simp] theorem count_can (off n : Nat) (s : State) : (count off n s).can = s.can := rfl
@[simp] theorem count_evt (off n : Nat) (s : State) : (count off n s).evt = s.evt := rfl
@[simp] theorem count_pmc (off n : Nat) (s : State) : (count off n s).pmc = s.pmc := rfl
@[simp] theorem count_dbg (off n : Nat) (s : State) : (count off n s).dbg = s.dbg := rfl
@[simp] theorem count_int (off n : Nat) (s : State) : (count off n s).int = s.int := rfl
@[simp] theorem count_out (off n : Nat) (s : State) : (count off n s).out = s.out := rfl
@[simp] theorem count_pending (off n : Nat) (s : State) : (count off n s).pending = s.pending := rfl

/-! `ctrClear` changes `reg` alone. -/

@[simp] theorem ctrClear_dev (off : Nat) (s : State) : (ctrClear off s).dev = s.dev := rfl
@[simp] theorem ctrClear_tm (off : Nat) (s : State) : (ctrClear off s).tm = s.tm := rfl
@[simp] theorem ctrClear_zx (off : Nat) (s : State) : (ctrClear off s).zx = s.zx := rfl
@[simp] theorem ctrClear_pic (off : Nat) (s : State) : (ctrClear off s).pic = s.pic := rfl
@[simp] theorem ctrClear_lan (off : Nat) (s : State) : (ctrClear off s).lan = s.lan := rfl
@[simp] theorem ctrClear_pat (off : Nat) (s : State) : (ctrClear off s).pat = s.pat := rfl
@[simp] theorem ctrClear_trn (off : Nat) (s : State) : (ctrClear off s).trn = s.trn := rfl
@[simp] theorem ctrClear_home (off : Nat) (s : State) : (ctrClear off s).home = s.home := rfl
@[simp] theorem ctrClear_heldLeases (off : Nat) (s : State) : (ctrClear off s).heldLeases = s.heldLeases := rfl
@[simp] theorem ctrClear_cc (off : Nat) (s : State) : (ctrClear off s).cc = s.cc := rfl
@[simp] theorem ctrClear_kee (off : Nat) (s : State) : (ctrClear off s).kee = s.kee := rfl
@[simp] theorem ctrClear_ten (off : Nat) (s : State) : (ctrClear off s).ten = s.ten := rfl
@[simp] theorem ctrClear_can (off : Nat) (s : State) : (ctrClear off s).can = s.can := rfl
@[simp] theorem ctrClear_evt (off : Nat) (s : State) : (ctrClear off s).evt = s.evt := rfl
@[simp] theorem ctrClear_pmc (off : Nat) (s : State) : (ctrClear off s).pmc = s.pmc := rfl
@[simp] theorem ctrClear_dbg (off : Nat) (s : State) : (ctrClear off s).dbg = s.dbg := rfl
@[simp] theorem ctrClear_int (off : Nat) (s : State) : (ctrClear off s).int = s.int := rfl
@[simp] theorem ctrClear_out (off : Nat) (s : State) : (ctrClear off s).out = s.out := rfl
@[simp] theorem ctrClear_pending (off : Nat) (s : State) : (ctrClear off s).pending = s.pending := rfl

/-! `modTen` changes `ten` alone. -/

@[simp] theorem modTen_dev (n : Nat) (f : Ten → Ten) (s : State) : (modTen n f s).dev = s.dev := rfl
@[simp] theorem modTen_reg (n : Nat) (f : Ten → Ten) (s : State) : (modTen n f s).reg = s.reg := rfl
@[simp] theorem modTen_tm (n : Nat) (f : Ten → Ten) (s : State) : (modTen n f s).tm = s.tm := rfl
@[simp] theorem modTen_zx (n : Nat) (f : Ten → Ten) (s : State) : (modTen n f s).zx = s.zx := rfl
@[simp] theorem modTen_pic (n : Nat) (f : Ten → Ten) (s : State) : (modTen n f s).pic = s.pic := rfl
@[simp] theorem modTen_lan (n : Nat) (f : Ten → Ten) (s : State) : (modTen n f s).lan = s.lan := rfl
@[simp] theorem modTen_pat (n : Nat) (f : Ten → Ten) (s : State) : (modTen n f s).pat = s.pat := rfl
@[simp] theorem modTen_trn (n : Nat) (f : Ten → Ten) (s : State) : (modTen n f s).trn = s.trn := rfl
@[simp] theorem modTen_home (n : Nat) (f : Ten → Ten) (s : State) : (modTen n f s).home = s.home := rfl
@[simp] theorem modTen_heldLeases (n : Nat) (f : Ten → Ten) (s : State) : (modTen n f s).heldLeases = s.heldLeases := rfl
@[simp] theorem modTen_cc (n : Nat) (f : Ten → Ten) (s : State) : (modTen n f s).cc = s.cc := rfl
@[simp] theorem modTen_kee (n : Nat) (f : Ten → Ten) (s : State) : (modTen n f s).kee = s.kee := rfl
@[simp] theorem modTen_can (n : Nat) (f : Ten → Ten) (s : State) : (modTen n f s).can = s.can := rfl
@[simp] theorem modTen_evt (n : Nat) (f : Ten → Ten) (s : State) : (modTen n f s).evt = s.evt := rfl
@[simp] theorem modTen_pmc (n : Nat) (f : Ten → Ten) (s : State) : (modTen n f s).pmc = s.pmc := rfl
@[simp] theorem modTen_dbg (n : Nat) (f : Ten → Ten) (s : State) : (modTen n f s).dbg = s.dbg := rfl
@[simp] theorem modTen_int (n : Nat) (f : Ten → Ten) (s : State) : (modTen n f s).int = s.int := rfl
@[simp] theorem modTen_out (n : Nat) (f : Ten → Ten) (s : State) : (modTen n f s).out = s.out := rfl
@[simp] theorem modTen_pending (n : Nat) (f : Ten → Ten) (s : State) : (modTen n f s).pending = s.pending := rfl

/-! `latch` changes `evt` alone. -/

@[simp] theorem latch_dev (ev : Nat) (s : State) : (latch ev s).dev = s.dev := rfl
@[simp] theorem latch_reg (ev : Nat) (s : State) : (latch ev s).reg = s.reg := rfl
@[simp] theorem latch_tm (ev : Nat) (s : State) : (latch ev s).tm = s.tm := rfl
@[simp] theorem latch_zx (ev : Nat) (s : State) : (latch ev s).zx = s.zx := rfl
@[simp] theorem latch_pic (ev : Nat) (s : State) : (latch ev s).pic = s.pic := rfl
@[simp] theorem latch_lan (ev : Nat) (s : State) : (latch ev s).lan = s.lan := rfl
@[simp] theorem latch_pat (ev : Nat) (s : State) : (latch ev s).pat = s.pat := rfl
@[simp] theorem latch_trn (ev : Nat) (s : State) : (latch ev s).trn = s.trn := rfl
@[simp] theorem latch_home (ev : Nat) (s : State) : (latch ev s).home = s.home := rfl
@[simp] theorem latch_heldLeases (ev : Nat) (s : State) : (latch ev s).heldLeases = s.heldLeases := rfl
@[simp] theorem latch_cc (ev : Nat) (s : State) : (latch ev s).cc = s.cc := rfl
@[simp] theorem latch_kee (ev : Nat) (s : State) : (latch ev s).kee = s.kee := rfl
@[simp] theorem latch_ten (ev : Nat) (s : State) : (latch ev s).ten = s.ten := rfl
@[simp] theorem latch_can (ev : Nat) (s : State) : (latch ev s).can = s.can := rfl
@[simp] theorem latch_pmc (ev : Nat) (s : State) : (latch ev s).pmc = s.pmc := rfl
@[simp] theorem latch_dbg (ev : Nat) (s : State) : (latch ev s).dbg = s.dbg := rfl
@[simp] theorem latch_int (ev : Nat) (s : State) : (latch ev s).int = s.int := rfl
@[simp] theorem latch_out (ev : Nat) (s : State) : (latch ev s).out = s.out := rfl
@[simp] theorem latch_pending (ev : Nat) (s : State) : (latch ev s).pending = s.pending := rfl

/-! `setLine` changes `home` alone. -/

@[simp] theorem setLine_dev (la : Nat) (h : HomeLine) (s : State) : (setLine la h s).dev = s.dev := rfl
@[simp] theorem setLine_reg (la : Nat) (h : HomeLine) (s : State) : (setLine la h s).reg = s.reg := rfl
@[simp] theorem setLine_tm (la : Nat) (h : HomeLine) (s : State) : (setLine la h s).tm = s.tm := rfl
@[simp] theorem setLine_zx (la : Nat) (h : HomeLine) (s : State) : (setLine la h s).zx = s.zx := rfl
@[simp] theorem setLine_pic (la : Nat) (h : HomeLine) (s : State) : (setLine la h s).pic = s.pic := rfl
@[simp] theorem setLine_lan (la : Nat) (h : HomeLine) (s : State) : (setLine la h s).lan = s.lan := rfl
@[simp] theorem setLine_pat (la : Nat) (h : HomeLine) (s : State) : (setLine la h s).pat = s.pat := rfl
@[simp] theorem setLine_trn (la : Nat) (h : HomeLine) (s : State) : (setLine la h s).trn = s.trn := rfl
@[simp] theorem setLine_heldLeases (la : Nat) (h : HomeLine) (s : State) : (setLine la h s).heldLeases = s.heldLeases := rfl
@[simp] theorem setLine_cc (la : Nat) (h : HomeLine) (s : State) : (setLine la h s).cc = s.cc := rfl
@[simp] theorem setLine_kee (la : Nat) (h : HomeLine) (s : State) : (setLine la h s).kee = s.kee := rfl
@[simp] theorem setLine_ten (la : Nat) (h : HomeLine) (s : State) : (setLine la h s).ten = s.ten := rfl
@[simp] theorem setLine_can (la : Nat) (h : HomeLine) (s : State) : (setLine la h s).can = s.can := rfl
@[simp] theorem setLine_evt (la : Nat) (h : HomeLine) (s : State) : (setLine la h s).evt = s.evt := rfl
@[simp] theorem setLine_pmc (la : Nat) (h : HomeLine) (s : State) : (setLine la h s).pmc = s.pmc := rfl
@[simp] theorem setLine_dbg (la : Nat) (h : HomeLine) (s : State) : (setLine la h s).dbg = s.dbg := rfl
@[simp] theorem setLine_int (la : Nat) (h : HomeLine) (s : State) : (setLine la h s).int = s.int := rfl
@[simp] theorem setLine_out (la : Nat) (h : HomeLine) (s : State) : (setLine la h s).out = s.out := rfl
@[simp] theorem setLine_pending (la : Nat) (h : HomeLine) (s : State) : (setLine la h s).pending = s.pending := rfl

/-! `setTrks` changes `home` alone. -/

@[simp] theorem setTrks_dev (l : List Tracker) (s : State) : (setTrks l s).dev = s.dev := rfl
@[simp] theorem setTrks_reg (l : List Tracker) (s : State) : (setTrks l s).reg = s.reg := rfl
@[simp] theorem setTrks_tm (l : List Tracker) (s : State) : (setTrks l s).tm = s.tm := rfl
@[simp] theorem setTrks_zx (l : List Tracker) (s : State) : (setTrks l s).zx = s.zx := rfl
@[simp] theorem setTrks_pic (l : List Tracker) (s : State) : (setTrks l s).pic = s.pic := rfl
@[simp] theorem setTrks_lan (l : List Tracker) (s : State) : (setTrks l s).lan = s.lan := rfl
@[simp] theorem setTrks_pat (l : List Tracker) (s : State) : (setTrks l s).pat = s.pat := rfl
@[simp] theorem setTrks_trn (l : List Tracker) (s : State) : (setTrks l s).trn = s.trn := rfl
@[simp] theorem setTrks_heldLeases (l : List Tracker) (s : State) : (setTrks l s).heldLeases = s.heldLeases := rfl
@[simp] theorem setTrks_cc (l : List Tracker) (s : State) : (setTrks l s).cc = s.cc := rfl
@[simp] theorem setTrks_kee (l : List Tracker) (s : State) : (setTrks l s).kee = s.kee := rfl
@[simp] theorem setTrks_ten (l : List Tracker) (s : State) : (setTrks l s).ten = s.ten := rfl
@[simp] theorem setTrks_can (l : List Tracker) (s : State) : (setTrks l s).can = s.can := rfl
@[simp] theorem setTrks_evt (l : List Tracker) (s : State) : (setTrks l s).evt = s.evt := rfl
@[simp] theorem setTrks_pmc (l : List Tracker) (s : State) : (setTrks l s).pmc = s.pmc := rfl
@[simp] theorem setTrks_dbg (l : List Tracker) (s : State) : (setTrks l s).dbg = s.dbg := rfl
@[simp] theorem setTrks_int (l : List Tracker) (s : State) : (setTrks l s).int = s.int := rfl
@[simp] theorem setTrks_out (l : List Tracker) (s : State) : (setTrks l s).out = s.out := rfl
@[simp] theorem setTrks_pending (l : List Tracker) (s : State) : (setTrks l s).pending = s.pending := rfl

/-! `setBob` changes `ten` alone. -/

@[simp] theorem setBob_dev (b : Nat) (v : Bobbin) (s : State) : (setBob b v s).dev = s.dev := rfl
@[simp] theorem setBob_reg (b : Nat) (v : Bobbin) (s : State) : (setBob b v s).reg = s.reg := rfl
@[simp] theorem setBob_tm (b : Nat) (v : Bobbin) (s : State) : (setBob b v s).tm = s.tm := rfl
@[simp] theorem setBob_zx (b : Nat) (v : Bobbin) (s : State) : (setBob b v s).zx = s.zx := rfl
@[simp] theorem setBob_pic (b : Nat) (v : Bobbin) (s : State) : (setBob b v s).pic = s.pic := rfl
@[simp] theorem setBob_lan (b : Nat) (v : Bobbin) (s : State) : (setBob b v s).lan = s.lan := rfl
@[simp] theorem setBob_pat (b : Nat) (v : Bobbin) (s : State) : (setBob b v s).pat = s.pat := rfl
@[simp] theorem setBob_trn (b : Nat) (v : Bobbin) (s : State) : (setBob b v s).trn = s.trn := rfl
@[simp] theorem setBob_home (b : Nat) (v : Bobbin) (s : State) : (setBob b v s).home = s.home := rfl
@[simp] theorem setBob_heldLeases (b : Nat) (v : Bobbin) (s : State) : (setBob b v s).heldLeases = s.heldLeases := rfl
@[simp] theorem setBob_cc (b : Nat) (v : Bobbin) (s : State) : (setBob b v s).cc = s.cc := rfl
@[simp] theorem setBob_kee (b : Nat) (v : Bobbin) (s : State) : (setBob b v s).kee = s.kee := rfl
@[simp] theorem setBob_can (b : Nat) (v : Bobbin) (s : State) : (setBob b v s).can = s.can := rfl
@[simp] theorem setBob_evt (b : Nat) (v : Bobbin) (s : State) : (setBob b v s).evt = s.evt := rfl
@[simp] theorem setBob_pmc (b : Nat) (v : Bobbin) (s : State) : (setBob b v s).pmc = s.pmc := rfl
@[simp] theorem setBob_dbg (b : Nat) (v : Bobbin) (s : State) : (setBob b v s).dbg = s.dbg := rfl
@[simp] theorem setBob_int (b : Nat) (v : Bobbin) (s : State) : (setBob b v s).int = s.int := rfl
@[simp] theorem setBob_out (b : Nat) (v : Bobbin) (s : State) : (setBob b v s).out = s.out := rfl
@[simp] theorem setBob_pending (b : Nat) (v : Bobbin) (s : State) : (setBob b v s).pending = s.pending := rfl

/-! `modBob` changes `ten` alone. -/

@[simp] theorem modBob_dev (b : Nat) (f : Bobbin → Bobbin) (s : State) : (modBob b f s).dev = s.dev := rfl
@[simp] theorem modBob_reg (b : Nat) (f : Bobbin → Bobbin) (s : State) : (modBob b f s).reg = s.reg := rfl
@[simp] theorem modBob_tm (b : Nat) (f : Bobbin → Bobbin) (s : State) : (modBob b f s).tm = s.tm := rfl
@[simp] theorem modBob_zx (b : Nat) (f : Bobbin → Bobbin) (s : State) : (modBob b f s).zx = s.zx := rfl
@[simp] theorem modBob_pic (b : Nat) (f : Bobbin → Bobbin) (s : State) : (modBob b f s).pic = s.pic := rfl
@[simp] theorem modBob_lan (b : Nat) (f : Bobbin → Bobbin) (s : State) : (modBob b f s).lan = s.lan := rfl
@[simp] theorem modBob_pat (b : Nat) (f : Bobbin → Bobbin) (s : State) : (modBob b f s).pat = s.pat := rfl
@[simp] theorem modBob_trn (b : Nat) (f : Bobbin → Bobbin) (s : State) : (modBob b f s).trn = s.trn := rfl
@[simp] theorem modBob_home (b : Nat) (f : Bobbin → Bobbin) (s : State) : (modBob b f s).home = s.home := rfl
@[simp] theorem modBob_heldLeases (b : Nat) (f : Bobbin → Bobbin) (s : State) : (modBob b f s).heldLeases = s.heldLeases := rfl
@[simp] theorem modBob_cc (b : Nat) (f : Bobbin → Bobbin) (s : State) : (modBob b f s).cc = s.cc := rfl
@[simp] theorem modBob_kee (b : Nat) (f : Bobbin → Bobbin) (s : State) : (modBob b f s).kee = s.kee := rfl
@[simp] theorem modBob_can (b : Nat) (f : Bobbin → Bobbin) (s : State) : (modBob b f s).can = s.can := rfl
@[simp] theorem modBob_evt (b : Nat) (f : Bobbin → Bobbin) (s : State) : (modBob b f s).evt = s.evt := rfl
@[simp] theorem modBob_pmc (b : Nat) (f : Bobbin → Bobbin) (s : State) : (modBob b f s).pmc = s.pmc := rfl
@[simp] theorem modBob_dbg (b : Nat) (f : Bobbin → Bobbin) (s : State) : (modBob b f s).dbg = s.dbg := rfl
@[simp] theorem modBob_int (b : Nat) (f : Bobbin → Bobbin) (s : State) : (modBob b f s).int = s.int := rfl
@[simp] theorem modBob_out (b : Nat) (f : Bobbin → Bobbin) (s : State) : (modBob b f s).out = s.out := rfl
@[simp] theorem modBob_pending (b : Nat) (f : Bobbin → Bobbin) (s : State) : (modBob b f s).pending = s.pending := rfl

/-! `freeBob` changes `ten`, `cc` alone. -/

@[simp] theorem freeBob_dev (b : Nat) (s : State) : (freeBob b s).dev = s.dev := rfl
@[simp] theorem freeBob_reg (b : Nat) (s : State) : (freeBob b s).reg = s.reg := rfl
@[simp] theorem freeBob_tm (b : Nat) (s : State) : (freeBob b s).tm = s.tm := rfl
@[simp] theorem freeBob_zx (b : Nat) (s : State) : (freeBob b s).zx = s.zx := rfl
@[simp] theorem freeBob_pic (b : Nat) (s : State) : (freeBob b s).pic = s.pic := rfl
@[simp] theorem freeBob_lan (b : Nat) (s : State) : (freeBob b s).lan = s.lan := rfl
@[simp] theorem freeBob_pat (b : Nat) (s : State) : (freeBob b s).pat = s.pat := rfl
@[simp] theorem freeBob_trn (b : Nat) (s : State) : (freeBob b s).trn = s.trn := rfl
@[simp] theorem freeBob_home (b : Nat) (s : State) : (freeBob b s).home = s.home := rfl
@[simp] theorem freeBob_heldLeases (b : Nat) (s : State) : (freeBob b s).heldLeases = s.heldLeases := rfl
@[simp] theorem freeBob_kee (b : Nat) (s : State) : (freeBob b s).kee = s.kee := rfl
@[simp] theorem freeBob_can (b : Nat) (s : State) : (freeBob b s).can = s.can := rfl
@[simp] theorem freeBob_evt (b : Nat) (s : State) : (freeBob b s).evt = s.evt := rfl
@[simp] theorem freeBob_pmc (b : Nat) (s : State) : (freeBob b s).pmc = s.pmc := rfl
@[simp] theorem freeBob_dbg (b : Nat) (s : State) : (freeBob b s).dbg = s.dbg := rfl
@[simp] theorem freeBob_int (b : Nat) (s : State) : (freeBob b s).int = s.int := rfl
@[simp] theorem freeBob_out (b : Nat) (s : State) : (freeBob b s).out = s.out := rfl
@[simp] theorem freeBob_pending (b : Nat) (s : State) : (freeBob b s).pending = s.pending := rfl

/-! `queueMsg` changes `lan` alone. -/

@[simp] theorem queueMsg_dev (m : LineMsg) (bob : Option Nat) (s : State) : (queueMsg m bob s).dev = s.dev := rfl
@[simp] theorem queueMsg_reg (m : LineMsg) (bob : Option Nat) (s : State) : (queueMsg m bob s).reg = s.reg := rfl
@[simp] theorem queueMsg_tm (m : LineMsg) (bob : Option Nat) (s : State) : (queueMsg m bob s).tm = s.tm := rfl
@[simp] theorem queueMsg_zx (m : LineMsg) (bob : Option Nat) (s : State) : (queueMsg m bob s).zx = s.zx := rfl
@[simp] theorem queueMsg_pic (m : LineMsg) (bob : Option Nat) (s : State) : (queueMsg m bob s).pic = s.pic := rfl
@[simp] theorem queueMsg_pat (m : LineMsg) (bob : Option Nat) (s : State) : (queueMsg m bob s).pat = s.pat := rfl
@[simp] theorem queueMsg_trn (m : LineMsg) (bob : Option Nat) (s : State) : (queueMsg m bob s).trn = s.trn := rfl
@[simp] theorem queueMsg_home (m : LineMsg) (bob : Option Nat) (s : State) : (queueMsg m bob s).home = s.home := rfl
@[simp] theorem queueMsg_heldLeases (m : LineMsg) (bob : Option Nat) (s : State) : (queueMsg m bob s).heldLeases = s.heldLeases := rfl
@[simp] theorem queueMsg_cc (m : LineMsg) (bob : Option Nat) (s : State) : (queueMsg m bob s).cc = s.cc := rfl
@[simp] theorem queueMsg_kee (m : LineMsg) (bob : Option Nat) (s : State) : (queueMsg m bob s).kee = s.kee := rfl
@[simp] theorem queueMsg_ten (m : LineMsg) (bob : Option Nat) (s : State) : (queueMsg m bob s).ten = s.ten := rfl
@[simp] theorem queueMsg_can (m : LineMsg) (bob : Option Nat) (s : State) : (queueMsg m bob s).can = s.can := rfl
@[simp] theorem queueMsg_evt (m : LineMsg) (bob : Option Nat) (s : State) : (queueMsg m bob s).evt = s.evt := rfl
@[simp] theorem queueMsg_pmc (m : LineMsg) (bob : Option Nat) (s : State) : (queueMsg m bob s).pmc = s.pmc := rfl
@[simp] theorem queueMsg_dbg (m : LineMsg) (bob : Option Nat) (s : State) : (queueMsg m bob s).dbg = s.dbg := rfl
@[simp] theorem queueMsg_int (m : LineMsg) (bob : Option Nat) (s : State) : (queueMsg m bob s).int = s.int := rfl
@[simp] theorem queueMsg_out (m : LineMsg) (bob : Option Nat) (s : State) : (queueMsg m bob s).out = s.out := rfl
@[simp] theorem queueMsg_pending (m : LineMsg) (bob : Option Nat) (s : State) : (queueMsg m bob s).pending = s.pending := rfl

/-! `setCopy` changes `cc` alone. -/

@[simp] theorem setCopy_dev (k : Nat) (c : Copy) (s : State) : (setCopy k c s).dev = s.dev := rfl
@[simp] theorem setCopy_reg (k : Nat) (c : Copy) (s : State) : (setCopy k c s).reg = s.reg := rfl
@[simp] theorem setCopy_tm (k : Nat) (c : Copy) (s : State) : (setCopy k c s).tm = s.tm := rfl
@[simp] theorem setCopy_zx (k : Nat) (c : Copy) (s : State) : (setCopy k c s).zx = s.zx := rfl
@[simp] theorem setCopy_pic (k : Nat) (c : Copy) (s : State) : (setCopy k c s).pic = s.pic := rfl
@[simp] theorem setCopy_lan (k : Nat) (c : Copy) (s : State) : (setCopy k c s).lan = s.lan := rfl
@[simp] theorem setCopy_pat (k : Nat) (c : Copy) (s : State) : (setCopy k c s).pat = s.pat := rfl
@[simp] theorem setCopy_trn (k : Nat) (c : Copy) (s : State) : (setCopy k c s).trn = s.trn := rfl
@[simp] theorem setCopy_home (k : Nat) (c : Copy) (s : State) : (setCopy k c s).home = s.home := rfl
@[simp] theorem setCopy_heldLeases (k : Nat) (c : Copy) (s : State) : (setCopy k c s).heldLeases = s.heldLeases := rfl
@[simp] theorem setCopy_kee (k : Nat) (c : Copy) (s : State) : (setCopy k c s).kee = s.kee := rfl
@[simp] theorem setCopy_ten (k : Nat) (c : Copy) (s : State) : (setCopy k c s).ten = s.ten := rfl
@[simp] theorem setCopy_can (k : Nat) (c : Copy) (s : State) : (setCopy k c s).can = s.can := rfl
@[simp] theorem setCopy_evt (k : Nat) (c : Copy) (s : State) : (setCopy k c s).evt = s.evt := rfl
@[simp] theorem setCopy_pmc (k : Nat) (c : Copy) (s : State) : (setCopy k c s).pmc = s.pmc := rfl
@[simp] theorem setCopy_dbg (k : Nat) (c : Copy) (s : State) : (setCopy k c s).dbg = s.dbg := rfl
@[simp] theorem setCopy_int (k : Nat) (c : Copy) (s : State) : (setCopy k c s).int = s.int := rfl
@[simp] theorem setCopy_out (k : Nat) (c : Copy) (s : State) : (setCopy k c s).out = s.out := rfl
@[simp] theorem setCopy_pending (k : Nat) (c : Copy) (s : State) : (setCopy k c s).pending = s.pending := rfl

/-! `dropWay` changes `cc` alone. -/

@[simp] theorem dropWay_dev (k : Nat) (s : State) : (dropWay k s).dev = s.dev := rfl
@[simp] theorem dropWay_reg (k : Nat) (s : State) : (dropWay k s).reg = s.reg := rfl
@[simp] theorem dropWay_tm (k : Nat) (s : State) : (dropWay k s).tm = s.tm := rfl
@[simp] theorem dropWay_zx (k : Nat) (s : State) : (dropWay k s).zx = s.zx := rfl
@[simp] theorem dropWay_pic (k : Nat) (s : State) : (dropWay k s).pic = s.pic := rfl
@[simp] theorem dropWay_lan (k : Nat) (s : State) : (dropWay k s).lan = s.lan := rfl
@[simp] theorem dropWay_pat (k : Nat) (s : State) : (dropWay k s).pat = s.pat := rfl
@[simp] theorem dropWay_trn (k : Nat) (s : State) : (dropWay k s).trn = s.trn := rfl
@[simp] theorem dropWay_home (k : Nat) (s : State) : (dropWay k s).home = s.home := rfl
@[simp] theorem dropWay_heldLeases (k : Nat) (s : State) : (dropWay k s).heldLeases = s.heldLeases := rfl
@[simp] theorem dropWay_kee (k : Nat) (s : State) : (dropWay k s).kee = s.kee := rfl
@[simp] theorem dropWay_ten (k : Nat) (s : State) : (dropWay k s).ten = s.ten := rfl
@[simp] theorem dropWay_can (k : Nat) (s : State) : (dropWay k s).can = s.can := rfl
@[simp] theorem dropWay_evt (k : Nat) (s : State) : (dropWay k s).evt = s.evt := rfl
@[simp] theorem dropWay_pmc (k : Nat) (s : State) : (dropWay k s).pmc = s.pmc := rfl
@[simp] theorem dropWay_dbg (k : Nat) (s : State) : (dropWay k s).dbg = s.dbg := rfl
@[simp] theorem dropWay_int (k : Nat) (s : State) : (dropWay k s).int = s.int := rfl
@[simp] theorem dropWay_out (k : Nat) (s : State) : (dropWay k s).out = s.out := rfl
@[simp] theorem dropWay_pending (k : Nat) (s : State) : (dropWay k s).pending = s.pending := rfl

/-! `setRegion` changes `home` alone. -/

@[simp] theorem setRegion_dev (i : Nat) (r : Region) (s : State) : (setRegion i r s).dev = s.dev := rfl
@[simp] theorem setRegion_reg (i : Nat) (r : Region) (s : State) : (setRegion i r s).reg = s.reg := rfl
@[simp] theorem setRegion_tm (i : Nat) (r : Region) (s : State) : (setRegion i r s).tm = s.tm := rfl
@[simp] theorem setRegion_zx (i : Nat) (r : Region) (s : State) : (setRegion i r s).zx = s.zx := rfl
@[simp] theorem setRegion_pic (i : Nat) (r : Region) (s : State) : (setRegion i r s).pic = s.pic := rfl
@[simp] theorem setRegion_lan (i : Nat) (r : Region) (s : State) : (setRegion i r s).lan = s.lan := rfl
@[simp] theorem setRegion_pat (i : Nat) (r : Region) (s : State) : (setRegion i r s).pat = s.pat := rfl
@[simp] theorem setRegion_trn (i : Nat) (r : Region) (s : State) : (setRegion i r s).trn = s.trn := rfl
@[simp] theorem setRegion_heldLeases (i : Nat) (r : Region) (s : State) : (setRegion i r s).heldLeases = s.heldLeases := rfl
@[simp] theorem setRegion_cc (i : Nat) (r : Region) (s : State) : (setRegion i r s).cc = s.cc := rfl
@[simp] theorem setRegion_kee (i : Nat) (r : Region) (s : State) : (setRegion i r s).kee = s.kee := rfl
@[simp] theorem setRegion_ten (i : Nat) (r : Region) (s : State) : (setRegion i r s).ten = s.ten := rfl
@[simp] theorem setRegion_can (i : Nat) (r : Region) (s : State) : (setRegion i r s).can = s.can := rfl
@[simp] theorem setRegion_evt (i : Nat) (r : Region) (s : State) : (setRegion i r s).evt = s.evt := rfl
@[simp] theorem setRegion_pmc (i : Nat) (r : Region) (s : State) : (setRegion i r s).pmc = s.pmc := rfl
@[simp] theorem setRegion_dbg (i : Nat) (r : Region) (s : State) : (setRegion i r s).dbg = s.dbg := rfl
@[simp] theorem setRegion_int (i : Nat) (r : Region) (s : State) : (setRegion i r s).int = s.int := rfl
@[simp] theorem setRegion_out (i : Nat) (r : Region) (s : State) : (setRegion i r s).out = s.out := rfl
@[simp] theorem setRegion_pending (i : Nat) (r : Region) (s : State) : (setRegion i r s).pending = s.pending := rfl

/-! `modPort` changes `can` alone. -/

@[simp] theorem modPort_dev (p : Nat) (f : CanPort → CanPort) (s : State) : (modPort p f s).dev = s.dev := rfl
@[simp] theorem modPort_reg (p : Nat) (f : CanPort → CanPort) (s : State) : (modPort p f s).reg = s.reg := rfl
@[simp] theorem modPort_tm (p : Nat) (f : CanPort → CanPort) (s : State) : (modPort p f s).tm = s.tm := rfl
@[simp] theorem modPort_zx (p : Nat) (f : CanPort → CanPort) (s : State) : (modPort p f s).zx = s.zx := rfl
@[simp] theorem modPort_pic (p : Nat) (f : CanPort → CanPort) (s : State) : (modPort p f s).pic = s.pic := rfl
@[simp] theorem modPort_lan (p : Nat) (f : CanPort → CanPort) (s : State) : (modPort p f s).lan = s.lan := rfl
@[simp] theorem modPort_pat (p : Nat) (f : CanPort → CanPort) (s : State) : (modPort p f s).pat = s.pat := rfl
@[simp] theorem modPort_trn (p : Nat) (f : CanPort → CanPort) (s : State) : (modPort p f s).trn = s.trn := rfl
@[simp] theorem modPort_home (p : Nat) (f : CanPort → CanPort) (s : State) : (modPort p f s).home = s.home := rfl
@[simp] theorem modPort_heldLeases (p : Nat) (f : CanPort → CanPort) (s : State) : (modPort p f s).heldLeases = s.heldLeases := rfl
@[simp] theorem modPort_cc (p : Nat) (f : CanPort → CanPort) (s : State) : (modPort p f s).cc = s.cc := rfl
@[simp] theorem modPort_kee (p : Nat) (f : CanPort → CanPort) (s : State) : (modPort p f s).kee = s.kee := rfl
@[simp] theorem modPort_ten (p : Nat) (f : CanPort → CanPort) (s : State) : (modPort p f s).ten = s.ten := rfl
@[simp] theorem modPort_evt (p : Nat) (f : CanPort → CanPort) (s : State) : (modPort p f s).evt = s.evt := rfl
@[simp] theorem modPort_pmc (p : Nat) (f : CanPort → CanPort) (s : State) : (modPort p f s).pmc = s.pmc := rfl
@[simp] theorem modPort_dbg (p : Nat) (f : CanPort → CanPort) (s : State) : (modPort p f s).dbg = s.dbg := rfl
@[simp] theorem modPort_int (p : Nat) (f : CanPort → CanPort) (s : State) : (modPort p f s).int = s.int := rfl
@[simp] theorem modPort_out (p : Nat) (f : CanPort → CanPort) (s : State) : (modPort p f s).out = s.out := rfl
@[simp] theorem modPort_pending (p : Nat) (f : CanPort → CanPort) (s : State) : (modPort p f s).pending = s.pending := rfl

/-! `modCh` changes `pic` alone. -/

@[simp] theorem modCh_dev (n : Nat) (f : PicotCh → PicotCh) (s : State) : (modCh n f s).dev = s.dev := rfl
@[simp] theorem modCh_reg (n : Nat) (f : PicotCh → PicotCh) (s : State) : (modCh n f s).reg = s.reg := rfl
@[simp] theorem modCh_tm (n : Nat) (f : PicotCh → PicotCh) (s : State) : (modCh n f s).tm = s.tm := rfl
@[simp] theorem modCh_zx (n : Nat) (f : PicotCh → PicotCh) (s : State) : (modCh n f s).zx = s.zx := rfl
@[simp] theorem modCh_lan (n : Nat) (f : PicotCh → PicotCh) (s : State) : (modCh n f s).lan = s.lan := rfl
@[simp] theorem modCh_pat (n : Nat) (f : PicotCh → PicotCh) (s : State) : (modCh n f s).pat = s.pat := rfl
@[simp] theorem modCh_trn (n : Nat) (f : PicotCh → PicotCh) (s : State) : (modCh n f s).trn = s.trn := rfl
@[simp] theorem modCh_home (n : Nat) (f : PicotCh → PicotCh) (s : State) : (modCh n f s).home = s.home := rfl
@[simp] theorem modCh_heldLeases (n : Nat) (f : PicotCh → PicotCh) (s : State) : (modCh n f s).heldLeases = s.heldLeases := rfl
@[simp] theorem modCh_cc (n : Nat) (f : PicotCh → PicotCh) (s : State) : (modCh n f s).cc = s.cc := rfl
@[simp] theorem modCh_kee (n : Nat) (f : PicotCh → PicotCh) (s : State) : (modCh n f s).kee = s.kee := rfl
@[simp] theorem modCh_ten (n : Nat) (f : PicotCh → PicotCh) (s : State) : (modCh n f s).ten = s.ten := rfl
@[simp] theorem modCh_can (n : Nat) (f : PicotCh → PicotCh) (s : State) : (modCh n f s).can = s.can := rfl
@[simp] theorem modCh_evt (n : Nat) (f : PicotCh → PicotCh) (s : State) : (modCh n f s).evt = s.evt := rfl
@[simp] theorem modCh_pmc (n : Nat) (f : PicotCh → PicotCh) (s : State) : (modCh n f s).pmc = s.pmc := rfl
@[simp] theorem modCh_dbg (n : Nat) (f : PicotCh → PicotCh) (s : State) : (modCh n f s).dbg = s.dbg := rfl
@[simp] theorem modCh_int (n : Nat) (f : PicotCh → PicotCh) (s : State) : (modCh n f s).int = s.int := rfl
@[simp] theorem modCh_out (n : Nat) (f : PicotCh → PicotCh) (s : State) : (modCh n f s).out = s.out := rfl
@[simp] theorem modCh_pending (n : Nat) (f : PicotCh → PicotCh) (s : State) : (modCh n f s).pending = s.pending := rfl

/-! `anchorRow` changes `tm` alone. -/

@[simp] theorem anchorRow_dev (ph : Phase) (s : State) : (anchorRow ph s).dev = s.dev := rfl
@[simp] theorem anchorRow_reg (ph : Phase) (s : State) : (anchorRow ph s).reg = s.reg := rfl
@[simp] theorem anchorRow_zx (ph : Phase) (s : State) : (anchorRow ph s).zx = s.zx := rfl
@[simp] theorem anchorRow_pic (ph : Phase) (s : State) : (anchorRow ph s).pic = s.pic := rfl
@[simp] theorem anchorRow_lan (ph : Phase) (s : State) : (anchorRow ph s).lan = s.lan := rfl
@[simp] theorem anchorRow_pat (ph : Phase) (s : State) : (anchorRow ph s).pat = s.pat := rfl
@[simp] theorem anchorRow_trn (ph : Phase) (s : State) : (anchorRow ph s).trn = s.trn := rfl
@[simp] theorem anchorRow_home (ph : Phase) (s : State) : (anchorRow ph s).home = s.home := rfl
@[simp] theorem anchorRow_heldLeases (ph : Phase) (s : State) : (anchorRow ph s).heldLeases = s.heldLeases := rfl
@[simp] theorem anchorRow_cc (ph : Phase) (s : State) : (anchorRow ph s).cc = s.cc := rfl
@[simp] theorem anchorRow_kee (ph : Phase) (s : State) : (anchorRow ph s).kee = s.kee := rfl
@[simp] theorem anchorRow_ten (ph : Phase) (s : State) : (anchorRow ph s).ten = s.ten := rfl
@[simp] theorem anchorRow_can (ph : Phase) (s : State) : (anchorRow ph s).can = s.can := rfl
@[simp] theorem anchorRow_evt (ph : Phase) (s : State) : (anchorRow ph s).evt = s.evt := rfl
@[simp] theorem anchorRow_pmc (ph : Phase) (s : State) : (anchorRow ph s).pmc = s.pmc := rfl
@[simp] theorem anchorRow_dbg (ph : Phase) (s : State) : (anchorRow ph s).dbg = s.dbg := rfl
@[simp] theorem anchorRow_int (ph : Phase) (s : State) : (anchorRow ph s).int = s.int := rfl
@[simp] theorem anchorRow_out (ph : Phase) (s : State) : (anchorRow ph s).out = s.out := rfl
@[simp] theorem anchorRow_pending (ph : Phase) (s : State) : (anchorRow ph s).pending = s.pending := rfl

/-! `anchorTrue` changes `tm` alone. -/

@[simp] theorem anchorTrue_dev (ph : Phase) (s : State) : (anchorTrue ph s).dev = s.dev := rfl
@[simp] theorem anchorTrue_reg (ph : Phase) (s : State) : (anchorTrue ph s).reg = s.reg := rfl
@[simp] theorem anchorTrue_zx (ph : Phase) (s : State) : (anchorTrue ph s).zx = s.zx := rfl
@[simp] theorem anchorTrue_pic (ph : Phase) (s : State) : (anchorTrue ph s).pic = s.pic := rfl
@[simp] theorem anchorTrue_lan (ph : Phase) (s : State) : (anchorTrue ph s).lan = s.lan := rfl
@[simp] theorem anchorTrue_pat (ph : Phase) (s : State) : (anchorTrue ph s).pat = s.pat := rfl
@[simp] theorem anchorTrue_trn (ph : Phase) (s : State) : (anchorTrue ph s).trn = s.trn := rfl
@[simp] theorem anchorTrue_home (ph : Phase) (s : State) : (anchorTrue ph s).home = s.home := rfl
@[simp] theorem anchorTrue_heldLeases (ph : Phase) (s : State) : (anchorTrue ph s).heldLeases = s.heldLeases := rfl
@[simp] theorem anchorTrue_cc (ph : Phase) (s : State) : (anchorTrue ph s).cc = s.cc := rfl
@[simp] theorem anchorTrue_kee (ph : Phase) (s : State) : (anchorTrue ph s).kee = s.kee := rfl
@[simp] theorem anchorTrue_ten (ph : Phase) (s : State) : (anchorTrue ph s).ten = s.ten := rfl
@[simp] theorem anchorTrue_can (ph : Phase) (s : State) : (anchorTrue ph s).can = s.can := rfl
@[simp] theorem anchorTrue_evt (ph : Phase) (s : State) : (anchorTrue ph s).evt = s.evt := rfl
@[simp] theorem anchorTrue_pmc (ph : Phase) (s : State) : (anchorTrue ph s).pmc = s.pmc := rfl
@[simp] theorem anchorTrue_dbg (ph : Phase) (s : State) : (anchorTrue ph s).dbg = s.dbg := rfl
@[simp] theorem anchorTrue_int (ph : Phase) (s : State) : (anchorTrue ph s).int = s.int := rfl
@[simp] theorem anchorTrue_out (ph : Phase) (s : State) : (anchorTrue ph s).out = s.out := rfl
@[simp] theorem anchorTrue_pending (ph : Phase) (s : State) : (anchorTrue ph s).pending = s.pending := rfl

/-! `modClaim` changes `trn` alone. -/

@[simp] theorem modClaim_dev (k : Nat) (f : ClaimRec → ClaimRec) (s : State) : (modClaim k f s).dev = s.dev := rfl
@[simp] theorem modClaim_reg (k : Nat) (f : ClaimRec → ClaimRec) (s : State) : (modClaim k f s).reg = s.reg := rfl
@[simp] theorem modClaim_tm (k : Nat) (f : ClaimRec → ClaimRec) (s : State) : (modClaim k f s).tm = s.tm := rfl
@[simp] theorem modClaim_zx (k : Nat) (f : ClaimRec → ClaimRec) (s : State) : (modClaim k f s).zx = s.zx := rfl
@[simp] theorem modClaim_pic (k : Nat) (f : ClaimRec → ClaimRec) (s : State) : (modClaim k f s).pic = s.pic := rfl
@[simp] theorem modClaim_lan (k : Nat) (f : ClaimRec → ClaimRec) (s : State) : (modClaim k f s).lan = s.lan := rfl
@[simp] theorem modClaim_pat (k : Nat) (f : ClaimRec → ClaimRec) (s : State) : (modClaim k f s).pat = s.pat := rfl
@[simp] theorem modClaim_home (k : Nat) (f : ClaimRec → ClaimRec) (s : State) : (modClaim k f s).home = s.home := rfl
@[simp] theorem modClaim_heldLeases (k : Nat) (f : ClaimRec → ClaimRec) (s : State) : (modClaim k f s).heldLeases = s.heldLeases := rfl
@[simp] theorem modClaim_cc (k : Nat) (f : ClaimRec → ClaimRec) (s : State) : (modClaim k f s).cc = s.cc := rfl
@[simp] theorem modClaim_kee (k : Nat) (f : ClaimRec → ClaimRec) (s : State) : (modClaim k f s).kee = s.kee := rfl
@[simp] theorem modClaim_ten (k : Nat) (f : ClaimRec → ClaimRec) (s : State) : (modClaim k f s).ten = s.ten := rfl
@[simp] theorem modClaim_can (k : Nat) (f : ClaimRec → ClaimRec) (s : State) : (modClaim k f s).can = s.can := rfl
@[simp] theorem modClaim_evt (k : Nat) (f : ClaimRec → ClaimRec) (s : State) : (modClaim k f s).evt = s.evt := rfl
@[simp] theorem modClaim_pmc (k : Nat) (f : ClaimRec → ClaimRec) (s : State) : (modClaim k f s).pmc = s.pmc := rfl
@[simp] theorem modClaim_dbg (k : Nat) (f : ClaimRec → ClaimRec) (s : State) : (modClaim k f s).dbg = s.dbg := rfl
@[simp] theorem modClaim_int (k : Nat) (f : ClaimRec → ClaimRec) (s : State) : (modClaim k f s).int = s.int := rfl
@[simp] theorem modClaim_out (k : Nat) (f : ClaimRec → ClaimRec) (s : State) : (modClaim k f s).out = s.out := rfl
@[simp] theorem modClaim_pending (k : Nat) (f : ClaimRec → ClaimRec) (s : State) : (modClaim k f s).pending = s.pending := rfl

/-! `keeFail` changes `kee` alone. -/

@[simp] theorem keeFail_dev (err : Nat) (s : State) : (keeFail err s).dev = s.dev := rfl
@[simp] theorem keeFail_reg (err : Nat) (s : State) : (keeFail err s).reg = s.reg := rfl
@[simp] theorem keeFail_tm (err : Nat) (s : State) : (keeFail err s).tm = s.tm := rfl
@[simp] theorem keeFail_zx (err : Nat) (s : State) : (keeFail err s).zx = s.zx := rfl
@[simp] theorem keeFail_pic (err : Nat) (s : State) : (keeFail err s).pic = s.pic := rfl
@[simp] theorem keeFail_lan (err : Nat) (s : State) : (keeFail err s).lan = s.lan := rfl
@[simp] theorem keeFail_pat (err : Nat) (s : State) : (keeFail err s).pat = s.pat := rfl
@[simp] theorem keeFail_trn (err : Nat) (s : State) : (keeFail err s).trn = s.trn := rfl
@[simp] theorem keeFail_home (err : Nat) (s : State) : (keeFail err s).home = s.home := rfl
@[simp] theorem keeFail_heldLeases (err : Nat) (s : State) : (keeFail err s).heldLeases = s.heldLeases := rfl
@[simp] theorem keeFail_cc (err : Nat) (s : State) : (keeFail err s).cc = s.cc := rfl
@[simp] theorem keeFail_ten (err : Nat) (s : State) : (keeFail err s).ten = s.ten := rfl
@[simp] theorem keeFail_can (err : Nat) (s : State) : (keeFail err s).can = s.can := rfl
@[simp] theorem keeFail_evt (err : Nat) (s : State) : (keeFail err s).evt = s.evt := rfl
@[simp] theorem keeFail_pmc (err : Nat) (s : State) : (keeFail err s).pmc = s.pmc := rfl
@[simp] theorem keeFail_dbg (err : Nat) (s : State) : (keeFail err s).dbg = s.dbg := rfl
@[simp] theorem keeFail_int (err : Nat) (s : State) : (keeFail err s).int = s.int := rfl
@[simp] theorem keeFail_out (err : Nat) (s : State) : (keeFail err s).out = s.out := rfl
@[simp] theorem keeFail_pending (err : Nat) (s : State) : (keeFail err s).pending = s.pending := rfl

/-! `queueCtl` changes `lan` alone. -/

@[simp] theorem queueCtl_dev (m : Msg) (s : State) : (queueCtl m s).dev = s.dev := rfl
@[simp] theorem queueCtl_reg (m : Msg) (s : State) : (queueCtl m s).reg = s.reg := rfl
@[simp] theorem queueCtl_tm (m : Msg) (s : State) : (queueCtl m s).tm = s.tm := rfl
@[simp] theorem queueCtl_zx (m : Msg) (s : State) : (queueCtl m s).zx = s.zx := rfl
@[simp] theorem queueCtl_pic (m : Msg) (s : State) : (queueCtl m s).pic = s.pic := rfl
@[simp] theorem queueCtl_pat (m : Msg) (s : State) : (queueCtl m s).pat = s.pat := rfl
@[simp] theorem queueCtl_trn (m : Msg) (s : State) : (queueCtl m s).trn = s.trn := rfl
@[simp] theorem queueCtl_home (m : Msg) (s : State) : (queueCtl m s).home = s.home := rfl
@[simp] theorem queueCtl_heldLeases (m : Msg) (s : State) : (queueCtl m s).heldLeases = s.heldLeases := rfl
@[simp] theorem queueCtl_cc (m : Msg) (s : State) : (queueCtl m s).cc = s.cc := rfl
@[simp] theorem queueCtl_kee (m : Msg) (s : State) : (queueCtl m s).kee = s.kee := rfl
@[simp] theorem queueCtl_ten (m : Msg) (s : State) : (queueCtl m s).ten = s.ten := rfl
@[simp] theorem queueCtl_can (m : Msg) (s : State) : (queueCtl m s).can = s.can := rfl
@[simp] theorem queueCtl_evt (m : Msg) (s : State) : (queueCtl m s).evt = s.evt := rfl
@[simp] theorem queueCtl_pmc (m : Msg) (s : State) : (queueCtl m s).pmc = s.pmc := rfl
@[simp] theorem queueCtl_dbg (m : Msg) (s : State) : (queueCtl m s).dbg = s.dbg := rfl
@[simp] theorem queueCtl_int (m : Msg) (s : State) : (queueCtl m s).int = s.int := rfl
@[simp] theorem queueCtl_out (m : Msg) (s : State) : (queueCtl m s).out = s.out := rfl
@[simp] theorem queueCtl_pending (m : Msg) (s : State) : (queueCtl m s).pending = s.pending := rfl

/-! `setStream` changes `lan` alone. -/

@[simp] theorem setStream_dev (k : Nat) (x : RxStream) (s : State) : (setStream k x s).dev = s.dev := rfl
@[simp] theorem setStream_reg (k : Nat) (x : RxStream) (s : State) : (setStream k x s).reg = s.reg := rfl
@[simp] theorem setStream_tm (k : Nat) (x : RxStream) (s : State) : (setStream k x s).tm = s.tm := rfl
@[simp] theorem setStream_zx (k : Nat) (x : RxStream) (s : State) : (setStream k x s).zx = s.zx := rfl
@[simp] theorem setStream_pic (k : Nat) (x : RxStream) (s : State) : (setStream k x s).pic = s.pic := rfl
@[simp] theorem setStream_pat (k : Nat) (x : RxStream) (s : State) : (setStream k x s).pat = s.pat := rfl
@[simp] theorem setStream_trn (k : Nat) (x : RxStream) (s : State) : (setStream k x s).trn = s.trn := rfl
@[simp] theorem setStream_home (k : Nat) (x : RxStream) (s : State) : (setStream k x s).home = s.home := rfl
@[simp] theorem setStream_heldLeases (k : Nat) (x : RxStream) (s : State) : (setStream k x s).heldLeases = s.heldLeases := rfl
@[simp] theorem setStream_cc (k : Nat) (x : RxStream) (s : State) : (setStream k x s).cc = s.cc := rfl
@[simp] theorem setStream_kee (k : Nat) (x : RxStream) (s : State) : (setStream k x s).kee = s.kee := rfl
@[simp] theorem setStream_ten (k : Nat) (x : RxStream) (s : State) : (setStream k x s).ten = s.ten := rfl
@[simp] theorem setStream_can (k : Nat) (x : RxStream) (s : State) : (setStream k x s).can = s.can := rfl
@[simp] theorem setStream_evt (k : Nat) (x : RxStream) (s : State) : (setStream k x s).evt = s.evt := rfl
@[simp] theorem setStream_pmc (k : Nat) (x : RxStream) (s : State) : (setStream k x s).pmc = s.pmc := rfl
@[simp] theorem setStream_dbg (k : Nat) (x : RxStream) (s : State) : (setStream k x s).dbg = s.dbg := rfl
@[simp] theorem setStream_int (k : Nat) (x : RxStream) (s : State) : (setStream k x s).int = s.int := rfl
@[simp] theorem setStream_out (k : Nat) (x : RxStream) (s : State) : (setStream k x s).out = s.out := rfl
@[simp] theorem setStream_pending (k : Nat) (x : RxStream) (s : State) : (setStream k x s).pending = s.pending := rfl

/-! `modWq` changes `cc` alone. -/

@[simp] theorem modWq_dev (i : Nat) (f : WayQ → WayQ) (s : State) : (modWq i f s).dev = s.dev := rfl
@[simp] theorem modWq_reg (i : Nat) (f : WayQ → WayQ) (s : State) : (modWq i f s).reg = s.reg := rfl
@[simp] theorem modWq_tm (i : Nat) (f : WayQ → WayQ) (s : State) : (modWq i f s).tm = s.tm := rfl
@[simp] theorem modWq_zx (i : Nat) (f : WayQ → WayQ) (s : State) : (modWq i f s).zx = s.zx := rfl
@[simp] theorem modWq_pic (i : Nat) (f : WayQ → WayQ) (s : State) : (modWq i f s).pic = s.pic := rfl
@[simp] theorem modWq_lan (i : Nat) (f : WayQ → WayQ) (s : State) : (modWq i f s).lan = s.lan := rfl
@[simp] theorem modWq_pat (i : Nat) (f : WayQ → WayQ) (s : State) : (modWq i f s).pat = s.pat := rfl
@[simp] theorem modWq_trn (i : Nat) (f : WayQ → WayQ) (s : State) : (modWq i f s).trn = s.trn := rfl
@[simp] theorem modWq_home (i : Nat) (f : WayQ → WayQ) (s : State) : (modWq i f s).home = s.home := rfl
@[simp] theorem modWq_heldLeases (i : Nat) (f : WayQ → WayQ) (s : State) : (modWq i f s).heldLeases = s.heldLeases := rfl
@[simp] theorem modWq_kee (i : Nat) (f : WayQ → WayQ) (s : State) : (modWq i f s).kee = s.kee := rfl
@[simp] theorem modWq_ten (i : Nat) (f : WayQ → WayQ) (s : State) : (modWq i f s).ten = s.ten := rfl
@[simp] theorem modWq_can (i : Nat) (f : WayQ → WayQ) (s : State) : (modWq i f s).can = s.can := rfl
@[simp] theorem modWq_evt (i : Nat) (f : WayQ → WayQ) (s : State) : (modWq i f s).evt = s.evt := rfl
@[simp] theorem modWq_pmc (i : Nat) (f : WayQ → WayQ) (s : State) : (modWq i f s).pmc = s.pmc := rfl
@[simp] theorem modWq_dbg (i : Nat) (f : WayQ → WayQ) (s : State) : (modWq i f s).dbg = s.dbg := rfl
@[simp] theorem modWq_int (i : Nat) (f : WayQ → WayQ) (s : State) : (modWq i f s).int = s.int := rfl
@[simp] theorem modWq_out (i : Nat) (f : WayQ → WayQ) (s : State) : (modWq i f s).out = s.out := rfl
@[simp] theorem modWq_pending (i : Nat) (f : WayQ → WayQ) (s : State) : (modWq i f s).pending = s.pending := rfl

/-! `setSamples` changes `pmc` alone. -/

@[simp] theorem setSamples_dev (l : List (Nat × List Byte)) (s : State) : (setSamples l s).dev = s.dev := rfl
@[simp] theorem setSamples_reg (l : List (Nat × List Byte)) (s : State) : (setSamples l s).reg = s.reg := rfl
@[simp] theorem setSamples_tm (l : List (Nat × List Byte)) (s : State) : (setSamples l s).tm = s.tm := rfl
@[simp] theorem setSamples_zx (l : List (Nat × List Byte)) (s : State) : (setSamples l s).zx = s.zx := rfl
@[simp] theorem setSamples_pic (l : List (Nat × List Byte)) (s : State) : (setSamples l s).pic = s.pic := rfl
@[simp] theorem setSamples_lan (l : List (Nat × List Byte)) (s : State) : (setSamples l s).lan = s.lan := rfl
@[simp] theorem setSamples_pat (l : List (Nat × List Byte)) (s : State) : (setSamples l s).pat = s.pat := rfl
@[simp] theorem setSamples_trn (l : List (Nat × List Byte)) (s : State) : (setSamples l s).trn = s.trn := rfl
@[simp] theorem setSamples_home (l : List (Nat × List Byte)) (s : State) : (setSamples l s).home = s.home := rfl
@[simp] theorem setSamples_heldLeases (l : List (Nat × List Byte)) (s : State) : (setSamples l s).heldLeases = s.heldLeases := rfl
@[simp] theorem setSamples_cc (l : List (Nat × List Byte)) (s : State) : (setSamples l s).cc = s.cc := rfl
@[simp] theorem setSamples_kee (l : List (Nat × List Byte)) (s : State) : (setSamples l s).kee = s.kee := rfl
@[simp] theorem setSamples_ten (l : List (Nat × List Byte)) (s : State) : (setSamples l s).ten = s.ten := rfl
@[simp] theorem setSamples_can (l : List (Nat × List Byte)) (s : State) : (setSamples l s).can = s.can := rfl
@[simp] theorem setSamples_evt (l : List (Nat × List Byte)) (s : State) : (setSamples l s).evt = s.evt := rfl
@[simp] theorem setSamples_dbg (l : List (Nat × List Byte)) (s : State) : (setSamples l s).dbg = s.dbg := rfl
@[simp] theorem setSamples_int (l : List (Nat × List Byte)) (s : State) : (setSamples l s).int = s.int := rfl
@[simp] theorem setSamples_out (l : List (Nat × List Byte)) (s : State) : (setSamples l s).out = s.out := rfl
@[simp] theorem setSamples_pending (l : List (Nat × List Byte)) (s : State) : (setSamples l s).pending = s.pending := rfl

/-! `setInj` changes `int` alone. -/

@[simp] theorem setInj_dev (d : Nat) (i : Inj) (s : State) : (setInj d i s).dev = s.dev := rfl
@[simp] theorem setInj_reg (d : Nat) (i : Inj) (s : State) : (setInj d i s).reg = s.reg := rfl
@[simp] theorem setInj_tm (d : Nat) (i : Inj) (s : State) : (setInj d i s).tm = s.tm := rfl
@[simp] theorem setInj_zx (d : Nat) (i : Inj) (s : State) : (setInj d i s).zx = s.zx := rfl
@[simp] theorem setInj_pic (d : Nat) (i : Inj) (s : State) : (setInj d i s).pic = s.pic := rfl
@[simp] theorem setInj_lan (d : Nat) (i : Inj) (s : State) : (setInj d i s).lan = s.lan := rfl
@[simp] theorem setInj_pat (d : Nat) (i : Inj) (s : State) : (setInj d i s).pat = s.pat := rfl
@[simp] theorem setInj_trn (d : Nat) (i : Inj) (s : State) : (setInj d i s).trn = s.trn := rfl
@[simp] theorem setInj_home (d : Nat) (i : Inj) (s : State) : (setInj d i s).home = s.home := rfl
@[simp] theorem setInj_heldLeases (d : Nat) (i : Inj) (s : State) : (setInj d i s).heldLeases = s.heldLeases := rfl
@[simp] theorem setInj_cc (d : Nat) (i : Inj) (s : State) : (setInj d i s).cc = s.cc := rfl
@[simp] theorem setInj_kee (d : Nat) (i : Inj) (s : State) : (setInj d i s).kee = s.kee := rfl
@[simp] theorem setInj_ten (d : Nat) (i : Inj) (s : State) : (setInj d i s).ten = s.ten := rfl
@[simp] theorem setInj_can (d : Nat) (i : Inj) (s : State) : (setInj d i s).can = s.can := rfl
@[simp] theorem setInj_evt (d : Nat) (i : Inj) (s : State) : (setInj d i s).evt = s.evt := rfl
@[simp] theorem setInj_pmc (d : Nat) (i : Inj) (s : State) : (setInj d i s).pmc = s.pmc := rfl
@[simp] theorem setInj_dbg (d : Nat) (i : Inj) (s : State) : (setInj d i s).dbg = s.dbg := rfl
@[simp] theorem setInj_out (d : Nat) (i : Inj) (s : State) : (setInj d i s).out = s.out := rfl
@[simp] theorem setInj_pending (d : Nat) (i : Inj) (s : State) : (setInj d i s).pending = s.pending := rfl

/-! `dapEnd` changes `dbg` alone. -/

@[simp] theorem dapEnd_dev (status : Nat) (data : Word) (s : State) : (dapEnd status data s).dev = s.dev := rfl
@[simp] theorem dapEnd_reg (status : Nat) (data : Word) (s : State) : (dapEnd status data s).reg = s.reg := rfl
@[simp] theorem dapEnd_tm (status : Nat) (data : Word) (s : State) : (dapEnd status data s).tm = s.tm := rfl
@[simp] theorem dapEnd_zx (status : Nat) (data : Word) (s : State) : (dapEnd status data s).zx = s.zx := rfl
@[simp] theorem dapEnd_pic (status : Nat) (data : Word) (s : State) : (dapEnd status data s).pic = s.pic := rfl
@[simp] theorem dapEnd_lan (status : Nat) (data : Word) (s : State) : (dapEnd status data s).lan = s.lan := rfl
@[simp] theorem dapEnd_pat (status : Nat) (data : Word) (s : State) : (dapEnd status data s).pat = s.pat := rfl
@[simp] theorem dapEnd_trn (status : Nat) (data : Word) (s : State) : (dapEnd status data s).trn = s.trn := rfl
@[simp] theorem dapEnd_home (status : Nat) (data : Word) (s : State) : (dapEnd status data s).home = s.home := rfl
@[simp] theorem dapEnd_heldLeases (status : Nat) (data : Word) (s : State) : (dapEnd status data s).heldLeases = s.heldLeases := rfl
@[simp] theorem dapEnd_cc (status : Nat) (data : Word) (s : State) : (dapEnd status data s).cc = s.cc := rfl
@[simp] theorem dapEnd_kee (status : Nat) (data : Word) (s : State) : (dapEnd status data s).kee = s.kee := rfl
@[simp] theorem dapEnd_ten (status : Nat) (data : Word) (s : State) : (dapEnd status data s).ten = s.ten := rfl
@[simp] theorem dapEnd_can (status : Nat) (data : Word) (s : State) : (dapEnd status data s).can = s.can := rfl
@[simp] theorem dapEnd_evt (status : Nat) (data : Word) (s : State) : (dapEnd status data s).evt = s.evt := rfl
@[simp] theorem dapEnd_pmc (status : Nat) (data : Word) (s : State) : (dapEnd status data s).pmc = s.pmc := rfl
@[simp] theorem dapEnd_int (status : Nat) (data : Word) (s : State) : (dapEnd status data s).int = s.int := rfl
@[simp] theorem dapEnd_out (status : Nat) (data : Word) (s : State) : (dapEnd status data s).out = s.out := rfl
@[simp] theorem dapEnd_pending (status : Nat) (data : Word) (s : State) : (dapEnd status data s).pending = s.pending := rfl

/-! `modTrk` changes `home` alone. -/

@[simp] theorem modTrk_dev (ix : Nat) (f : Tracker → Tracker) (s : State) : (modTrk ix f s).dev = s.dev := rfl
@[simp] theorem modTrk_reg (ix : Nat) (f : Tracker → Tracker) (s : State) : (modTrk ix f s).reg = s.reg := rfl
@[simp] theorem modTrk_tm (ix : Nat) (f : Tracker → Tracker) (s : State) : (modTrk ix f s).tm = s.tm := rfl
@[simp] theorem modTrk_zx (ix : Nat) (f : Tracker → Tracker) (s : State) : (modTrk ix f s).zx = s.zx := rfl
@[simp] theorem modTrk_pic (ix : Nat) (f : Tracker → Tracker) (s : State) : (modTrk ix f s).pic = s.pic := rfl
@[simp] theorem modTrk_lan (ix : Nat) (f : Tracker → Tracker) (s : State) : (modTrk ix f s).lan = s.lan := rfl
@[simp] theorem modTrk_pat (ix : Nat) (f : Tracker → Tracker) (s : State) : (modTrk ix f s).pat = s.pat := rfl
@[simp] theorem modTrk_trn (ix : Nat) (f : Tracker → Tracker) (s : State) : (modTrk ix f s).trn = s.trn := rfl
@[simp] theorem modTrk_heldLeases (ix : Nat) (f : Tracker → Tracker) (s : State) : (modTrk ix f s).heldLeases = s.heldLeases := rfl
@[simp] theorem modTrk_cc (ix : Nat) (f : Tracker → Tracker) (s : State) : (modTrk ix f s).cc = s.cc := rfl
@[simp] theorem modTrk_kee (ix : Nat) (f : Tracker → Tracker) (s : State) : (modTrk ix f s).kee = s.kee := rfl
@[simp] theorem modTrk_ten (ix : Nat) (f : Tracker → Tracker) (s : State) : (modTrk ix f s).ten = s.ten := rfl
@[simp] theorem modTrk_can (ix : Nat) (f : Tracker → Tracker) (s : State) : (modTrk ix f s).can = s.can := rfl
@[simp] theorem modTrk_evt (ix : Nat) (f : Tracker → Tracker) (s : State) : (modTrk ix f s).evt = s.evt := rfl
@[simp] theorem modTrk_pmc (ix : Nat) (f : Tracker → Tracker) (s : State) : (modTrk ix f s).pmc = s.pmc := rfl
@[simp] theorem modTrk_dbg (ix : Nat) (f : Tracker → Tracker) (s : State) : (modTrk ix f s).dbg = s.dbg := rfl
@[simp] theorem modTrk_int (ix : Nat) (f : Tracker → Tracker) (s : State) : (modTrk ix f s).int = s.int := rfl
@[simp] theorem modTrk_out (ix : Nat) (f : Tracker → Tracker) (s : State) : (modTrk ix f s).out = s.out := rfl
@[simp] theorem modTrk_pending (ix : Nat) (f : Tracker → Tracker) (s : State) : (modTrk ix f s).pending = s.pending := rfl

/-! `freeTrk` changes `home` alone. -/

@[simp] theorem freeTrk_dev (ix : Nat) (s : State) : (freeTrk ix s).dev = s.dev := rfl
@[simp] theorem freeTrk_reg (ix : Nat) (s : State) : (freeTrk ix s).reg = s.reg := rfl
@[simp] theorem freeTrk_tm (ix : Nat) (s : State) : (freeTrk ix s).tm = s.tm := rfl
@[simp] theorem freeTrk_zx (ix : Nat) (s : State) : (freeTrk ix s).zx = s.zx := rfl
@[simp] theorem freeTrk_pic (ix : Nat) (s : State) : (freeTrk ix s).pic = s.pic := rfl
@[simp] theorem freeTrk_lan (ix : Nat) (s : State) : (freeTrk ix s).lan = s.lan := rfl
@[simp] theorem freeTrk_pat (ix : Nat) (s : State) : (freeTrk ix s).pat = s.pat := rfl
@[simp] theorem freeTrk_trn (ix : Nat) (s : State) : (freeTrk ix s).trn = s.trn := rfl
@[simp] theorem freeTrk_heldLeases (ix : Nat) (s : State) : (freeTrk ix s).heldLeases = s.heldLeases := rfl
@[simp] theorem freeTrk_cc (ix : Nat) (s : State) : (freeTrk ix s).cc = s.cc := rfl
@[simp] theorem freeTrk_kee (ix : Nat) (s : State) : (freeTrk ix s).kee = s.kee := rfl
@[simp] theorem freeTrk_ten (ix : Nat) (s : State) : (freeTrk ix s).ten = s.ten := rfl
@[simp] theorem freeTrk_can (ix : Nat) (s : State) : (freeTrk ix s).can = s.can := rfl
@[simp] theorem freeTrk_evt (ix : Nat) (s : State) : (freeTrk ix s).evt = s.evt := rfl
@[simp] theorem freeTrk_pmc (ix : Nat) (s : State) : (freeTrk ix s).pmc = s.pmc := rfl
@[simp] theorem freeTrk_dbg (ix : Nat) (s : State) : (freeTrk ix s).dbg = s.dbg := rfl
@[simp] theorem freeTrk_int (ix : Nat) (s : State) : (freeTrk ix s).int = s.int := rfl
@[simp] theorem freeTrk_out (ix : Nat) (s : State) : (freeTrk ix s).out = s.out := rfl
@[simp] theorem freeTrk_pending (ix : Nat) (s : State) : (freeTrk ix s).pending = s.pending := rfl

/-! `waitAs` changes `ten` alone. -/

@[simp] theorem waitAs_dev (b : Nat) (w : BWait) (s : State) : (waitAs b w s).dev = s.dev := rfl
@[simp] theorem waitAs_reg (b : Nat) (w : BWait) (s : State) : (waitAs b w s).reg = s.reg := rfl
@[simp] theorem waitAs_tm (b : Nat) (w : BWait) (s : State) : (waitAs b w s).tm = s.tm := rfl
@[simp] theorem waitAs_zx (b : Nat) (w : BWait) (s : State) : (waitAs b w s).zx = s.zx := rfl
@[simp] theorem waitAs_pic (b : Nat) (w : BWait) (s : State) : (waitAs b w s).pic = s.pic := rfl
@[simp] theorem waitAs_lan (b : Nat) (w : BWait) (s : State) : (waitAs b w s).lan = s.lan := rfl
@[simp] theorem waitAs_pat (b : Nat) (w : BWait) (s : State) : (waitAs b w s).pat = s.pat := rfl
@[simp] theorem waitAs_trn (b : Nat) (w : BWait) (s : State) : (waitAs b w s).trn = s.trn := rfl
@[simp] theorem waitAs_home (b : Nat) (w : BWait) (s : State) : (waitAs b w s).home = s.home := rfl
@[simp] theorem waitAs_heldLeases (b : Nat) (w : BWait) (s : State) : (waitAs b w s).heldLeases = s.heldLeases := rfl
@[simp] theorem waitAs_cc (b : Nat) (w : BWait) (s : State) : (waitAs b w s).cc = s.cc := rfl
@[simp] theorem waitAs_kee (b : Nat) (w : BWait) (s : State) : (waitAs b w s).kee = s.kee := rfl
@[simp] theorem waitAs_can (b : Nat) (w : BWait) (s : State) : (waitAs b w s).can = s.can := rfl
@[simp] theorem waitAs_evt (b : Nat) (w : BWait) (s : State) : (waitAs b w s).evt = s.evt := rfl
@[simp] theorem waitAs_pmc (b : Nat) (w : BWait) (s : State) : (waitAs b w s).pmc = s.pmc := rfl
@[simp] theorem waitAs_dbg (b : Nat) (w : BWait) (s : State) : (waitAs b w s).dbg = s.dbg := rfl
@[simp] theorem waitAs_int (b : Nat) (w : BWait) (s : State) : (waitAs b w s).int = s.int := rfl
@[simp] theorem waitAs_out (b : Nat) (w : BWait) (s : State) : (waitAs b w s).out = s.out := rfl
@[simp] theorem waitAs_pending (b : Nat) (w : BWait) (s : State) : (waitAs b w s).pending = s.pending := rfl

/-! `modSide` changes `lan` alone. -/

@[simp] theorem modSide_dev (l : LaneId) (sd : Side) (f : SideSt → SideSt) (s : State) : (modSide l sd f s).dev = s.dev := rfl
@[simp] theorem modSide_reg (l : LaneId) (sd : Side) (f : SideSt → SideSt) (s : State) : (modSide l sd f s).reg = s.reg := rfl
@[simp] theorem modSide_tm (l : LaneId) (sd : Side) (f : SideSt → SideSt) (s : State) : (modSide l sd f s).tm = s.tm := rfl
@[simp] theorem modSide_zx (l : LaneId) (sd : Side) (f : SideSt → SideSt) (s : State) : (modSide l sd f s).zx = s.zx := rfl
@[simp] theorem modSide_pic (l : LaneId) (sd : Side) (f : SideSt → SideSt) (s : State) : (modSide l sd f s).pic = s.pic := rfl
@[simp] theorem modSide_pat (l : LaneId) (sd : Side) (f : SideSt → SideSt) (s : State) : (modSide l sd f s).pat = s.pat := rfl
@[simp] theorem modSide_trn (l : LaneId) (sd : Side) (f : SideSt → SideSt) (s : State) : (modSide l sd f s).trn = s.trn := rfl
@[simp] theorem modSide_home (l : LaneId) (sd : Side) (f : SideSt → SideSt) (s : State) : (modSide l sd f s).home = s.home := rfl
@[simp] theorem modSide_heldLeases (l : LaneId) (sd : Side) (f : SideSt → SideSt) (s : State) : (modSide l sd f s).heldLeases = s.heldLeases := rfl
@[simp] theorem modSide_cc (l : LaneId) (sd : Side) (f : SideSt → SideSt) (s : State) : (modSide l sd f s).cc = s.cc := rfl
@[simp] theorem modSide_kee (l : LaneId) (sd : Side) (f : SideSt → SideSt) (s : State) : (modSide l sd f s).kee = s.kee := rfl
@[simp] theorem modSide_ten (l : LaneId) (sd : Side) (f : SideSt → SideSt) (s : State) : (modSide l sd f s).ten = s.ten := rfl
@[simp] theorem modSide_can (l : LaneId) (sd : Side) (f : SideSt → SideSt) (s : State) : (modSide l sd f s).can = s.can := rfl
@[simp] theorem modSide_evt (l : LaneId) (sd : Side) (f : SideSt → SideSt) (s : State) : (modSide l sd f s).evt = s.evt := rfl
@[simp] theorem modSide_pmc (l : LaneId) (sd : Side) (f : SideSt → SideSt) (s : State) : (modSide l sd f s).pmc = s.pmc := rfl
@[simp] theorem modSide_dbg (l : LaneId) (sd : Side) (f : SideSt → SideSt) (s : State) : (modSide l sd f s).dbg = s.dbg := rfl
@[simp] theorem modSide_int (l : LaneId) (sd : Side) (f : SideSt → SideSt) (s : State) : (modSide l sd f s).int = s.int := rfl
@[simp] theorem modSide_out (l : LaneId) (sd : Side) (f : SideSt → SideSt) (s : State) : (modSide l sd f s).out = s.out := rfl
@[simp] theorem modSide_pending (l : LaneId) (sd : Side) (f : SideSt → SideSt) (s : State) : (modSide l sd f s).pending = s.pending := rfl

/-! `putPrp` changes `pat` alone. -/

@[simp] theorem putPrp_dev (p : Proposal) (s : State) : (putPrp p s).dev = s.dev := rfl
@[simp] theorem putPrp_reg (p : Proposal) (s : State) : (putPrp p s).reg = s.reg := rfl
@[simp] theorem putPrp_tm (p : Proposal) (s : State) : (putPrp p s).tm = s.tm := rfl
@[simp] theorem putPrp_zx (p : Proposal) (s : State) : (putPrp p s).zx = s.zx := rfl
@[simp] theorem putPrp_pic (p : Proposal) (s : State) : (putPrp p s).pic = s.pic := rfl
@[simp] theorem putPrp_lan (p : Proposal) (s : State) : (putPrp p s).lan = s.lan := rfl
@[simp] theorem putPrp_trn (p : Proposal) (s : State) : (putPrp p s).trn = s.trn := rfl
@[simp] theorem putPrp_home (p : Proposal) (s : State) : (putPrp p s).home = s.home := rfl
@[simp] theorem putPrp_heldLeases (p : Proposal) (s : State) : (putPrp p s).heldLeases = s.heldLeases := rfl
@[simp] theorem putPrp_cc (p : Proposal) (s : State) : (putPrp p s).cc = s.cc := rfl
@[simp] theorem putPrp_kee (p : Proposal) (s : State) : (putPrp p s).kee = s.kee := rfl
@[simp] theorem putPrp_ten (p : Proposal) (s : State) : (putPrp p s).ten = s.ten := rfl
@[simp] theorem putPrp_can (p : Proposal) (s : State) : (putPrp p s).can = s.can := rfl
@[simp] theorem putPrp_evt (p : Proposal) (s : State) : (putPrp p s).evt = s.evt := rfl
@[simp] theorem putPrp_pmc (p : Proposal) (s : State) : (putPrp p s).pmc = s.pmc := rfl
@[simp] theorem putPrp_dbg (p : Proposal) (s : State) : (putPrp p s).dbg = s.dbg := rfl
@[simp] theorem putPrp_int (p : Proposal) (s : State) : (putPrp p s).int = s.int := rfl
@[simp] theorem putPrp_out (p : Proposal) (s : State) : (putPrp p s).out = s.out := rfl
@[simp] theorem putPrp_pending (p : Proposal) (s : State) : (putPrp p s).pending = s.pending := rfl

end Sys2Proof.Machine
end

