-- ==== Sys2Proof/Laws/Works.lean ====
section
/-! SUPPORT. The coherence engine's operations, one lemma each: from a state that the engine reached by its own work (`Works`), the
operation reaches another such state. Whatever an operation of line storage, directory, copies, bobbins, leases or transfers does, it
leaves the rest of the node as it was. -/

set_option linter.all false

namespace Sys2Proof
open Machine

theorem Works.refl (s : State) : Works s s where
  dev := rfl
  cur := fun _ _ => rfl
  staged := rfl
  stagedClk := rfl
  tm := rfl
  zx := rfl
  pic := rfl
  lan := rfl
  pat := rfl
  trn := rfl
  kee := rfl
  push := rfl
  pend := fun _ h => h
  dbg := rfl
  int := rfl
  pending := rfl

theorem Works.trans {s t u : State} (h : Works s t) (g : Works t u) : Works s u where
  dev := g.dev.trans h.dev
  cur := fun o p => (g.cur o p).trans (h.cur o p)
  staged := g.staged.trans h.staged
  stagedClk := g.stagedClk.trans h.stagedClk
  tm := by rw [g.tm, h.tm]
  zx := g.zx.trans h.zx
  pic := g.pic.trans h.pic
  lan := by rw [g.lan, h.lan]
  pat := by rw [g.pat, h.pat]
  trn := by rw [g.trn, h.trn]
  kee := g.kee.trans h.kee
  push := g.push.trans h.push
  pend := fun e p => g.pend e (h.pend e p)
  dbg := g.dbg.trans h.dbg
  int := g.int.trans h.int
  pending := g.pending.trans h.pending

theorem Reports.works {s t : State} (h : Reports s t) : Works s t where
  dev := h.dev
  cur := fun o _ => by simp only [regCur, h.cur]
  staged := h.staged
  stagedClk := h.stagedClk
  tm := by rw [h.tm]
  zx := h.zx
  pic := h.pic
  lan := by rw [h.lan]
  pat := by rw [h.pat]
  trn := by rw [h.trn]
  kee := h.kee
  push := by rw [h.ten]
  pend := h.pend
  dbg := h.dbg
  int := h.int
  pending := h.pending

end Sys2Proof

namespace Sys2Proof.Machine

theorem flex_works {s t : State} (h : Works s t) (a : HomeSt) (b : CacheSt) (c : CanSt) (d : PmcSt) (e : List HeldLease)
    (o : List Out) (x : TenSt) (hx : x.push = t.ten.push) :
    Works s { t with home := a, cc := b, can := c, pmc := d, heldLeases := e, out := o, ten := x } := h.trans { Works.refl t with push := hx }
theorem lan_works {s t : State} (h : Works s t) (x : List TxItem) (y : List (Nat × TxItem)) (z : Table Nat) :
    Works s { t with lan := { t.lan with txq := x, probeWait := y, credit := z } } := h.trans { Works.refl t with lan := rfl }
theorem ctr_works {s t : State} (h : Works s t) (x : Table Nat) : Works s { t with reg := { t.reg with ctr := x } } :=
  h.trans { Works.refl t with cur := fun _ _ => rfl }
theorem draws_works {s t : State} (h : Works s t) (x : Nat) : Works s { t with tm := { t.tm with draws := x } } :=
  h.trans { Works.refl t with tm := rfl }
theorem moving_works {s t : State} (h : Works s t) (x : List (Nat × Nat)) : Works s { t with pat := { t.pat with moving := x } } :=
  h.trans { Works.refl t with pat := rfl }
theorem trn_works {s t : State} (h : Works s t) (a b c : BitVec 8) (d : List (Nat × Bool)) (e : Bool) (f : List MigOut) (g : List MigIn) :
    Works s { t with trn := { t.trn with roleSrc := a, held := b, mirrV := c, needAck := d, sendResume := e, migOut := f, migIn := g } } :=
  h.trans { Works.refl t with trn := rfl }
theorem count_works {s t : State} (h : Works s t) (o n : Nat) : Works s (count o n t) := h.trans (count_reports o n t).works
theorem perf_works {s t : State} (h : Works s t) (e : Nat) (n : Option Nat) : Works s (perf e n t) := h.trans (perf_reports e n t).works
theorem perfN_works {s t : State} (h : Works s t) (e k : Nat) (n : Option Nat) : Works s (perfN e k n t) := h.trans (perfN_reports e k n t).works
theorem raise_works {s t : State} (h : Works s t) (e : Nat) (d : List Byte) : Works s (raise e d t) := h.trans (raise_reports e d t).works
theorem raiseTo_works {s t : State} (h : Works s t) (o e : Nat) (d : List Byte) : Works s (raiseTo o e d t) := h.trans (raiseTo_reports o e d t).works
theorem cqPut_works {s t : State} (h : Works s t) (n : Nat) (i : CqItem) : Works s (cqPut n i t).1 := h.trans (cqPut_reports n i t).works
theorem each_works {α : Type} {s t : State} (h : Works s t) (l : List α) (f : State → α → State)
    (hf : ∀ u a, Works s u → Works s (f u a)) : Works s (each l f t) := by
  induction l generalizing t with
  | nil => exact h
  | cons a l ih => exact ih (hf t a h)

/-! ### Lines -/

theorem setLine_works {σ τ : State} (hw : Works σ τ) (la : Nat) (h : HomeLine) : Works σ (setLine la h τ) := by
  unfold setLine
  repeat' (first
    | (extract_lets +onlyGivenNames x; try (refine (fun hx : Works σ x => ?_) ?_; on_goal 1 => clear_value x; on_goal 2 => subst x))
    | with_reducible assumption | with_reducible rfl |  split | (rename State => x; subst x) | with_reducible apply flex_works
    | with_reducible apply lan_works | with_reducible apply trn_works | with_reducible apply moving_works | with_reducible apply draws_works
    | with_reducible apply ctr_works)

theorem setEntry_works {σ τ : State} (hw : Works σ τ) (la : Nat) (e : Option FEntry) : Works σ (setEntry la e τ) := by
  unfold setEntry
  repeat' (first
    | (extract_lets +onlyGivenNames x; try (refine (fun hx : Works σ x => ?_) ?_; on_goal 1 => clear_value x; on_goal 2 => subst x))
    | with_reducible assumption | with_reducible rfl |  split | (rename State => x; subst x) | with_reducible apply flex_works
    | with_reducible apply lan_works | with_reducible apply trn_works | with_reducible apply moving_works | with_reducible apply draws_works
    | with_reducible apply ctr_works)

theorem setTrks_works {σ τ : State} (hw : Works σ τ) (l : List Tracker) : Works σ (setTrks l τ) := by
  unfold setTrks
  repeat' (first
    | (extract_lets +onlyGivenNames x; try (refine (fun hx : Works σ x => ?_) ?_; on_goal 1 => clear_value x; on_goal 2 => subst x))
    | with_reducible assumption | with_reducible rfl |  split | (rename State => x; subst x) | with_reducible apply flex_works
    | with_reducible apply lan_works | with_reducible apply trn_works | with_reducible apply moving_works | with_reducible apply draws_works
    | with_reducible apply ctr_works)

theorem modTrk_works {σ τ : State} (hw : Works σ τ) (ix : Nat) (f : Tracker → Tracker) : Works σ (modTrk ix f τ) := by
  unfold modTrk
  repeat' (first
    | (extract_lets +onlyGivenNames x; try (refine (fun hx : Works σ x => ?_) ?_; on_goal 1 => clear_value x; on_goal 2 => subst x))
    | with_reducible assumption | with_reducible rfl |  with_reducible apply setTrks_works | split | (rename State => x; subst x)
    | with_reducible apply flex_works | with_reducible apply lan_works | with_reducible apply trn_works | with_reducible apply moving_works
    | with_reducible apply draws_works | with_reducible apply ctr_works)

theorem freeTrk_works {σ τ : State} (hw : Works σ τ) (ix : Nat) : Works σ (freeTrk ix τ) := by
  unfold freeTrk
  repeat' (first
    | (extract_lets +onlyGivenNames x; try (refine (fun hx : Works σ x => ?_) ?_; on_goal 1 => clear_value x; on_goal 2 => subst x))
    | with_reducible assumption | with_reducible rfl |  with_reducible apply setTrks_works | split | (rename State => x; subst x)
    | with_reducible apply flex_works | with_reducible apply lan_works | with_reducible apply trn_works | with_reducible apply moving_works
    | with_reducible apply draws_works | with_reducible apply ctr_works)

theorem setBob_works {σ τ : State} (hw : Works σ τ) (b : Nat) (v : Bobbin) : Works σ (setBob b v τ) := by
  unfold setBob
  repeat' (first
    | (extract_lets +onlyGivenNames x; try (refine (fun hx : Works σ x => ?_) ?_; on_goal 1 => clear_value x; on_goal 2 => subst x))
    | with_reducible assumption | with_reducible rfl |  split | (rename State => x; subst x) | with_reducible apply flex_works
    | with_reducible apply lan_works | with_reducible apply trn_works | with_reducible apply moving_works | with_reducible apply draws_works
    | with_reducible apply ctr_works)

theorem modBob_works {σ τ : State} (hw : Works σ τ) (b : Nat) (f : Bobbin → Bobbin) : Works σ (modBob b f τ) := by
  unfold modBob
  repeat' (first
    | (extract_lets +onlyGivenNames x; try (refine (fun hx : Works σ x => ?_) ?_; on_goal 1 => clear_value x; on_goal 2 => subst x))
    | with_reducible assumption | with_reducible rfl |  split | (rename State => x; subst x) | with_reducible apply flex_works
    | with_reducible apply lan_works | with_reducible apply trn_works | with_reducible apply moving_works | with_reducible apply draws_works
    | with_reducible apply ctr_works)

theorem freeBob_works {σ τ : State} (hw : Works σ τ) (b : Nat) : Works σ (freeBob b τ) := by
  unfold freeBob
  repeat' (first
    | (extract_lets +onlyGivenNames x; try (refine (fun hx : Works σ x => ?_) ?_; on_goal 1 => clear_value x; on_goal 2 => subst x))
    | with_reducible assumption | with_reducible rfl |  split | (rename State => x; subst x) | with_reducible apply flex_works
    | with_reducible apply lan_works | with_reducible apply trn_works | with_reducible apply moving_works | with_reducible apply draws_works
    | with_reducible apply ctr_works)

theorem queueMsg_works {σ τ : State} (hw : Works σ τ) (m : LineMsg) (bob : Option Nat) : Works σ (queueMsg m bob τ) := by
  unfold queueMsg
  repeat' (first
    | (extract_lets +onlyGivenNames x; try (refine (fun hx : Works σ x => ?_) ?_; on_goal 1 => clear_value x; on_goal 2 => subst x))
    | with_reducible assumption | with_reducible rfl |  split | (rename State => x; subst x) | with_reducible apply flex_works
    | with_reducible apply lan_works | with_reducible apply trn_works | with_reducible apply moving_works | with_reducible apply draws_works
    | with_reducible apply ctr_works)

theorem queueProbe_works {σ τ : State} (hw : Works σ τ) (k : Nat) (m : LineMsg) : Works σ (queueProbe k m τ) := by
  unfold queueProbe
  repeat' (first
    | (extract_lets +onlyGivenNames x; try (refine (fun hx : Works σ x => ?_) ?_; on_goal 1 => clear_value x; on_goal 2 => subst x))
    | with_reducible assumption | with_reducible rfl |  with_reducible apply queueMsg_works | split | (rename State => x; subst x)
    | with_reducible apply flex_works | with_reducible apply lan_works | with_reducible apply trn_works | with_reducible apply moving_works
    | with_reducible apply draws_works | with_reducible apply ctr_works)

theorem returnCredit_works {σ τ : State} (hw : Works σ τ) (k : Nat) : Works σ (returnCredit k τ) := by
  unfold returnCredit
  repeat' (first
    | (extract_lets +onlyGivenNames x; try (refine (fun hx : Works σ x => ?_) ?_; on_goal 1 => clear_value x; on_goal 2 => subst x))
    | with_reducible assumption | with_reducible rfl |  split | (rename State => x; subst x) | with_reducible apply flex_works
    | with_reducible apply lan_works | with_reducible apply trn_works | with_reducible apply moving_works | with_reducible apply draws_works
    | with_reducible apply ctr_works)

theorem queueWrote_works {σ τ : State} (hw : Works σ τ) (m : LineMsg) (k : Option WKey) : Works σ (queueWrote m k τ) := by
  unfold queueWrote
  repeat' (first
    | (extract_lets +onlyGivenNames x; try (refine (fun hx : Works σ x => ?_) ?_; on_goal 1 => clear_value x; on_goal 2 => subst x))
    | with_reducible assumption | with_reducible rfl | split | (rename State => x; subst x) | with_reducible apply flex_works
    | with_reducible apply lan_works | with_reducible apply trn_works | with_reducible apply moving_works | with_reducible apply draws_works
    | with_reducible apply ctr_works)

theorem queueUpdate_works {σ τ : State} (hw : Works σ τ) (m : LineMsg) : Works σ (queueUpdate m τ) := by
  unfold queueUpdate
  repeat' (first
    | (extract_lets +onlyGivenNames x; try (refine (fun hx : Works σ x => ?_) ?_; on_goal 1 => clear_value x; on_goal 2 => subst x))
    | with_reducible assumption | with_reducible rfl | with_reducible apply queueMsg_works | split | (rename State => x; subst x)
    | with_reducible apply flex_works | with_reducible apply lan_works | with_reducible apply trn_works | with_reducible apply moving_works
    | with_reducible apply draws_works | with_reducible apply ctr_works | dsimp only)

theorem setCopy_works {σ τ : State} (hw : Works σ τ) (k : Nat) (c : Copy) : Works σ (setCopy k c τ) := by
  unfold setCopy
  repeat' (first
    | (extract_lets +onlyGivenNames x; try (refine (fun hx : Works σ x => ?_) ?_; on_goal 1 => clear_value x; on_goal 2 => subst x))
    | with_reducible assumption | with_reducible rfl |  split | (rename State => x; subst x) | with_reducible apply flex_works
    | with_reducible apply lan_works | with_reducible apply trn_works | with_reducible apply moving_works | with_reducible apply draws_works
    | with_reducible apply ctr_works)

theorem dropWay_works {σ τ : State} (hw : Works σ τ) (k : Nat) : Works σ (dropWay k τ) := by
  unfold dropWay
  repeat' (first
    | (extract_lets +onlyGivenNames x; try (refine (fun hx : Works σ x => ?_) ?_; on_goal 1 => clear_value x; on_goal 2 => subst x))
    | with_reducible assumption | with_reducible rfl |  split | (rename State => x; subst x) | with_reducible apply flex_works
    | with_reducible apply lan_works | with_reducible apply trn_works | with_reducible apply moving_works | with_reducible apply draws_works
    | with_reducible apply ctr_works)

theorem modCopy_works {σ τ : State} (hw : Works σ τ) (la : Nat) (f : Copy → Copy) : Works σ (modCopy la f τ) := by
  unfold modCopy
  repeat' (first
    | (extract_lets +onlyGivenNames x; try (refine (fun hx : Works σ x => ?_) ?_; on_goal 1 => clear_value x; on_goal 2 => subst x))
    | with_reducible assumption | with_reducible rfl |  with_reducible apply setCopy_works | split | (rename State => x; subst x)
    | with_reducible apply flex_works | with_reducible apply lan_works | with_reducible apply trn_works | with_reducible apply moving_works
    | with_reducible apply draws_works | with_reducible apply ctr_works)

theorem dropCopy_works {σ τ : State} (hw : Works σ τ) (la : Nat) : Works σ (dropCopy la τ) := by
  unfold dropCopy
  repeat' (first
    | (extract_lets +onlyGivenNames x; try (refine (fun hx : Works σ x => ?_) ?_; on_goal 1 => clear_value x; on_goal 2 => subst x))
    | with_reducible assumption | with_reducible rfl |  with_reducible apply dropWay_works | split | (rename State => x; subst x)
    | with_reducible apply flex_works | with_reducible apply lan_works | with_reducible apply trn_works | with_reducible apply moving_works
    | with_reducible apply draws_works | with_reducible apply ctr_works)

theorem touch_works {σ τ : State} (hw : Works σ τ) (la : Nat) : Works σ (touch la τ) := by
  unfold touch
  repeat' (first
    | (extract_lets +onlyGivenNames x; try (refine (fun hx : Works σ x => ?_) ?_; on_goal 1 => clear_value x; on_goal 2 => subst x))
    | with_reducible assumption | with_reducible rfl |  with_reducible apply modCopy_works | split | (rename State => x; subst x)
    | with_reducible apply flex_works | with_reducible apply lan_works | with_reducible apply trn_works | with_reducible apply moving_works
    | with_reducible apply draws_works | with_reducible apply ctr_works)

theorem sampleChoose_works {σ τ : State} (hw : Works σ τ) (b : Nat) (ten op : Nat) (intern : Bool) : Works σ (sampleChoose b ten op intern τ) := by
  unfold sampleChoose
  repeat' (first
    | (extract_lets +onlyGivenNames x; try (refine (fun hx : Works σ x => ?_) ?_; on_goal 1 => clear_value x; on_goal 2 => subst x))
    | with_reducible assumption | with_reducible rfl |  with_reducible apply modBob_works | split | (rename State => x; subst x)
    | with_reducible apply flex_works | with_reducible apply lan_works | with_reducible apply trn_works | with_reducible apply moving_works
    | with_reducible apply draws_works | with_reducible apply ctr_works)

theorem acceptBob_works {σ τ : State} (hw : Works σ τ) (b : Nat) (v : Bobbin) : Works σ (acceptBob b v τ) := by
  unfold acceptBob
  repeat' (first
    | (extract_lets +onlyGivenNames x; try (refine (fun hx : Works σ x => ?_) ?_; on_goal 1 => clear_value x; on_goal 2 => subst x))
    | with_reducible assumption | with_reducible rfl |  with_reducible apply setBob_works | with_reducible apply sampleChoose_works | split
    | (rename State => x; subst x) | with_reducible apply flex_works | with_reducible apply lan_works | with_reducible apply trn_works
    | with_reducible apply moving_works | with_reducible apply draws_works | with_reducible apply ctr_works)

theorem bindSubStart_works {σ τ : State} (hw : Works σ τ) (i : Nat) (e : Bind) : Works σ (bindSubStart i e τ) := by
  unfold bindSubStart
  repeat' (first
    | (extract_lets +onlyGivenNames x; try (refine (fun hx : Works σ x => ?_) ?_; on_goal 1 => clear_value x; on_goal 2 => subst x))
    | with_reducible assumption | with_reducible rfl |  with_reducible apply acceptBob_works | split | (rename State => x; subst x)
    | with_reducible apply flex_works | with_reducible apply lan_works | with_reducible apply trn_works | with_reducible apply moving_works
    | with_reducible apply draws_works | with_reducible apply ctr_works)

theorem addSub_works {σ τ : State} (hw : Works σ τ) (la t : Nat) : Works σ (addSub la t τ) := by
  unfold addSub
  repeat' (first
    | (extract_lets +onlyGivenNames x; try (refine (fun hx : Works σ x => ?_) ?_; on_goal 1 => clear_value x; on_goal 2 => subst x))
    | with_reducible assumption | with_reducible rfl |  split | (rename State => x; subst x) | with_reducible apply flex_works
    | with_reducible apply lan_works | with_reducible apply trn_works | with_reducible apply moving_works | with_reducible apply draws_works
    | with_reducible apply ctr_works)

theorem delSub_works {σ τ : State} (hw : Works σ τ) (la t : Nat) : Works σ (delSub la t τ) := by
  unfold delSub
  repeat' (first
    | (extract_lets +onlyGivenNames x; try (refine (fun hx : Works σ x => ?_) ?_; on_goal 1 => clear_value x; on_goal 2 => subst x))
    | with_reducible assumption | with_reducible rfl |  split | (rename State => x; subst x) | with_reducible apply flex_works
    | with_reducible apply lan_works | with_reducible apply trn_works | with_reducible apply moving_works | with_reducible apply draws_works
    | with_reducible apply ctr_works)

theorem subLost_works {σ τ : State} (hw : Works σ τ) (la : Nat) : Works σ (subLost la τ) := by
  unfold subLost
  repeat' (first
    | (extract_lets +onlyGivenNames x; try (refine (fun hx : Works σ x => ?_) ?_; on_goal 1 => clear_value x; on_goal 2 => subst x))
    | with_reducible assumption | with_reducible rfl |  with_reducible apply each_works | intro _ _ _ | with_reducible apply raise_works
    | with_reducible apply bindSubStart_works | with_reducible apply delSub_works | split | (rename State => x; subst x)
    | with_reducible apply flex_works | with_reducible apply lan_works | with_reducible apply trn_works | with_reducible apply moving_works
    | with_reducible apply draws_works | with_reducible apply ctr_works)

theorem bindPend_works {σ τ : State} (hw : Works σ τ) (la : Nat) : Works σ (bindPend la τ) := by
  unfold bindPend
  repeat' (first
    | (extract_lets +onlyGivenNames x; try (refine (fun hx : Works σ x => ?_) ?_; on_goal 1 => clear_value x; on_goal 2 => subst x))
    | with_reducible assumption | with_reducible rfl |  with_reducible apply each_works | intro _ _ _ | with_reducible apply count_works
    | with_reducible apply perf_works | split | (rename State => x; subst x) | with_reducible apply flex_works
    | with_reducible apply lan_works | with_reducible apply trn_works | with_reducible apply moving_works | with_reducible apply draws_works
    | with_reducible apply ctr_works)

/-! ### Complete -/

theorem storeOut_works {σ τ : State} (hw : Works σ τ) (b : Bobbin) (bs : List Byte) : Works σ (storeOut b bs τ) :=
  hw.trans (storeOut_reports b bs τ).works

theorem sampleEnd_works {σ τ : State} (hw : Works σ τ) (b : Bobbin) (d : Done) : Works σ (sampleEnd b d τ) := by
  unfold sampleEnd
  repeat' (first
    | (extract_lets +onlyGivenNames x; try (refine (fun hx : Works σ x => ?_) ?_; on_goal 1 => clear_value x; on_goal 2 => subst x))
    | with_reducible assumption | with_reducible rfl |  with_reducible apply raise_works | split | (rename State => x; subst x)
    | with_reducible apply flex_works | with_reducible apply lan_works | with_reducible apply trn_works | with_reducible apply moving_works
    | with_reducible apply draws_works | with_reducible apply ctr_works)

theorem countDone_works {σ τ : State} (hw : Works σ τ) (b : Bobbin) (d : Done) : Works σ (countDone b d τ) :=
  hw.trans (countDone_reports b d τ).works

/-- The receive filters of a port lie above its base. -/

theorem put_works {σ τ : State} (hw : Works σ τ) (p a b v : Nat) : Works σ { τ with reg := τ.reg.put (cbpBase p + a + b) v } :=
  hw.trans { Works.refl τ with
    cur := fun off h => by
      have := h p
      simp only [regCur, RegSt.put]
      split
      · rw [tget_tdel_other _ (by omega)]
      · rw [tget_tset_other _ (by omega)] }

theorem put_put_works {σ τ : State} (hw : Works σ τ) (p a b c d v w : Nat) :
    Works σ { τ with reg := (τ.reg.put (cbpBase p + a + b) v).put (cbpBase p + c + d) w } := put_works (put_works hw p a b v) p c d w

theorem releaseBind_works {σ τ : State} (hw : Works σ τ) (i : Nat) : Works σ (releaseBind i τ) := by
  unfold releaseBind
  split
  · exact hw
  · extract_lets
    split
    · apply put_put_works
      apply flex_works _ _ _ _ _ _ _ _ rfl
      exact flex_works hw _ _ _ _ _ _ _ rfl
    · apply flex_works _ _ _ _ _ _ _ _ rfl
      exact flex_works hw _ _ _ _ _ _ _ rfl

theorem bindWriteDone_works {σ τ : State} (hw : Works σ τ) (i : Nat) (d : Done) : Works σ (bindWriteDone i d τ) := by
  unfold bindWriteDone
  repeat' (first
    | (extract_lets +onlyGivenNames x; try (refine (fun hx : Works σ x => ?_) ?_; on_goal 1 => clear_value x; on_goal 2 => subst x))
    | with_reducible assumption | with_reducible rfl |  with_reducible apply count_works | with_reducible apply perf_works
    | with_reducible apply raise_works | split | (rename State => x; subst x) | with_reducible apply flex_works
    | with_reducible apply lan_works | with_reducible apply trn_works | with_reducible apply moving_works | with_reducible apply draws_works
    | with_reducible apply ctr_works)

theorem completeJob_works {σ τ : State} (hw : Works σ τ) (b : Nat) (v : Bobbin) (d : Done) : Works σ (completeJob b v d τ) := by
  unfold completeJob
  repeat' (first
    | (extract_lets +onlyGivenNames x; try (refine (fun hx : Works σ x => ?_) ?_; on_goal 1 => clear_value x; on_goal 2 => subst x))
    | with_reducible assumption | with_reducible rfl |  with_reducible apply cqPut_works | with_reducible apply raise_works
    | with_reducible apply setBob_works | with_reducible apply freeBob_works | with_reducible apply storeOut_works
    | with_reducible apply sampleEnd_works | with_reducible apply countDone_works | split | (rename State => x; subst x)
    | with_reducible apply flex_works | with_reducible apply lan_works | with_reducible apply trn_works | with_reducible apply moving_works
    | with_reducible apply draws_works | with_reducible apply ctr_works)

theorem bindSubDone_works {σ τ : State} (hw : Works σ τ) (i : Nat) (d : Done) : Works σ (bindSubDone i d τ) := by
  unfold bindSubDone
  repeat' (first
    | (extract_lets +onlyGivenNames x; try (refine (fun hx : Works σ x => ?_) ?_; on_goal 1 => clear_value x; on_goal 2 => subst x))
    | with_reducible assumption | with_reducible rfl |  with_reducible apply releaseBind_works | with_reducible apply completeJob_works
    | split | (rename State => x; subst x) | with_reducible apply flex_works | with_reducible apply lan_works
    | with_reducible apply trn_works | with_reducible apply moving_works | with_reducible apply draws_works
    | with_reducible apply ctr_works)

theorem complete_works {σ τ : State} (hw : Works σ τ) (b : Nat) (d : Done) : Works σ (complete b d τ) := by
  unfold complete
  repeat' (first
    | (extract_lets +onlyGivenNames x; try (refine (fun hx : Works σ x => ?_) ?_; on_goal 1 => clear_value x; on_goal 2 => subst x))
    | with_reducible assumption | with_reducible rfl |  with_reducible apply freeBob_works | with_reducible apply sampleEnd_works
    | with_reducible apply bindWriteDone_works | with_reducible apply completeJob_works | with_reducible apply bindSubDone_works | split
    | (rename State => x; subst x) | with_reducible apply flex_works | with_reducible apply lan_works | with_reducible apply trn_works
    | with_reducible apply moving_works | with_reducible apply draws_works | with_reducible apply ctr_works)

theorem finishLine_works {σ τ : State} (hw : Works σ τ) (b : Nat) (r : LineRes) : Works σ (finishLine b r τ) := by
  unfold finishLine
  repeat' (first
    | (extract_lets +onlyGivenNames x; try (refine (fun hx : Works σ x => ?_) ?_; on_goal 1 => clear_value x; on_goal 2 => subst x))
    | with_reducible assumption | with_reducible rfl | with_reducible apply freeBob_works | with_reducible apply complete_works
    | with_reducible apply setBob_works | split | (rename State => x; subst x) | with_reducible apply flex_works | with_reducible apply lan_works
    | with_reducible apply trn_works | with_reducible apply moving_works | with_reducible apply draws_works | with_reducible apply ctr_works)

theorem withIntern_works {σ τ : State} (hw : Works σ τ) (job : Job) (cls : Cls) (m : LineMsg) : Works σ (withIntern job cls m τ).1 := by
  unfold withIntern
  repeat' (first
    | (extract_lets +onlyGivenNames x; try (refine (fun hx : Works σ x => ?_) ?_; on_goal 1 => clear_value x; on_goal 2 => subst x))
    | with_reducible assumption | with_reducible rfl |  with_reducible apply setBob_works | with_reducible apply queueMsg_works | split
    | (rename State => x; subst x) | with_reducible apply flex_works | with_reducible apply lan_works | with_reducible apply trn_works
    | with_reducible apply moving_works | with_reducible apply draws_works | with_reducible apply ctr_works)

/-! ### Home -/

theorem cohCount_works {σ τ : State} (hw : Works σ τ) (i : Nat) : Works σ (cohCount i τ) := by
  unfold cohCount
  repeat' (first
    | (extract_lets +onlyGivenNames x; try (refine (fun hx : Works σ x => ?_) ?_; on_goal 1 => clear_value x; on_goal 2 => subst x))
    | with_reducible assumption | with_reducible rfl |  with_reducible apply count_works | split | (rename State => x; subst x)
    | with_reducible apply flex_works | with_reducible apply lan_works | with_reducible apply trn_works | with_reducible apply moving_works
    | with_reducible apply draws_works | with_reducible apply ctr_works)

theorem finishTrk_works {σ τ : State} (hw : Works σ τ) (t : Tracker) (b : Nat) (r : LineRes) : Works σ (finishTrk t b r τ) := by
  unfold finishTrk
  repeat' (first
    | (extract_lets +onlyGivenNames x; try (refine (fun hx : Works σ x => ?_) ?_; on_goal 1 => clear_value x; on_goal 2 => subst x))
    | with_reducible assumption | with_reducible rfl | with_reducible apply finishLine_works | split | (rename State => x; subst x)
    | with_reducible apply flex_works | with_reducible apply lan_works | with_reducible apply trn_works | with_reducible apply moving_works
    | with_reducible apply draws_works | with_reducible apply ctr_works)

theorem ackTrk_works {σ τ : State} (hw : Works σ τ) (t : Tracker) (status : Nat) : Works σ (ackTrk t status τ) := by
  unfold ackTrk
  repeat' (first
    | (extract_lets +onlyGivenNames x; try (refine (fun hx : Works σ x => ?_) ?_; on_goal 1 => clear_value x; on_goal 2 => subst x))
    | with_reducible assumption | with_reducible rfl | with_reducible apply freeTrk_works | with_reducible apply finishTrk_works
    | with_reducible apply queueMsg_works | split | (rename State => x; subst x) | with_reducible apply flex_works | with_reducible apply lan_works
    | with_reducible apply trn_works | with_reducible apply moving_works | with_reducible apply draws_works | with_reducible apply ctr_works)

theorem ackWrite_works {σ τ : State} (hw : Works σ τ) (t : Tracker) (status : Nat) : Works σ (ackWrite t status τ) := by
  unfold ackWrite
  repeat' (first
    | (extract_lets +onlyGivenNames x; try (refine (fun hx : Works σ x => ?_) ?_; on_goal 1 => clear_value x; on_goal 2 => subst x))
    | with_reducible assumption | with_reducible rfl | with_reducible apply ackTrk_works | with_reducible apply queueWrote_works
    | with_reducible apply freeTrk_works | split | (rename State => x; subst x) | with_reducible apply flex_works | with_reducible apply lan_works
    | with_reducible apply trn_works | with_reducible apply moving_works | with_reducible apply draws_works | with_reducible apply ctr_works)

theorem dataTrk_works {σ τ : State} (hw : Works σ τ) (t : Tracker) (typ : MsgType) (flg : BitVec 3) : Works σ (dataTrk t typ flg τ) := by
  unfold dataTrk
  repeat' (first
    | (extract_lets +onlyGivenNames x; try (refine (fun hx : Works σ x => ?_) ?_; on_goal 1 => clear_value x; on_goal 2 => subst x))
    | with_reducible assumption | with_reducible rfl | with_reducible apply each_works | intro _ _ _ | with_reducible apply freeTrk_works
    | with_reducible apply cohCount_works | with_reducible apply setLine_works | with_reducible apply finishTrk_works
    | with_reducible apply queueMsg_works | split | (rename State => x; subst x) | with_reducible apply flex_works | with_reducible apply lan_works
    | with_reducible apply trn_works | with_reducible apply moving_works | with_reducible apply draws_works | with_reducible apply ctr_works)

theorem replayAdd_works {σ τ : State} (hw : Works σ τ) (la : Nat) (key : WKey) (version : Word) (c0 : Bool) : Works σ (replayAdd la key version c0 τ) := by
  unfold replayAdd
  repeat' (first
    | (extract_lets +onlyGivenNames x; try (refine (fun hx : Works σ x => ?_) ?_; on_goal 1 => clear_value x; on_goal 2 => subst x))
    | with_reducible assumption | with_reducible rfl | split | (rename State => x; subst x) | with_reducible apply flex_works
    | with_reducible apply lan_works | with_reducible apply trn_works | with_reducible apply moving_works | with_reducible apply draws_works
    | with_reducible apply ctr_works)

theorem mirrorOut_works {σ τ : State} (hw : Works σ τ) (la : Nat) : Works σ (mirrorOut la τ) := by
  unfold mirrorOut
  repeat' (first
    | (extract_lets +onlyGivenNames x; try (refine (fun hx : Works σ x => ?_) ?_; on_goal 1 => clear_value x; on_goal 2 => subst x))
    | with_reducible assumption | with_reducible rfl | with_reducible apply setTrks_works | split | (rename State => x; subst x)
    | with_reducible apply flex_works | with_reducible apply lan_works | with_reducible apply trn_works | with_reducible apply moving_works
    | with_reducible apply draws_works | with_reducible apply ctr_works)

theorem mirrorRetry_works {σ τ : State} (hw : Works σ τ)  : Works σ (mirrorRetry τ) := by
  unfold mirrorRetry
  repeat' (first
    | (extract_lets +onlyGivenNames x; try (refine (fun hx : Works σ x => ?_) ?_; on_goal 1 => clear_value x; on_goal 2 => subst x))
    | with_reducible assumption | with_reducible rfl | with_reducible apply each_works | intro _ _ _ | with_reducible apply mirrorOut_works | split
    | (rename State => x; subst x) | with_reducible apply flex_works | with_reducible apply lan_works | with_reducible apply trn_works
    | with_reducible apply moving_works | with_reducible apply draws_works | with_reducible apply ctr_works)

theorem mirrorSend_works {σ τ : State} (hw : Works σ τ) (la : Nat) : Works σ (mirrorSend la τ).1 := by
  unfold mirrorSend
  repeat' (first
    | (extract_lets +onlyGivenNames x; try (refine (fun hx : Works σ x => ?_) ?_; on_goal 1 => clear_value x; on_goal 2 => subst x))
    | with_reducible assumption | with_reducible rfl | with_reducible apply raise_works | with_reducible apply mirrorOut_works | split
    | (rename State => x; subst x) | with_reducible apply flex_works | with_reducible apply lan_works | with_reducible apply trn_works
    | with_reducible apply moving_works | with_reducible apply draws_works | with_reducible apply ctr_works)

theorem movingSend_works {σ τ : State} (hw : Works σ τ) (la : Nat) : Works σ (movingSend la τ) := by
  unfold movingSend
  repeat' (first
    | (extract_lets +onlyGivenNames x; try (refine (fun hx : Works σ x => ?_) ?_; on_goal 1 => clear_value x; on_goal 2 => subst x))
    | with_reducible assumption | with_reducible rfl |  with_reducible apply queueMsg_works | split | (rename State => x; subst x)
    | with_reducible apply flex_works | with_reducible apply lan_works | with_reducible apply trn_works | with_reducible apply moving_works
    | with_reducible apply draws_works | with_reducible apply ctr_works)

theorem homeCommit_works {σ τ : State} (hw : Works σ τ) (la : Nat) (data : Line) (key : Option WKey) (ten : Option Nat) : Works σ (homeCommit la data key ten τ) := by
  unfold homeCommit
  repeat' (first
    | (extract_lets +onlyGivenNames x; try (refine (fun hx : Works σ x => ?_) ?_; on_goal 1 => clear_value x; on_goal 2 => subst x))
    | with_reducible assumption | with_reducible rfl |  with_reducible apply perf_works | with_reducible apply setLine_works
    | with_reducible apply queueUpdate_works | with_reducible apply bindPend_works | with_reducible apply replayAdd_works
    | with_reducible apply movingSend_works | split | (rename State => x; subst x) | with_reducible apply flex_works
    | with_reducible apply lan_works | with_reducible apply trn_works | with_reducible apply moving_works | with_reducible apply draws_works
    | with_reducible apply ctr_works)

theorem writeDone_works {σ τ : State} (hw : Works σ τ) (t : Tracker) : Works σ (writeDone t τ) := by
  unfold writeDone
  repeat' (first
    | (extract_lets +onlyGivenNames x; try (refine (fun hx : Works σ x => ?_) ?_; on_goal 1 => clear_value x; on_goal 2 => subst x))
    | with_reducible assumption | with_reducible rfl | with_reducible apply finishTrk_works | with_reducible apply freeTrk_works
    | with_reducible apply perf_works | with_reducible apply queueMsg_works | with_reducible apply queueWrote_works
    | with_reducible apply ackWrite_works | split | (rename State => x; subst x) | with_reducible apply flex_works | with_reducible apply lan_works
    | with_reducible apply trn_works | with_reducible apply moving_works | with_reducible apply draws_works | with_reducible apply ctr_works)

theorem afterCommit_works {σ τ : State} (hw : Works σ τ) (t : Tracker) : Works σ (afterCommit t τ) := by
  unfold afterCommit
  repeat' (first
    | (extract_lets +onlyGivenNames x; try (refine (fun hx : Works σ x => ?_) ?_; on_goal 1 => clear_value x; on_goal 2 => subst x))
    | with_reducible assumption | with_reducible rfl | with_reducible apply mirrorSend_works | with_reducible apply modTrk_works
    | with_reducible apply writeDone_works | split | (rename State => x; subst x) | with_reducible apply flex_works | with_reducible apply lan_works
    | with_reducible apply trn_works | with_reducible apply moving_works | with_reducible apply draws_works | with_reducible apply ctr_works)

theorem writeTrk_works {σ τ : State} (hw : Works σ τ) (t : Tracker) : Works σ (writeTrk t τ) := by
  unfold writeTrk
  repeat' (first
    | (extract_lets +onlyGivenNames x; try (refine (fun hx : Works σ x => ?_) ?_; on_goal 1 => clear_value x; on_goal 2 => subst x))
    | with_reducible assumption | with_reducible rfl | with_reducible apply afterCommit_works | with_reducible apply homeCommit_works
    | with_reducible apply modBob_works | with_reducible apply freeTrk_works | with_reducible apply writeDone_works | split
    | (rename State => x; subst x) | with_reducible apply flex_works | with_reducible apply lan_works | with_reducible apply trn_works
    | with_reducible apply moving_works | with_reducible apply draws_works | with_reducible apply ctr_works | dsimp only)

theorem sendProbes_works {σ τ : State} (hw : Works σ τ) (t : Tracker) (nodes : List Nat) : Works σ (sendProbes t nodes τ) := by
  unfold sendProbes
  repeat' (first
    | (extract_lets +onlyGivenNames x; try (refine (fun hx : Works σ x => ?_) ?_; on_goal 1 => clear_value x; on_goal 2 => subst x))
    | with_reducible assumption | with_reducible rfl |  with_reducible apply each_works | intro _ _ _ | with_reducible apply perf_works
    | with_reducible apply queueProbe_works | with_reducible apply cohCount_works | split | (rename State => x; subst x)
    | with_reducible apply flex_works | with_reducible apply lan_works | with_reducible apply trn_works | with_reducible apply moving_works
    | with_reducible apply draws_works | with_reducible apply ctr_works)

theorem startProbe_works {σ τ : State} (hw : Works σ τ) (t : Tracker) (vec : Sharers) : Works σ (startProbe t vec τ) := by
  unfold startProbe
  repeat' (first
    | (extract_lets +onlyGivenNames x; try (refine (fun hx : Works σ x => ?_) ?_; on_goal 1 => clear_value x; on_goal 2 => subst x))
    | with_reducible assumption | with_reducible rfl |  with_reducible apply modTrk_works | with_reducible apply sendProbes_works | split
    | (rename State => x; subst x) | with_reducible apply flex_works | with_reducible apply lan_works | with_reducible apply trn_works
    | with_reducible apply moving_works | with_reducible apply draws_works | with_reducible apply ctr_works)

theorem ownProbe_works {σ τ : State} (hw : Works σ τ) (la : Nat) (p : Purpose) (isRecall keepS victim : Bool) (vec : Sharers) : Works σ (ownProbe la p isRecall keepS victim vec τ).1 := by
  unfold ownProbe
  repeat' (first
    | (extract_lets +onlyGivenNames x; try (refine (fun hx : Works σ x => ?_) ?_; on_goal 1 => clear_value x; on_goal 2 => subst x))
    | with_reducible assumption | with_reducible rfl |  with_reducible apply startProbe_works | split | (rename State => x; subst x)
    | with_reducible apply flex_works | with_reducible apply lan_works | with_reducible apply trn_works | with_reducible apply moving_works
    | with_reducible apply draws_works | with_reducible apply ctr_works)

theorem recallVictim_works {σ τ : State} (hw : Works σ τ) (set : Nat) : Works σ (recallVictim set τ) := by
  unfold recallVictim
  repeat' (first
    | (extract_lets +onlyGivenNames x; try (refine (fun hx : Works σ x => ?_) ?_; on_goal 1 => clear_value x; on_goal 2 => subst x))
    | with_reducible assumption | with_reducible rfl |  with_reducible apply perf_works | with_reducible apply setEntry_works
    | with_reducible apply cohCount_works | with_reducible apply ownProbe_works | split | (rename State => x; subst x)
    | with_reducible apply flex_works | with_reducible apply lan_works | with_reducible apply trn_works | with_reducible apply moving_works
    | with_reducible apply draws_works | with_reducible apply ctr_works)

theorem recallFor_works {σ τ : State} (hw : Works σ τ) (set : Nat) (n : Nat) : Works σ (recallFor set n τ) := by
  unfold recallFor
  repeat' (first
    | (extract_lets +onlyGivenNames x; try (refine (fun hx : Works σ x => ?_) ?_; on_goal 1 => clear_value x; on_goal 2 => subst x))
    | with_reducible assumption | with_reducible rfl | with_reducible apply recallVictim_works | split | (rename State => x; subst x)
    | with_reducible apply flex_works | with_reducible apply lan_works | with_reducible apply trn_works | with_reducible apply moving_works
    | with_reducible apply draws_works | with_reducible apply ctr_works)

theorem putEntry_works {σ τ : State} (hw : Works σ τ) (la : Nat) (st : FState) (vec : Sharers) : Works σ (putEntry la st vec τ) := by
  unfold putEntry
  repeat' (first
    | (extract_lets +onlyGivenNames x; try (refine (fun hx : Works σ x => ?_) ?_; on_goal 1 => clear_value x; on_goal 2 => subst x))
    | with_reducible assumption | with_reducible rfl |  with_reducible apply setEntry_works | split | (rename State => x; subst x)
    | with_reducible apply flex_works | with_reducible apply lan_works | with_reducible apply trn_works | with_reducible apply moving_works
    | with_reducible apply draws_works | with_reducible apply ctr_works)

theorem withWay_works {σ τ : State} (hw : Works σ τ) (t : Tracker) (go : State → State) (hg : ∀ u, Works σ u → Works σ (go u)) :
    Works σ (withWay t go τ) := by
  unfold withWay
  split
  · exact hg _ hw
  · extract_lets _ x
    have hx : Works σ x := recallFor_works hw _ _
    split
    · exact hg _ hx
    · exact modTrk_works hx _ _

theorem dirTrk_works {σ τ : State} (hw : Works σ τ) (t : Tracker) (e : FEntry) : Works σ (dirTrk t e τ) := by
  unfold dirTrk
  repeat' (first
    | (extract_lets +onlyGivenNames x; try (refine (fun hx : Works σ x => ?_) ?_; on_goal 1 => clear_value x; on_goal 2 => subst x))
    | with_reducible assumption | with_reducible rfl | intro _ _ _ _ _ | intro _ _ _ _ | intro _ _ _ | intro _ _ | with_reducible apply withWay_works
    | with_reducible apply freeTrk_works | with_reducible apply setEntry_works | split | (rename State => x; subst x)
    | with_reducible apply flex_works | with_reducible apply lan_works | with_reducible apply trn_works | with_reducible apply moving_works
    | with_reducible apply draws_works | with_reducible apply ctr_works)

theorem clearEntry_works {σ τ : State} (hw : Works σ τ) (la : Nat) : Works σ (clearEntry la τ) := by
  unfold clearEntry
  repeat' (first
    | (extract_lets +onlyGivenNames x; try (refine (fun hx : Works σ x => ?_) ?_; on_goal 1 => clear_value x; on_goal 2 => subst x))
    | with_reducible assumption | with_reducible rfl |  with_reducible apply setEntry_works | split | (rename State => x; subst x)
    | with_reducible apply flex_works | with_reducible apply lan_works | with_reducible apply trn_works | with_reducible apply moving_works
    | with_reducible apply draws_works | with_reducible apply ctr_works)

theorem lockTrk_works {σ τ : State} (hw : Works σ τ) (t : Tracker) : Works σ (lockTrk t τ) := by
  unfold lockTrk
  repeat' (first
    | (extract_lets +onlyGivenNames x; try (refine (fun hx : Works σ x => ?_) ?_; on_goal 1 => clear_value x; on_goal 2 => subst x))
    | with_reducible assumption | with_reducible rfl | with_reducible apply ackTrk_works | with_reducible apply finishTrk_works
    | with_reducible apply freeTrk_works | with_reducible apply queueMsg_works | split | (rename State => x; subst x)
    | with_reducible apply flex_works | with_reducible apply lan_works | with_reducible apply trn_works | with_reducible apply moving_works
    | with_reducible apply draws_works | with_reducible apply ctr_works)

theorem unlockTrk_works {σ τ : State} (hw : Works σ τ) (t : Tracker) : Works σ (unlockTrk t τ) := by
  unfold unlockTrk
  repeat' (first
    | (extract_lets +onlyGivenNames x; try (refine (fun hx : Works σ x => ?_) ?_; on_goal 1 => clear_value x; on_goal 2 => subst x))
    | with_reducible assumption | with_reducible rfl |  with_reducible apply freeTrk_works | with_reducible apply queueMsg_works
    | with_reducible apply cohCount_works | with_reducible apply ackTrk_works | split | (rename State => x; subst x)
    | with_reducible apply flex_works | with_reducible apply lan_works | with_reducible apply trn_works | with_reducible apply moving_works
    | with_reducible apply draws_works | with_reducible apply ctr_works)

theorem workPublish_works {σ τ : State} (hw : Works σ τ) (t : Tracker) : Works σ (workPublish t τ) := by
  unfold workPublish
  repeat' (first
    | (extract_lets +onlyGivenNames x; try (refine (fun hx : Works σ x => ?_) ?_; on_goal 1 => clear_value x; on_goal 2 => subst x))
    | with_reducible assumption | with_reducible rfl |  intro _ _ _ _ | intro _ _ | with_reducible apply setEntry_works
    | with_reducible apply freeTrk_works | with_reducible apply queueMsg_works | with_reducible apply ackTrk_works
    | with_reducible apply dataTrk_works | with_reducible apply writeTrk_works | with_reducible apply putEntry_works
    | with_reducible apply withWay_works | with_reducible apply lockTrk_works | with_reducible apply unlockTrk_works | split
    | (rename State => x; subst x) | with_reducible apply flex_works | with_reducible apply lan_works | with_reducible apply trn_works
    | with_reducible apply moving_works | with_reducible apply draws_works | with_reducible apply ctr_works)

theorem shareTrk_works {σ τ : State} (hw : Works σ τ) (t : Tracker) (vec : Sharers) : Works σ (shareTrk t vec τ) := by
  unfold shareTrk
  repeat' (first
    | (extract_lets +onlyGivenNames x; try (refine (fun hx : Works σ x => ?_) ?_; on_goal 1 => clear_value x; on_goal 2 => subst x))
    | with_reducible assumption | with_reducible rfl | with_reducible apply foldl_works | intro _ _ _ | with_reducible apply dataTrk_works
    | with_reducible apply putEntry_works | split | (rename State => x; subst x) | with_reducible apply flex_works | with_reducible apply lan_works
    | with_reducible apply trn_works | with_reducible apply moving_works | with_reducible apply draws_works | with_reducible apply ctr_works)

theorem finishClaim_works {σ τ : State} (hw : Works σ τ) (t : Tracker) : Works σ (finishClaim t τ) := by
  unfold finishClaim
  repeat' (first
    | (extract_lets +onlyGivenNames x; try (refine (fun hx : Works σ x => ?_) ?_; on_goal 1 => clear_value x; on_goal 2 => subst x))
    | with_reducible assumption | with_reducible rfl | with_reducible apply freeTrk_works | with_reducible apply putEntry_works
    | with_reducible apply dataTrk_works | with_reducible apply clearEntry_works | with_reducible apply shareTrk_works
    | with_reducible apply ackTrk_works | with_reducible apply writeTrk_works | split | (rename State => x; subst x) | with_reducible apply flex_works
    | with_reducible apply lan_works | with_reducible apply trn_works | with_reducible apply moving_works | with_reducible apply draws_works
    | with_reducible apply ctr_works)

theorem workClaim_works {σ τ : State} (hw : Works σ τ) (t : Tracker) : Works σ (workClaim t τ) := by
  unfold workClaim
  repeat' (first
    | (extract_lets +onlyGivenNames x; try (refine (fun hx : Works σ x => ?_) ?_; on_goal 1 => clear_value x; on_goal 2 => subst x))
    | with_reducible assumption | with_reducible rfl | intro _ _ _ _ _ | intro _ _ _ _ | intro _ _ _ | intro _ _ | with_reducible apply shareTrk_works
    | with_reducible apply dataTrk_works | with_reducible apply startProbe_works | with_reducible apply withWay_works
    | with_reducible apply putEntry_works | with_reducible apply finishClaim_works | with_reducible apply afterCommit_works
    | with_reducible apply homeCommit_works | with_reducible apply clearEntry_works | with_reducible apply ackTrk_works
    | with_reducible apply evictClean_works | with_reducible apply lockTrk_works | with_reducible apply unlockTrk_works | split
    | (rename State => x; subst x) | with_reducible apply flex_works | with_reducible apply lan_works | with_reducible apply trn_works
    | with_reducible apply moving_works | with_reducible apply draws_works | with_reducible apply ctr_works | dsimp only)

theorem replayTrk_works {σ τ : State} (hw : Works σ τ) (t : Tracker) (ver : Word) : Works σ (replayTrk t ver τ) := by
  unfold replayTrk
  repeat' (first
    | (extract_lets +onlyGivenNames x; try (refine (fun hx : Works σ x => ?_) ?_; on_goal 1 => clear_value x; on_goal 2 => subst x))
    | with_reducible assumption | with_reducible rfl | with_reducible apply mirrorSend_works | with_reducible apply modTrk_works
    | with_reducible apply writeDone_works | split | (rename State => x; subst x) | with_reducible apply flex_works | with_reducible apply lan_works
    | with_reducible apply trn_works | with_reducible apply moving_works | with_reducible apply draws_works | with_reducible apply ctr_works)

theorem workTrk_works {σ τ : State} (hw : Works σ τ) (t : Tracker) : Works σ (workTrk t τ) := by
  unfold workTrk
  repeat' (first
    | (extract_lets +onlyGivenNames x; try (refine (fun hx : Works σ x => ?_) ?_; on_goal 1 => clear_value x; on_goal 2 => subst x))
    | with_reducible assumption | with_reducible rfl | with_reducible apply replayTrk_works | with_reducible apply ackTrk_works
    | with_reducible apply workClaim_works | with_reducible apply workPublish_works | split | (rename State => x; subst x)
    | with_reducible apply flex_works | with_reducible apply lan_works | with_reducible apply trn_works | with_reducible apply moving_works
    | with_reducible apply draws_works | with_reducible apply ctr_works)

theorem startNext_works {σ τ : State} (hw : Works σ τ) (la : Nat) : Works σ (startNext la τ) := by
  unfold startNext
  repeat' (first
    | (extract_lets +onlyGivenNames x; try (refine (fun hx : Works σ x => ?_) ?_; on_goal 1 => clear_value x; on_goal 2 => subst x))
    | with_reducible assumption | with_reducible rfl | with_reducible apply dirTrk_works | with_reducible apply workTrk_works
    | with_reducible apply modTrk_works | split | (rename State => x; subst x) | with_reducible apply flex_works | with_reducible apply lan_works
    | with_reducible apply trn_works | with_reducible apply moving_works | with_reducible apply draws_works | with_reducible apply ctr_works)

theorem nakReq_works {σ τ : State} (hw : Works σ τ) (t : Tracker) : Works σ (nakReq t τ) := by
  unfold nakReq
  repeat' (first
    | (extract_lets +onlyGivenNames x; try (refine (fun hx : Works σ x => ?_) ?_; on_goal 1 => clear_value x; on_goal 2 => subst x))
    | with_reducible assumption | with_reducible rfl | with_reducible apply raise_works | with_reducible apply perf_works
    | with_reducible apply cohCount_works | with_reducible apply queueMsg_works | split | (rename State => x; subst x)
    | with_reducible apply flex_works | with_reducible apply lan_works | with_reducible apply trn_works | with_reducible apply moving_works
    | with_reducible apply draws_works | with_reducible apply ctr_works)

theorem joinFifo_works {σ τ : State} (hw : Works σ τ) (t : Tracker) : Works σ (joinFifo t τ) := by
  unfold joinFifo
  repeat' (first
    | (extract_lets +onlyGivenNames x; try (refine (fun hx : Works σ x => ?_) ?_; on_goal 1 => clear_value x; on_goal 2 => subst x))
    | with_reducible assumption | with_reducible rfl | with_reducible apply perf_works | with_reducible apply workTrk_works | split
    | (rename State => x; subst x) | with_reducible apply flex_works | with_reducible apply lan_works | with_reducible apply trn_works
    | with_reducible apply moving_works | with_reducible apply draws_works | with_reducible apply ctr_works)

theorem homeRequest_works {σ τ : State} (hw : Works σ τ) (r : Rx) : Works σ (homeRequest r τ) := by
  unfold homeRequest
  repeat' (first
    | (extract_lets +onlyGivenNames x; try (refine (fun hx : Works σ x => ?_) ?_; on_goal 1 => clear_value x; on_goal 2 => subst x))
    | with_reducible assumption | with_reducible rfl | with_reducible apply queueMsg_works | with_reducible apply nakReq_works
    | with_reducible apply perf_works | with_reducible apply cohCount_works | with_reducible apply joinFifo_works | split
    | (rename State => x; subst x) | with_reducible apply flex_works | with_reducible apply lan_works | with_reducible apply trn_works
    | with_reducible apply moving_works | with_reducible apply draws_works | with_reducible apply ctr_works)

theorem homeLocal_works {σ τ : State} (hw : Works σ τ) (b : Nat) (m : LineMsg) (claim : Bool) : Works σ (homeLocal b m claim τ).1 := by
  unfold homeLocal
  repeat' (first
    | (extract_lets +onlyGivenNames x; try (refine (fun hx : Works σ x => ?_) ?_; on_goal 1 => clear_value x; on_goal 2 => subst x))
    | with_reducible assumption | with_reducible rfl | with_reducible apply joinFifo_works | split | (rename State => x; subst x)
    | with_reducible apply flex_works | with_reducible apply lan_works | with_reducible apply trn_works | with_reducible apply moving_works
    | with_reducible apply draws_works | with_reducible apply ctr_works)

theorem probesIn_works {σ τ : State} (hw : Works σ τ) (t : Tracker) : Works σ (probesIn t τ) := by
  unfold probesIn
  repeat' (first
    | (extract_lets +onlyGivenNames x; try (refine (fun hx : Works σ x => ?_) ?_; on_goal 1 => clear_value x; on_goal 2 => subst x))
    | with_reducible assumption | with_reducible rfl |  with_reducible apply setLine_works | with_reducible apply setEntry_works
    | with_reducible apply freeTrk_works | with_reducible apply startProbe_works | with_reducible apply putEntry_works
    | with_reducible apply clearEntry_works | with_reducible apply finishClaim_works | split | (rename State => x; subst x)
    | with_reducible apply flex_works | with_reducible apply lan_works | with_reducible apply trn_works | with_reducible apply moving_works
    | with_reducible apply draws_works | with_reducible apply ctr_works)

theorem answered_works {σ τ : State} (hw : Works σ τ) (ix k : Nat) (f : Tracker → Tracker) : Works σ (answered ix k f τ) := by
  unfold answered
  repeat' (first
    | (extract_lets +onlyGivenNames x; try (refine (fun hx : Works σ x => ?_) ?_; on_goal 1 => clear_value x; on_goal 2 => subst x))
    | with_reducible assumption | with_reducible rfl |  with_reducible apply modTrk_works | with_reducible apply probesIn_works | split
    | (rename State => x; subst x) | with_reducible apply flex_works | with_reducible apply lan_works | with_reducible apply trn_works
    | with_reducible apply moving_works | with_reducible apply draws_works | with_reducible apply ctr_works)

theorem takeInvAck_works {σ τ : State} (hw : Works σ τ) (r : Rx) : Works σ (takeInvAck r τ) := by
  unfold takeInvAck
  repeat' (first
    | (extract_lets +onlyGivenNames x; try (refine (fun hx : Works σ x => ?_) ?_; on_goal 1 => clear_value x; on_goal 2 => subst x))
    | with_reducible assumption | with_reducible rfl |  with_reducible apply returnCredit_works | with_reducible apply answered_works
    | split | (rename State => x; subst x) | with_reducible apply flex_works | with_reducible apply lan_works
    | with_reducible apply trn_works | with_reducible apply moving_works | with_reducible apply draws_works
    | with_reducible apply ctr_works)

theorem commitRecall_works {σ τ : State} (hw : Works σ τ) (la : Nat) (data : Line) (key : Option WKey) : Works σ (commitRecall la data key τ) := by
  unfold commitRecall
  repeat' (first
    | (extract_lets +onlyGivenNames x; try (refine (fun hx : Works σ x => ?_) ?_; on_goal 1 => clear_value x; on_goal 2 => subst x))
    | with_reducible assumption | with_reducible rfl |  with_reducible apply mirrorSend_works | with_reducible apply homeCommit_works
    | split | (rename State => x; subst x) | with_reducible apply flex_works | with_reducible apply lan_works
    | with_reducible apply trn_works | with_reducible apply moving_works | with_reducible apply draws_works
    | with_reducible apply ctr_works)

theorem takeRecallData_works {σ τ : State} (hw : Works σ τ) (r : Rx) : Works σ (takeRecallData r τ) := by
  unfold takeRecallData
  repeat' (first
    | (extract_lets +onlyGivenNames x; try (refine (fun hx : Works σ x => ?_) ?_; on_goal 1 => clear_value x; on_goal 2 => subst x))
    | with_reducible assumption | with_reducible rfl |  with_reducible apply raise_works | with_reducible apply setLine_works
    | with_reducible apply returnCredit_works | with_reducible apply answered_works | with_reducible apply commitRecall_works | split
    | (rename State => x; subst x) | with_reducible apply flex_works | with_reducible apply lan_works | with_reducible apply trn_works
    | with_reducible apply moving_works | with_reducible apply draws_works | with_reducible apply ctr_works)

theorem takeWriteback_works {σ τ : State} (hw : Works σ τ) (t : Tracker) (r : Rx) : Works σ (takeWriteback t r τ) := by
  unfold takeWriteback
  repeat' (first
    | (extract_lets +onlyGivenNames x; try (refine (fun hx : Works σ x => ?_) ?_; on_goal 1 => clear_value x; on_goal 2 => subst x))
    | with_reducible assumption | with_reducible rfl | with_reducible apply queueMsg_works | with_reducible apply homeCommit_works
    | with_reducible apply mirrorSend_works | with_reducible apply queueWrote_works | with_reducible apply returnCredit_works
    | with_reducible apply answered_works | split | (rename State => x; subst x) | with_reducible apply flex_works | with_reducible apply lan_works
    | with_reducible apply trn_works | with_reducible apply moving_works | with_reducible apply draws_works | with_reducible apply ctr_works)

theorem homeWriteback_works {σ τ : State} (hw : Works σ τ) (r : Rx) : Works σ (homeWriteback r τ) := by
  unfold homeWriteback
  repeat' (first
    | (extract_lets +onlyGivenNames x; try (refine (fun hx : Works σ x => ?_) ?_; on_goal 1 => clear_value x; on_goal 2 => subst x))
    | with_reducible assumption | with_reducible rfl | with_reducible apply takeWriteback_works | with_reducible apply homeRequest_works | split
    | (rename State => x; subst x) | with_reducible apply flex_works | with_reducible apply lan_works | with_reducible apply trn_works
    | with_reducible apply moving_works | with_reducible apply draws_works | with_reducible apply ctr_works)

theorem takeRecallNodata_works {σ τ : State} (hw : Works σ τ) (r : Rx) : Works σ (takeRecallNodata r τ) := by
  unfold takeRecallNodata
  repeat' (first
    | (extract_lets +onlyGivenNames x; try (refine (fun hx : Works σ x => ?_) ?_; on_goal 1 => clear_value x; on_goal 2 => subst x))
    | with_reducible assumption | with_reducible rfl | with_reducible apply answered_works | with_reducible apply returnCredit_works
    | with_reducible apply takeWriteback_works | with_reducible apply freeTrk_works | with_reducible apply modTrk_works | split
    | (rename State => x; subst x) | with_reducible apply flex_works | with_reducible apply lan_works | with_reducible apply trn_works
    | with_reducible apply moving_works | with_reducible apply draws_works | with_reducible apply ctr_works)

theorem mirrorAnswer_works {σ τ : State} (hw : Works σ τ) (la : Nat) (version : Word) : Works σ (mirrorAnswer la version τ) := by
  unfold mirrorAnswer
  repeat' (first
    | (extract_lets +onlyGivenNames x; try (refine (fun hx : Works σ x => ?_) ?_; on_goal 1 => clear_value x; on_goal 2 => subst x))
    | with_reducible assumption | with_reducible rfl | with_reducible apply each_works | intro _ _ _ | with_reducible apply freeTrk_works
    | with_reducible apply writeDone_works | with_reducible apply queueWrote_works | split | (rename State => x; subst x)
    | with_reducible apply flex_works | with_reducible apply lan_works | with_reducible apply trn_works | with_reducible apply moving_works
    | with_reducible apply draws_works | with_reducible apply ctr_works | dsimp only)

theorem homeResendOp_works {σ τ : State} (hw : Works σ τ) (ix : Nat) : Works σ (homeResendOp ix τ) := by
  unfold homeResendOp
  repeat' (first
    | (extract_lets +onlyGivenNames x; try (refine (fun hx : Works σ x => ?_) ?_; on_goal 1 => clear_value x; on_goal 2 => subst x))
    | with_reducible assumption | with_reducible rfl | with_reducible apply each_works | intro _ _ _ | with_reducible apply modTrk_works
    | with_reducible apply cohCount_works | with_reducible apply queueMsg_works | split | (rename State => x; subst x)
    | with_reducible apply flex_works | with_reducible apply lan_works | with_reducible apply trn_works | with_reducible apply moving_works
    | with_reducible apply draws_works | with_reducible apply ctr_works)

theorem leaseEnd_works {σ τ : State} (hw : Works σ τ) (l : Lease) : Works σ (leaseEnd l τ) := by
  unfold leaseEnd
  repeat' (first
    | (extract_lets +onlyGivenNames x; try (refine (fun hx : Works σ x => ?_) ?_; on_goal 1 => clear_value x; on_goal 2 => subst x))
    | with_reducible assumption | with_reducible rfl |  with_reducible apply queueMsg_works | with_reducible apply cohCount_works | split
    | (rename State => x; subst x) | with_reducible apply flex_works | with_reducible apply lan_works | with_reducible apply trn_works
    | with_reducible apply moving_works | with_reducible apply draws_works | with_reducible apply ctr_works)

/-! ### Operands -/

theorem learnCls_works {σ τ : State} (hw : Works σ τ) (la : Nat) (c : Cls) : Works σ (learnCls la c τ) := by
  unfold learnCls
  repeat' (first
    | (extract_lets +onlyGivenNames x; try (refine (fun hx : Works σ x => ?_) ?_; on_goal 1 => clear_value x; on_goal 2 => subst x))
    | with_reducible assumption | with_reducible rfl |  split | (rename State => x; subst x) | with_reducible apply flex_works
    | with_reducible apply lan_works | with_reducible apply trn_works | with_reducible apply moving_works | with_reducible apply draws_works
    | with_reducible apply ctr_works)

/-! ### Requester -/

theorem waitAs_works {σ τ : State} (hw : Works σ τ) (b : Nat) (w : BWait) : Works σ (waitAs b w τ) := by
  unfold waitAs
  repeat' (first
    | (extract_lets +onlyGivenNames x; try (refine (fun hx : Works σ x => ?_) ?_; on_goal 1 => clear_value x; on_goal 2 => subst x))
    | with_reducible assumption | with_reducible rfl |  with_reducible apply modBob_works | split | (rename State => x; subst x)
    | with_reducible apply flex_works | with_reducible apply lan_works | with_reducible apply trn_works | with_reducible apply moving_works
    | with_reducible apply draws_works | with_reducible apply ctr_works)

theorem sendReq_works {σ τ : State} (hw : Works σ τ) (b : Nat) (m : LineMsg) : Works σ (sendReq b m τ) := by
  unfold sendReq
  repeat' (first
    | (extract_lets +onlyGivenNames x; try (refine (fun hx : Works σ x => ?_) ?_; on_goal 1 => clear_value x; on_goal 2 => subst x))
    | with_reducible assumption | with_reducible rfl |  with_reducible apply setBob_works | with_reducible apply queueMsg_works | split
    | (rename State => x; subst x) | with_reducible apply flex_works | with_reducible apply lan_works | with_reducible apply trn_works
    | with_reducible apply moving_works | with_reducible apply draws_works | with_reducible apply ctr_works)

theorem sendOwn_works {σ τ : State} (hw : Works σ τ) (ten op la : Nat) (d : Cls) (m : LineMsg) : Works σ (sendOwn ten op la d m τ).1 := by
  unfold sendOwn
  repeat' (first
    | (extract_lets +onlyGivenNames x; try (refine (fun hx : Works σ x => ?_) ?_; on_goal 1 => clear_value x; on_goal 2 => subst x))
    | with_reducible assumption | with_reducible rfl |  with_reducible apply withIntern_works | split | (rename State => x; subst x)
    | with_reducible apply flex_works | with_reducible apply lan_works | with_reducible apply trn_works | with_reducible apply moving_works
    | with_reducible apply draws_works | with_reducible apply ctr_works)

theorem ownSent_works {σ τ : State} (hw : Works σ τ) (op : Nat) : Works σ (ownSent op τ) := by
  unfold ownSent
  repeat' (first
    | (extract_lets +onlyGivenNames x; try (refine (fun hx : Works σ x => ?_) ?_; on_goal 1 => clear_value x; on_goal 2 => subst x))
    | with_reducible assumption | with_reducible rfl | with_reducible apply perf_works | with_reducible apply cohCount_works | split
    | (rename State => x; subst x) | with_reducible apply flex_works | with_reducible apply lan_works | with_reducible apply trn_works
    | with_reducible apply moving_works | with_reducible apply draws_works | with_reducible apply ctr_works)

theorem sendOwed_works {σ τ : State} (hw : Works σ τ) (ten : Nat) (op : Nat) (la : Nat) (d : Cls) (m : LineMsg) : Works σ (sendOwed ten op la d m τ) := by
  unfold sendOwed
  repeat' (first
    | (extract_lets +onlyGivenNames x; try (refine (fun hx : Works σ x => ?_) ?_; on_goal 1 => clear_value x; on_goal 2 => subst x))
    | with_reducible assumption | with_reducible rfl | with_reducible apply sendOwn_works | with_reducible apply ownSent_works | split
    | (rename State => x; subst x) | with_reducible apply flex_works | with_reducible apply lan_works | with_reducible apply trn_works
    | with_reducible apply moving_works | with_reducible apply draws_works | with_reducible apply ctr_works)

theorem refreshLine_works {σ τ : State} (hw : Works σ τ) (la : Nat) : Works σ (refreshLine la τ) := by
  unfold refreshLine
  repeat' (first
    | (extract_lets +onlyGivenNames x; try (refine (fun hx : Works σ x => ?_) ?_; on_goal 1 => clear_value x; on_goal 2 => subst x))
    | with_reducible assumption | with_reducible rfl | with_reducible apply sendOwed_works | split | (rename State => x; subst x)
    | with_reducible apply flex_works | with_reducible apply lan_works | with_reducible apply trn_works | with_reducible apply moving_works
    | with_reducible apply draws_works | with_reducible apply ctr_works)

theorem relyLease_works {σ τ : State} (hw : Works σ τ) (b la : Nat) : Works σ (relyLease b la τ) := by
  unfold relyLease
  repeat' (first
    | (extract_lets +onlyGivenNames x; try (refine (fun hx : Works σ x => ?_) ?_; on_goal 1 => clear_value x; on_goal 2 => subst x))
    | with_reducible assumption | with_reducible rfl |  with_reducible apply setBob_works | split | (rename State => x; subst x)
    | with_reducible apply flex_works | with_reducible apply lan_works | with_reducible apply trn_works | with_reducible apply moving_works
    | with_reducible apply draws_works | with_reducible apply ctr_works)

theorem startWriteback_works {σ τ : State} (hw : Works σ τ) (b : Nat) (k : Nat) (c : Copy) (keep : Bool) : Works σ (startWriteback b k c keep τ) := by
  unfold startWriteback
  repeat' (first
    | (extract_lets +onlyGivenNames x; try (refine (fun hx : Works σ x => ?_) ?_; on_goal 1 => clear_value x; on_goal 2 => subst x))
    | with_reducible assumption | with_reducible rfl |  with_reducible apply setCopy_works | split | (rename State => x; subst x)
    | with_reducible apply flex_works | with_reducible apply lan_works | with_reducible apply trn_works | with_reducible apply moving_works
    | with_reducible apply draws_works | with_reducible apply ctr_works)

theorem evictM_works {σ τ : State} (hw : Works σ τ) (k : Nat) (c : Copy) (keep : Bool) : Works σ (evictM k c keep τ) := by
  unfold evictM
  repeat' (first
    | (extract_lets +onlyGivenNames x; try (refine (fun hx : Works σ x => ?_) ?_; on_goal 1 => clear_value x; on_goal 2 => subst x))
    | with_reducible assumption | with_reducible rfl |  with_reducible apply perf_works | with_reducible apply sendOwn_works
    | with_reducible apply startWriteback_works | split | (rename State => x; subst x) | with_reducible apply flex_works
    | with_reducible apply lan_works | with_reducible apply trn_works | with_reducible apply moving_works | with_reducible apply draws_works
    | with_reducible apply ctr_works)

theorem evictP_works {σ τ : State} (hw : Works σ τ) (k : Nat) (c : Copy) : Works σ (evictP k c τ) := by
  unfold evictP
  repeat' (first
    | (extract_lets +onlyGivenNames x; try (refine (fun hx : Works σ x => ?_) ?_; on_goal 1 => clear_value x; on_goal 2 => subst x))
    | with_reducible assumption | with_reducible rfl | with_reducible apply subLost_works | with_reducible apply dropWay_works
    | with_reducible apply sendOwed_works | split | (rename State => x; subst x) | with_reducible apply flex_works | with_reducible apply lan_works
    | with_reducible apply trn_works | with_reducible apply moving_works | with_reducible apply draws_works | with_reducible apply ctr_works)

theorem takeWay_works {σ τ : State} (hw : Works σ τ) (b la : Nat) : Works σ (takeWay b la τ).1 := by
  unfold takeWay
  repeat' (first
    | (extract_lets +onlyGivenNames x; try (refine (fun hx : Works σ x => ?_) ?_; on_goal 1 => clear_value x; on_goal 2 => subst x))
    | with_reducible assumption | with_reducible rfl |  with_reducible apply raise_works | with_reducible apply setCopy_works
    | with_reducible apply evictM_works | with_reducible apply evictP_works | split | (rename State => x; subst x)
    | with_reducible apply flex_works | with_reducible apply lan_works | with_reducible apply trn_works | with_reducible apply moving_works
    | with_reducible apply draws_works | with_reducible apply ctr_works)

theorem wayFor_works {σ τ : State} (hw : Works σ τ) (b la : Nat) : Works σ (wayFor b la τ).1 := by
  unfold wayFor
  repeat' (first
    | (extract_lets +onlyGivenNames x; try (refine (fun hx : Works σ x => ?_) ?_; on_goal 1 => clear_value x; on_goal 2 => subst x))
    | with_reducible assumption | with_reducible rfl |  with_reducible apply takeWay_works | split | (rename State => x; subst x)
    | with_reducible apply flex_works | with_reducible apply lan_works | with_reducible apply trn_works | with_reducible apply moving_works
    | with_reducible apply draws_works | with_reducible apply ctr_works)

theorem startFill_works {σ τ : State} (hw : Works σ τ) (b k la : Nat) (st : CState) (m : LineMsg) : Works σ (startFill b k la st m τ) := by
  unfold startFill
  repeat' (first
    | (extract_lets +onlyGivenNames x; try (refine (fun hx : Works σ x => ?_) ?_; on_goal 1 => clear_value x; on_goal 2 => subst x))
    | with_reducible assumption | with_reducible rfl |  with_reducible apply setCopy_works | with_reducible apply sendReq_works | split
    | (rename State => x; subst x) | with_reducible apply flex_works | with_reducible apply lan_works | with_reducible apply trn_works
    | with_reducible apply moving_works | with_reducible apply draws_works | with_reducible apply ctr_works)

theorem lineJob_works {σ τ : State} (hw : Works σ τ) (op b : Nat) (home remote : Bobbin → Nat → State → State)
    (hh : ∀ v la u, Works σ u → Works σ (home v la u)) (hr : ∀ v la u, Works σ u → Works σ (remote v la u)) :
    Works σ (lineJob op b home remote τ) := by
  unfold lineJob
  repeat' first | with_reducible assumption | apply hh | apply hr | apply waitAs_works | split | extract_lets

theorem onLanes_works {σ τ : State} (hw : Works σ τ) (b : Nat) (v : Bobbin) (write : Bool) (go : State → State)
    (hg : ∀ u, Works σ u → Works σ (go u)) : Works σ (onLanes b v write go τ) := by
  unfold onLanes
  repeat' (first
    | with_reducible assumption | apply hg | with_reducible apply waitAs_works | with_reducible apply finishLine_works | split | extract_lets)

theorem atHome_works {σ τ : State} (hw : Works σ τ) (b : Nat) (v : Bobbin) (write : Bool) (m : LineMsg) : Works σ (atHome b v write m τ) := by
  unfold atHome
  repeat' (first
    | (extract_lets +onlyGivenNames x; try (refine (fun hx : Works σ x => ?_) ?_; on_goal 1 => clear_value x; on_goal 2 => subst x))
    | with_reducible assumption | with_reducible rfl |  with_reducible apply homeLocal_works | with_reducible apply waitAs_works | split
    | (rename State => x; subst x) | with_reducible apply flex_works | with_reducible apply lan_works | with_reducible apply trn_works
    | with_reducible apply moving_works | with_reducible apply draws_works | with_reducible apply ctr_works)

theorem readCopy_works {σ τ : State} (hw : Works σ τ) (b : Nat) (v : Bobbin) (c : Copy) : Works σ (readCopy b v c τ) := by
  unfold readCopy
  repeat' (first
    | (extract_lets +onlyGivenNames x; try (refine (fun hx : Works σ x => ?_) ?_; on_goal 1 => clear_value x; on_goal 2 => subst x))
    | with_reducible assumption | with_reducible rfl |  with_reducible apply perf_works | with_reducible apply touch_works
    | with_reducible apply finishLine_works | split | (rename State => x; subst x) | with_reducible apply flex_works
    | with_reducible apply lan_works | with_reducible apply trn_works | with_reducible apply moving_works | with_reducible apply draws_works
    | with_reducible apply ctr_works)

theorem readHomeReq_works {σ τ : State} (hw : Works σ τ) (b la : Nat) : Works σ (readHomeReq b la τ) := by
  unfold readHomeReq
  repeat' (first
    | (extract_lets +onlyGivenNames x; try (refine (fun hx : Works σ x => ?_) ?_; on_goal 1 => clear_value x; on_goal 2 => subst x))
    | with_reducible assumption | with_reducible rfl |  with_reducible apply sendReq_works | split | (rename State => x; subst x)
    | with_reducible apply flex_works | with_reducible apply lan_works | with_reducible apply trn_works | with_reducible apply moving_works
    | with_reducible apply draws_works | with_reducible apply ctr_works)

theorem readRemote_works {σ τ : State} (hw : Works σ τ) (b : Nat) (v : Bobbin) (la : Nat) : Works σ (readRemote b v la τ) := by
  unfold readRemote
  repeat' (first
    | (extract_lets +onlyGivenNames x; try (refine (fun hx : Works σ x => ?_) ?_; on_goal 1 => clear_value x; on_goal 2 => subst x))
    | with_reducible assumption | with_reducible rfl |  intro _ _ _ _ | intro _ _ | with_reducible apply perf_works
    | with_reducible apply finishLine_works | with_reducible apply waitAs_works | with_reducible apply wayFor_works
    | with_reducible apply startFill_works | with_reducible apply onLanes_works | with_reducible apply readCopy_works
    | with_reducible apply readHomeReq_works | split | (rename State => x; subst x) | with_reducible apply flex_works
    | with_reducible apply lan_works | with_reducible apply trn_works | with_reducible apply moving_works | with_reducible apply draws_works
    | with_reducible apply ctr_works)

theorem readJob_works {σ τ : State} (hw : Works σ τ) (op b : Nat) : Works σ (readJob op b τ) := by
  unfold readJob
  repeat' (first
    | (extract_lets +onlyGivenNames x; try (refine (fun hx : Works σ x => ?_) ?_; on_goal 1 => clear_value x; on_goal 2 => subst x))
    | with_reducible assumption | with_reducible rfl |  intro _ _ _ _ | intro _ _ | with_reducible apply lineJob_works
    | with_reducible apply atHome_works | with_reducible apply readRemote_works | split | (rename State => x; subst x)
    | with_reducible apply flex_works | with_reducible apply lan_works | with_reducible apply trn_works | with_reducible apply moving_works
    | with_reducible apply draws_works | with_reducible apply ctr_works)

theorem readFreshJob_works {σ τ : State} (hw : Works σ τ) (b : Nat) : Works σ (readFreshJob b τ) := by
  unfold readFreshJob
  repeat' (first
    | (extract_lets +onlyGivenNames x; try (refine (fun hx : Works σ x => ?_) ?_; on_goal 1 => clear_value x; on_goal 2 => subst x))
    | with_reducible assumption | with_reducible rfl |  intro _ _ _ _ | intro _ _ | with_reducible apply lineJob_works
    | with_reducible apply onLanes_works | with_reducible apply atHome_works | with_reducible apply readCopy_works
    | with_reducible apply readHomeReq_works | split | (rename State => x; subst x) | with_reducible apply flex_works
    | with_reducible apply lan_works | with_reducible apply trn_works | with_reducible apply moving_works | with_reducible apply draws_works
    | with_reducible apply ctr_works)

theorem writeCopy_works {σ τ : State} (hw : Works σ τ) (b : Nat) (v : Bobbin) (k : Nat) (c : Copy) : Works σ (writeCopy b v k c τ) := by
  unfold writeCopy
  repeat' (first
    | (extract_lets +onlyGivenNames x; try (refine (fun hx : Works σ x => ?_) ?_; on_goal 1 => clear_value x; on_goal 2 => subst x))
    | with_reducible assumption | with_reducible rfl |  with_reducible apply setCopy_works | with_reducible apply touch_works
    | with_reducible apply finishLine_works | split | (rename State => x; subst x) | with_reducible apply flex_works
    | with_reducible apply lan_works | with_reducible apply trn_works | with_reducible apply moving_works | with_reducible apply draws_works
    | with_reducible apply ctr_works)

theorem claimRemote_works {σ τ : State} (hw : Works σ τ) (b : Nat) (v : Bobbin) (la : Nat) : Works σ (claimRemote b v la τ) := by
  unfold claimRemote
  repeat' (first
    | (extract_lets +onlyGivenNames x; try (refine (fun hx : Works σ x => ?_) ?_; on_goal 1 => clear_value x; on_goal 2 => subst x))
    | with_reducible assumption | with_reducible rfl |  with_reducible apply perf_works | with_reducible apply setCopy_works
    | with_reducible apply waitAs_works | with_reducible apply sendReq_works | with_reducible apply wayFor_works
    | with_reducible apply startFill_works | with_reducible apply writeCopy_works | split | (rename State => x; subst x)
    | with_reducible apply flex_works | with_reducible apply lan_works | with_reducible apply trn_works | with_reducible apply moving_works
    | with_reducible apply draws_works | with_reducible apply ctr_works)

theorem writeJob_works {σ τ : State} (hw : Works σ τ) (op b : Nat) : Works σ (writeJob op b τ) := by
  unfold writeJob
  repeat' (first
    | (extract_lets +onlyGivenNames x; try (refine (fun hx : Works σ x => ?_) ?_; on_goal 1 => clear_value x; on_goal 2 => subst x))
    | with_reducible assumption | with_reducible rfl |  intro _ _ _ _ | intro _ _ | with_reducible apply sendReq_works
    | with_reducible apply relyLease_works | with_reducible apply lineJob_works | with_reducible apply onLanes_works
    | with_reducible apply atHome_works | with_reducible apply claimRemote_works | split | (rename State => x; subst x)
    | with_reducible apply flex_works | with_reducible apply lan_works | with_reducible apply trn_works | with_reducible apply moving_works
    | with_reducible apply draws_works | with_reducible apply ctr_works)

theorem atomicJob_works {σ τ : State} (hw : Works σ τ) (b : Nat) : Works σ (atomicJob b τ) := by
  unfold atomicJob
  repeat' (first
    | (extract_lets +onlyGivenNames x; try (refine (fun hx : Works σ x => ?_) ?_; on_goal 1 => clear_value x; on_goal 2 => subst x))
    | with_reducible assumption | with_reducible rfl |  intro _ _ _ _ | intro _ _ | with_reducible apply perf_works
    | with_reducible apply dropWay_works | with_reducible apply sendReq_works | with_reducible apply relyLease_works
    | with_reducible apply evictM_works | with_reducible apply lineJob_works | with_reducible apply onLanes_works
    | with_reducible apply atHome_works | split | (rename State => x; subst x) | with_reducible apply flex_works
    | with_reducible apply lan_works | with_reducible apply trn_works | with_reducible apply moving_works | with_reducible apply draws_works
    | with_reducible apply ctr_works)

theorem lockJob_works {σ τ : State} (hw : Works σ τ) (b : Nat) : Works σ (lockJob b τ) := by
  unfold lockJob
  repeat' (first
    | (extract_lets +onlyGivenNames x; try (refine (fun hx : Works σ x => ?_) ?_; on_goal 1 => clear_value x; on_goal 2 => subst x))
    | with_reducible assumption | with_reducible rfl |  intro _ _ _ _ | intro _ _ | with_reducible apply sendReq_works
    | with_reducible apply lineJob_works | with_reducible apply onLanes_works | with_reducible apply atHome_works | split
    | (rename State => x; subst x) | with_reducible apply flex_works | with_reducible apply lan_works | with_reducible apply trn_works
    | with_reducible apply moving_works | with_reducible apply draws_works | with_reducible apply ctr_works)

theorem unlockJob_works {σ τ : State} (hw : Works σ τ) (b : Nat) : Works σ (unlockJob b τ) := by
  unfold unlockJob
  repeat' (first
    | (extract_lets +onlyGivenNames x; try (refine (fun hx : Works σ x => ?_) ?_; on_goal 1 => clear_value x; on_goal 2 => subst x))
    | with_reducible assumption | with_reducible rfl |  intro _ _ _ _ | intro _ _ | with_reducible apply sendReq_works
    | with_reducible apply relyLease_works | with_reducible apply lineJob_works | with_reducible apply onLanes_works
    | with_reducible apply atHome_works | split | (rename State => x; subst x) | with_reducible apply flex_works
    | with_reducible apply lan_works | with_reducible apply trn_works | with_reducible apply moving_works | with_reducible apply draws_works
    | with_reducible apply ctr_works)

theorem subscribeJob_works {σ τ : State} (hw : Works σ τ) (b : Nat) : Works σ (subscribeJob b τ) := by
  unfold subscribeJob
  repeat' (first
    | (extract_lets +onlyGivenNames x; try (refine (fun hx : Works σ x => ?_) ?_; on_goal 1 => clear_value x; on_goal 2 => subst x))
    | with_reducible assumption | with_reducible rfl |  intro _ _ _ _ | intro _ _ | with_reducible apply addSub_works
    | with_reducible apply finishLine_works | with_reducible apply waitAs_works | with_reducible apply wayFor_works
    | with_reducible apply startFill_works | with_reducible apply lineJob_works | with_reducible apply onLanes_works | split
    | (rename State => x; subst x) | with_reducible apply flex_works | with_reducible apply lan_works | with_reducible apply trn_works
    | with_reducible apply moving_works | with_reducible apply draws_works | with_reducible apply ctr_works)

theorem unsubscribeJob_works {σ τ : State} (hw : Works σ τ) (b : Nat) : Works σ (unsubscribeJob b τ) := by
  unfold unsubscribeJob
  repeat' (first
    | (extract_lets +onlyGivenNames x; try (refine (fun hx : Works σ x => ?_) ?_; on_goal 1 => clear_value x; on_goal 2 => subst x))
    | with_reducible assumption | with_reducible rfl | intro _ _ _ _ _ | intro _ _ _ _ | intro _ _ _ | intro _ _
    | with_reducible apply finishLine_works | with_reducible apply lineJob_works | with_reducible apply delSub_works
    | with_reducible apply waitAs_works | with_reducible apply onLanes_works | with_reducible apply sendReq_works | with_reducible apply dropWay_works
    | split | (rename State => x; subst x) | with_reducible apply flex_works | with_reducible apply lan_works | with_reducible apply trn_works
    | with_reducible apply moving_works | with_reducible apply draws_works | with_reducible apply ctr_works | dsimp only)

theorem evictClean_works {σ τ : State} (hw : Works σ τ) (b k : Nat) (c : Copy) : Works σ (evictClean b k c τ) := by
  unfold evictClean
  repeat' (first
    | (extract_lets +onlyGivenNames x; try (refine (fun hx : Works σ x => ?_) ?_; on_goal 1 => clear_value x; on_goal 2 => subst x))
    | with_reducible assumption | with_reducible rfl |  with_reducible apply setCopy_works | with_reducible apply sendReq_works | split
    | (rename State => x; subst x) | with_reducible apply flex_works | with_reducible apply lan_works | with_reducible apply trn_works
    | with_reducible apply moving_works | with_reducible apply draws_works | with_reducible apply ctr_works)

theorem writeBack_works {σ τ : State} (hw : Works σ τ) (b k : Nat) (c : Copy) (keep : Bool) : Works σ (writeBack b k c keep τ) := by
  unfold writeBack
  repeat' (first
    | (extract_lets +onlyGivenNames x; try (refine (fun hx : Works σ x => ?_) ?_; on_goal 1 => clear_value x; on_goal 2 => subst x))
    | with_reducible assumption | with_reducible rfl |  with_reducible apply sendReq_works | with_reducible apply startWriteback_works
    | split | (rename State => x; subst x) | with_reducible apply flex_works | with_reducible apply lan_works
    | with_reducible apply trn_works | with_reducible apply moving_works | with_reducible apply draws_works
    | with_reducible apply ctr_works)

theorem maintain_works {σ τ : State} (hw : Works σ τ) (op b : Nat) (v : Bobbin) (la : Nat) : Works σ (maintain op b v la τ) := by
  unfold maintain
  repeat' (first
    | (extract_lets +onlyGivenNames x; try (refine (fun hx : Works σ x => ?_) ?_; on_goal 1 => clear_value x; on_goal 2 => subst x))
    | with_reducible assumption | with_reducible rfl |  intro _ _ _ _ | intro _ _ | with_reducible apply count_works
    | with_reducible apply perf_works | with_reducible apply setCopy_works | with_reducible apply finishLine_works
    | with_reducible apply waitAs_works | with_reducible apply sendReq_works | with_reducible apply onLanes_works
    | with_reducible apply evictClean_works | with_reducible apply writeBack_works | split | (rename State => x; subst x)
    | with_reducible apply flex_works | with_reducible apply lan_works | with_reducible apply trn_works | with_reducible apply moving_works
    | with_reducible apply draws_works | with_reducible apply ctr_works)

theorem maintainJob_works {σ τ : State} (hw : Works σ τ) (op : Nat) (b : Nat) : Works σ (maintainJob op b τ) := by
  unfold maintainJob
  repeat' (first
    | (extract_lets +onlyGivenNames x; try (refine (fun hx : Works σ x => ?_) ?_; on_goal 1 => clear_value x; on_goal 2 => subst x))
    | with_reducible assumption | with_reducible rfl | with_reducible apply finishLine_works | with_reducible apply waitAs_works
    | with_reducible apply maintain_works | split | (rename State => x; subst x) | with_reducible apply flex_works | with_reducible apply lan_works
    | with_reducible apply trn_works | with_reducible apply moving_works | with_reducible apply draws_works | with_reducible apply ctr_works
    | dsimp only)

theorem attachedApply_works {σ τ : State} (hw : Works σ τ) (b : Nat) (filled : Bool) : Works σ (attachedApply b filled τ) := by
  unfold attachedApply
  repeat' (first
    | (extract_lets +onlyGivenNames x; try (refine (fun hx : Works σ x => ?_) ?_; on_goal 1 => clear_value x; on_goal 2 => subst x))
    | with_reducible assumption | with_reducible rfl |  with_reducible apply each_works | intro _ _ _
    | with_reducible apply finishLine_works | with_reducible apply waitAs_works | with_reducible apply maintain_works | split
    | (rename State => x; subst x) | with_reducible apply flex_works | with_reducible apply lan_works | with_reducible apply trn_works
    | with_reducible apply moving_works | with_reducible apply draws_works | with_reducible apply ctr_works)

theorem prefetchJob_works {σ τ : State} (hw : Works σ τ) (b : Nat) : Works σ (prefetchJob b τ) := by
  unfold prefetchJob
  repeat' (first
    | (extract_lets +onlyGivenNames x; try (refine (fun hx : Works σ x => ?_) ?_; on_goal 1 => clear_value x; on_goal 2 => subst x))
    | with_reducible assumption | with_reducible rfl | intro _ _ _ _ _ | intro _ _ _ _ | intro _ _ _ | intro _ _
    | with_reducible apply finishLine_works | with_reducible apply onLanes_works | with_reducible apply wayFor_works
    | with_reducible apply startFill_works | with_reducible apply waitAs_works | split | (rename State => x; subst x)
    | with_reducible apply flex_works | with_reducible apply lan_works | with_reducible apply trn_works | with_reducible apply moving_works
    | with_reducible apply draws_works | with_reducible apply ctr_works | dsimp only)

theorem pinJob_works {σ τ : State} (hw : Works σ τ) (b : Nat) : Works σ (pinJob b τ) := by
  unfold pinJob
  repeat' (first
    | (extract_lets +onlyGivenNames x; try (refine (fun hx : Works σ x => ?_) ?_; on_goal 1 => clear_value x; on_goal 2 => subst x))
    | with_reducible assumption | with_reducible rfl | with_reducible apply finishLine_works | split | (rename State => x; subst x)
    | with_reducible apply flex_works | with_reducible apply lan_works | with_reducible apply trn_works | with_reducible apply moving_works
    | with_reducible apply draws_works | with_reducible apply ctr_works | dsimp only)

theorem unpinJob_works {σ τ : State} (hw : Works σ τ) (b : Nat) : Works σ (unpinJob b τ) := by
  unfold unpinJob
  repeat' (first
    | (extract_lets +onlyGivenNames x; try (refine (fun hx : Works σ x => ?_) ?_; on_goal 1 => clear_value x; on_goal 2 => subst x))
    | with_reducible assumption | with_reducible rfl | with_reducible apply finishLine_works | split | (rename State => x; subst x)
    | with_reducible apply flex_works | with_reducible apply lan_works | with_reducible apply trn_works | with_reducible apply moving_works
    | with_reducible apply draws_works | with_reducible apply ctr_works | dsimp only)

/-! ### Answers -/

theorem answerLane_works {σ τ : State} (hw : Works σ τ) (b : Nat) (l : LaneId) : Works σ (answerLane b l τ) := by
  unfold answerLane
  repeat' (first
    | (extract_lets +onlyGivenNames x; try (refine (fun hx : Works σ x => ?_) ?_; on_goal 1 => clear_value x; on_goal 2 => subst x))
    | with_reducible assumption | with_reducible rfl |  with_reducible apply modBob_works | split | (rename State => x; subst x)
    | with_reducible apply flex_works | with_reducible apply lan_works | with_reducible apply trn_works | with_reducible apply moving_works
    | with_reducible apply draws_works | with_reducible apply ctr_works)

theorem relocate_works {σ τ : State} (hw : Works σ τ) (la : Nat) : Works σ (relocate la τ) := by
  unfold relocate
  repeat' (first
    | (extract_lets +onlyGivenNames x; try (refine (fun hx : Works σ x => ?_) ?_; on_goal 1 => clear_value x; on_goal 2 => subst x))
    | with_reducible assumption | with_reducible rfl |  with_reducible apply setCopy_works | with_reducible apply dropWay_works | split
    | (rename State => x; subst x) | with_reducible apply flex_works | with_reducible apply lan_works | with_reducible apply trn_works
    | with_reducible apply moving_works | with_reducible apply draws_works | with_reducible apply ctr_works)

theorem vacate_works {σ τ : State} (hw : Works σ τ) (o : Nat × Option Copy) : Works σ (vacate o τ) := by
  unfold vacate
  repeat' (first
    | (extract_lets +onlyGivenNames x; try (refine (fun hx : Works σ x => ?_) ?_; on_goal 1 => clear_value x; on_goal 2 => subst x))
    | with_reducible assumption | with_reducible rfl |  with_reducible apply dropWay_works | with_reducible apply evictP_works | split
    | (rename State => x; subst x) | with_reducible apply flex_works | with_reducible apply lan_works | with_reducible apply trn_works
    | with_reducible apply moving_works | with_reducible apply draws_works | with_reducible apply ctr_works)

theorem refill_works {σ τ : State} (hw : Works σ τ) (c : Copy) : Works σ (refill c τ) := by
  unfold refill
  repeat' (first
    | (extract_lets +onlyGivenNames x; try (refine (fun hx : Works σ x => ?_) ?_; on_goal 1 => clear_value x; on_goal 2 => subst x))
    | with_reducible assumption | with_reducible rfl | with_reducible apply setCopy_works | with_reducible apply vacate_works
    | with_reducible apply sendOwed_works | split | (rename State => x; subst x) | with_reducible apply flex_works | with_reducible apply lan_works
    | with_reducible apply trn_works | with_reducible apply moving_works | with_reducible apply draws_works | with_reducible apply ctr_works)

theorem drainEntry_works {σ τ : State} (hw : Works σ τ) (k : Nat) : Works σ (drainEntry k τ) := by
  unfold drainEntry
  repeat' (first
    | (extract_lets +onlyGivenNames x; try (refine (fun hx : Works σ x => ?_) ?_; on_goal 1 => clear_value x; on_goal 2 => subst x))
    | with_reducible assumption | with_reducible rfl |  with_reducible apply setCopy_works | with_reducible apply dropWay_works
    | with_reducible apply evictM_works | with_reducible apply evictP_works | with_reducible apply vacate_works
    | with_reducible apply refill_works | split | (rename State => x; subst x) | with_reducible apply flex_works
    | with_reducible apply lan_works | with_reducible apply trn_works | with_reducible apply moving_works | with_reducible apply draws_works
    | with_reducible apply ctr_works)

theorem drainLine_works {σ τ : State} (hw : Works σ τ) (la : Nat) : Works σ (drainLine la τ) := by
  unfold drainLine
  repeat' (first
    | (extract_lets +onlyGivenNames x; try (refine (fun hx : Works σ x => ?_) ?_; on_goal 1 => clear_value x; on_goal 2 => subst x))
    | with_reducible assumption | with_reducible rfl |  with_reducible apply drainEntry_works | split | (rename State => x; subst x)
    | with_reducible apply flex_works | with_reducible apply lan_works | with_reducible apply trn_works | with_reducible apply moving_works
    | with_reducible apply draws_works | with_reducible apply ctr_works)

theorem afterFill_works {σ τ : State} (hw : Works σ τ) (b la : Nat) (ok : Bool) : Works σ (afterFill b la ok τ) := by
  unfold afterFill
  repeat' (first
    | (extract_lets +onlyGivenNames x; try (refine (fun hx : Works σ x => ?_) ?_; on_goal 1 => clear_value x; on_goal 2 => subst x))
    | with_reducible assumption | with_reducible rfl |  with_reducible apply attachedApply_works | with_reducible apply drainLine_works
    | split | (rename State => x; subst x) | with_reducible apply flex_works | with_reducible apply lan_works
    | with_reducible apply trn_works | with_reducible apply moving_works | with_reducible apply draws_works
    | with_reducible apply ctr_works)

theorem fillShared_works {σ τ : State} (hw : Works σ τ) (b : Nat) (v : Bobbin) (k : Nat) (c : Copy) (st : CState) (m : LineMsg) : Works σ (fillShared b v k c st m τ) := by
  unfold fillShared
  repeat' (first
    | (extract_lets +onlyGivenNames x; try (refine (fun hx : Works σ x => ?_) ?_; on_goal 1 => clear_value x; on_goal 2 => subst x))
    | with_reducible assumption | with_reducible rfl |  with_reducible apply setCopy_works | with_reducible apply dropWay_works
    | with_reducible apply touch_works | with_reducible apply finishLine_works | with_reducible apply afterFill_works | split
    | (rename State => x; subst x) | with_reducible apply flex_works | with_reducible apply lan_works | with_reducible apply trn_works
    | with_reducible apply moving_works | with_reducible apply draws_works | with_reducible apply ctr_works)

theorem readUncached_works {σ τ : State} (hw : Works σ τ) (b : Nat) (v : Bobbin) (m : LineMsg) : Works σ (readUncached b v m τ) := by
  unfold readUncached
  repeat' (first
    | (extract_lets +onlyGivenNames x; try (refine (fun hx : Works σ x => ?_) ?_; on_goal 1 => clear_value x; on_goal 2 => subst x))
    | with_reducible assumption | with_reducible rfl |  with_reducible apply setCopy_works | with_reducible apply dropWay_works
    | with_reducible apply finishLine_works | with_reducible apply attachedApply_works | split | (rename State => x; subst x)
    | with_reducible apply flex_works | with_reducible apply lan_works | with_reducible apply trn_works | with_reducible apply moving_works
    | with_reducible apply draws_works | with_reducible apply ctr_works)

theorem takeValue_works {σ τ : State} (hw : Works σ τ) (m : LineMsg) : Works σ (takeValue m τ) := by
  unfold takeValue
  repeat' (first
    | (extract_lets +onlyGivenNames x; try (refine (fun hx : Works σ x => ?_) ?_; on_goal 1 => clear_value x; on_goal 2 => subst x))
    | with_reducible assumption | with_reducible rfl |  with_reducible apply perf_works | with_reducible apply setCopy_works
    | with_reducible apply touch_works | with_reducible apply bindPend_works | with_reducible apply relocate_works | split
    | (rename State => x; subst x) | with_reducible apply flex_works | with_reducible apply lan_works | with_reducible apply trn_works
    | with_reducible apply moving_works | with_reducible apply draws_works | with_reducible apply ctr_works)

theorem subDone_works {σ τ : State} (hw : Works σ τ) (m : LineMsg) (e : Nat × Bobbin) : Works σ (subDone m τ e) := by
  unfold subDone
  repeat' (first
    | (extract_lets +onlyGivenNames x; try (refine (fun hx : Works σ x => ?_) ?_; on_goal 1 => clear_value x; on_goal 2 => subst x))
    | with_reducible assumption | with_reducible rfl |  with_reducible apply addSub_works | with_reducible apply finishLine_works
    | with_reducible apply attachedApply_works | split | (rename State => x; subst x) | with_reducible apply flex_works
    | with_reducible apply lan_works | with_reducible apply trn_works | with_reducible apply moving_works | with_reducible apply draws_works
    | with_reducible apply ctr_works)

theorem ownLine_works {σ τ : State} (hw : Works σ τ) (la : Nat) : Works σ (ownLine la τ) := by
  unfold ownLine
  repeat' (first
    | (extract_lets +onlyGivenNames x; try (refine (fun hx : Works σ x => ?_) ?_; on_goal 1 => clear_value x; on_goal 2 => subst x))
    | with_reducible assumption | with_reducible rfl | with_reducible apply mirrorSend_works | with_reducible apply homeCommit_works
    | with_reducible apply dropWay_works | split | (rename State => x; subst x) | with_reducible apply flex_works | with_reducible apply lan_works
    | with_reducible apply trn_works | with_reducible apply moving_works | with_reducible apply draws_works | with_reducible apply ctr_works)

theorem takeUpdate_works {σ τ : State} (hw : Works σ τ) (r : Rx) : Works σ (takeUpdate r τ) := by
  unfold takeUpdate
  repeat' (first
    | (extract_lets +onlyGivenNames x; try (refine (fun hx : Works σ x => ?_) ?_; on_goal 1 => clear_value x; on_goal 2 => subst x))
    | with_reducible assumption | with_reducible rfl | with_reducible apply each_works | intro _ _ _ | with_reducible apply learnCls_works
    | with_reducible apply perf_works | with_reducible apply takeValue_works | with_reducible apply ownLine_works
    | with_reducible apply drainLine_works | with_reducible apply subDone_works | split | (rename State => x; subst x)
    | with_reducible apply flex_works | with_reducible apply lan_works | with_reducible apply trn_works | with_reducible apply moving_works
    | with_reducible apply draws_works | with_reducible apply ctr_works)

theorem sharedOne_works {σ τ : State} (hw : Works σ τ) (b : Nat) (m : LineMsg) (l : LaneId) : Works σ (sharedOne b m l τ) := by
  unfold sharedOne
  repeat' (first
    | (extract_lets +onlyGivenNames x; try (refine (fun hx : Works σ x => ?_) ?_; on_goal 1 => clear_value x; on_goal 2 => subst x))
    | with_reducible assumption | with_reducible rfl | with_reducible apply answerLane_works | with_reducible apply readUncached_works
    | with_reducible apply fillShared_works | with_reducible apply relocate_works | with_reducible apply finishLine_works
    | with_reducible apply setCopy_works | split | (rename State => x; subst x) | with_reducible apply flex_works | with_reducible apply lan_works
    | with_reducible apply trn_works | with_reducible apply moving_works | with_reducible apply draws_works | with_reducible apply ctr_works)

theorem takeShared_works {σ τ : State} (hw : Works σ τ) (r : Rx) : Works σ (takeShared r τ) := by
  unfold takeShared
  repeat' (first
    | (extract_lets +onlyGivenNames x; try (refine (fun hx : Works σ x => ?_) ?_; on_goal 1 => clear_value x; on_goal 2 => subst x))
    | with_reducible assumption | with_reducible rfl | with_reducible apply each_works | intro _ _ _ | with_reducible apply learnCls_works
    | with_reducible apply takeValue_works | with_reducible apply ownLine_works | with_reducible apply drainLine_works
    | with_reducible apply subDone_works | with_reducible apply answerLane_works | with_reducible apply sharedOne_works | split
    | (rename State => x; subst x) | with_reducible apply flex_works | with_reducible apply lan_works | with_reducible apply trn_works
    | with_reducible apply moving_works | with_reducible apply draws_works | with_reducible apply ctr_works)

theorem fillOwn_works {σ τ : State} (hw : Works σ τ) (b : Nat) (v : Bobbin) (k : Nat) (c : Copy) : Works σ (fillOwn b v k c τ) := by
  unfold fillOwn
  repeat' (first
    | (extract_lets +onlyGivenNames x; try (refine (fun hx : Works σ x => ?_) ?_; on_goal 1 => clear_value x; on_goal 2 => subst x))
    | with_reducible assumption | with_reducible rfl |  with_reducible apply setCopy_works | with_reducible apply touch_works
    | with_reducible apply finishLine_works | with_reducible apply afterFill_works | split | (rename State => x; subst x)
    | with_reducible apply flex_works | with_reducible apply lan_works | with_reducible apply trn_works | with_reducible apply moving_works
    | with_reducible apply draws_works | with_reducible apply ctr_works)

theorem takeOwn_works {σ τ : State} (hw : Works σ τ) (r : Rx) : Works σ (takeOwn r τ) := by
  unfold takeOwn
  repeat' (first
    | (extract_lets +onlyGivenNames x; try (refine (fun hx : Works σ x => ?_) ?_; on_goal 1 => clear_value x; on_goal 2 => subst x))
    | with_reducible assumption | with_reducible rfl | with_reducible apply answerLane_works | with_reducible apply learnCls_works
    | with_reducible apply ownLine_works | with_reducible apply fillOwn_works | split | (rename State => x; subst x) | with_reducible apply flex_works
    | with_reducible apply lan_works | with_reducible apply trn_works | with_reducible apply moving_works | with_reducible apply draws_works
    | with_reducible apply ctr_works)

theorem takeGrant_works {σ τ : State} (hw : Works σ τ) (r : Rx) : Works σ (takeGrant r τ) := by
  unfold takeGrant
  repeat' (first
    | (extract_lets +onlyGivenNames x; try (refine (fun hx : Works σ x => ?_) ?_; on_goal 1 => clear_value x; on_goal 2 => subst x))
    | with_reducible assumption | with_reducible rfl | with_reducible apply answerLane_works | with_reducible apply learnCls_works
    | with_reducible apply ownLine_works | with_reducible apply fillOwn_works | with_reducible apply attachedApply_works
    | with_reducible apply finishLine_works | with_reducible apply dropWay_works | split | (rename State => x; subst x)
    | with_reducible apply flex_works | with_reducible apply lan_works | with_reducible apply trn_works | with_reducible apply moving_works
    | with_reducible apply draws_works | with_reducible apply ctr_works)

theorem probeAnswer_works {σ τ : State} (hw : Works σ τ) (r : Rx) (typ : MsgType) (flg : BitVec 3) (c : Option Copy) (all : Bool) : Works σ (probeAnswer r typ flg c all τ) := by
  unfold probeAnswer
  repeat' (first
    | (extract_lets +onlyGivenNames x; try (refine (fun hx : Works σ x => ?_) ?_; on_goal 1 => clear_value x; on_goal 2 => subst x))
    | with_reducible assumption | with_reducible rfl |  with_reducible apply queueMsg_works | split | (rename State => x; subst x)
    | with_reducible apply flex_works | with_reducible apply lan_works | with_reducible apply trn_works | with_reducible apply moving_works
    | with_reducible apply draws_works | with_reducible apply ctr_works)

theorem takeInvalidate_works {σ τ : State} (hw : Works σ τ) (r : Rx) : Works σ (takeInvalidate r τ) := by
  unfold takeInvalidate
  repeat' (first
    | (extract_lets +onlyGivenNames x; try (refine (fun hx : Works σ x => ?_) ?_; on_goal 1 => clear_value x; on_goal 2 => subst x))
    | with_reducible assumption | with_reducible rfl |  with_reducible apply perf_works | with_reducible apply setCopy_works
    | with_reducible apply dropWay_works | with_reducible apply subLost_works | with_reducible apply learnCls_works
    | with_reducible apply relocate_works | with_reducible apply probeAnswer_works | split | (rename State => x; subst x)
    | with_reducible apply flex_works | with_reducible apply lan_works | with_reducible apply trn_works | with_reducible apply moving_works
    | with_reducible apply draws_works | with_reducible apply ctr_works)

theorem takeRecall_works {σ τ : State} (hw : Works σ τ) (r : Rx) : Works σ (takeRecall r τ) := by
  unfold takeRecall
  repeat' (first
    | (extract_lets +onlyGivenNames x; try (refine (fun hx : Works σ x => ?_) ?_; on_goal 1 => clear_value x; on_goal 2 => subst x))
    | with_reducible assumption | with_reducible rfl |  with_reducible apply perf_works | with_reducible apply setCopy_works
    | with_reducible apply dropWay_works | with_reducible apply learnCls_works | with_reducible apply relocate_works
    | with_reducible apply probeAnswer_works | split | (rename State => x; subst x) | with_reducible apply flex_works
    | with_reducible apply lan_works | with_reducible apply trn_works | with_reducible apply moving_works | with_reducible apply draws_works
    | with_reducible apply ctr_works)

theorem takeForwarded_works {σ τ : State} (hw : Works σ τ) (r : Rx) : Works σ (takeForwarded r τ) := by
  unfold takeForwarded
  repeat' (first
    | (extract_lets +onlyGivenNames x; try (refine (fun hx : Works σ x => ?_) ?_; on_goal 1 => clear_value x; on_goal 2 => subst x))
    | with_reducible assumption | with_reducible rfl | with_reducible apply ownLine_works | with_reducible apply fillShared_works
    | with_reducible apply answerLane_works | with_reducible apply learnCls_works | split | (rename State => x; subst x)
    | with_reducible apply flex_works | with_reducible apply lan_works | with_reducible apply trn_works | with_reducible apply moving_works
    | with_reducible apply draws_works | with_reducible apply ctr_works)

theorem fillRefused_works {σ τ : State} (hw : Works σ τ) (b la : Nat) : Works σ (fillRefused b la τ) := by
  unfold fillRefused
  repeat' (first
    | (extract_lets +onlyGivenNames x; try (refine (fun hx : Works σ x => ?_) ?_; on_goal 1 => clear_value x; on_goal 2 => subst x))
    | with_reducible assumption | with_reducible rfl |  with_reducible apply setCopy_works | with_reducible apply dropWay_works | split
    | (rename State => x; subst x) | with_reducible apply flex_works | with_reducible apply lan_works | with_reducible apply trn_works
    | with_reducible apply moving_works | with_reducible apply draws_works | with_reducible apply ctr_works)

theorem writebackAcked_works {σ τ : State} (hw : Works σ τ) (b : Nat) (m : LineMsg) (ok : Bool) : Works σ (writebackAcked b m ok τ) := by
  unfold writebackAcked
  repeat' (first
    | (extract_lets +onlyGivenNames x; try (refine (fun hx : Works σ x => ?_) ?_; on_goal 1 => clear_value x; on_goal 2 => subst x))
    | with_reducible assumption | with_reducible rfl |  with_reducible apply setCopy_works | with_reducible apply dropWay_works
    | with_reducible apply relocate_works | split | (rename State => x; subst x) | with_reducible apply flex_works
    | with_reducible apply lan_works | with_reducible apply trn_works | with_reducible apply moving_works | with_reducible apply draws_works
    | with_reducible apply ctr_works)

theorem takeAck_works {σ τ : State} (hw : Works σ τ) (r : Rx) : Works σ (takeAck r τ) := by
  unfold takeAck
  repeat' (first
    | (extract_lets +onlyGivenNames x; try (refine (fun hx : Works σ x => ?_) ?_; on_goal 1 => clear_value x; on_goal 2 => subst x))
    | with_reducible assumption | with_reducible rfl | with_reducible apply answerLane_works | with_reducible apply learnCls_works
    | with_reducible apply ownLine_works | with_reducible apply drainLine_works | with_reducible apply attachedApply_works
    | with_reducible apply finishLine_works | with_reducible apply writebackAcked_works | with_reducible apply evictClean_works
    | with_reducible apply relocate_works | with_reducible apply dropWay_works | with_reducible apply modBob_works
    | with_reducible apply fillRefused_works | split | (rename State => x; subst x) | with_reducible apply flex_works | with_reducible apply lan_works
    | with_reducible apply trn_works | with_reducible apply moving_works | with_reducible apply draws_works | with_reducible apply ctr_works
    | dsimp only)

theorem abandon_works {σ τ : State} (hw : Works σ τ) (b : Nat) : Works σ (abandon b τ) := by
  unfold abandon
  repeat' (first
    | (extract_lets +onlyGivenNames x; try (refine (fun hx : Works σ x => ?_) ?_; on_goal 1 => clear_value x; on_goal 2 => subst x))
    | with_reducible assumption | with_reducible rfl | with_reducible apply each_works | intro _ _ _ | with_reducible apply relocate_works
    | with_reducible apply dropWay_works | with_reducible apply setCopy_works | split | (rename State => x; subst x) | with_reducible apply flex_works
    | with_reducible apply lan_works | with_reducible apply trn_works | with_reducible apply moving_works | with_reducible apply draws_works
    | with_reducible apply ctr_works)

theorem takeBack_works {σ τ : State} (hw : Works σ τ) (b : Nat) (la : Nat) : Works σ (takeBack b la τ) := by
  unfold takeBack
  repeat' (first
    | (extract_lets +onlyGivenNames x; try (refine (fun hx : Works σ x => ?_) ?_; on_goal 1 => clear_value x; on_goal 2 => subst x))
    | with_reducible assumption | with_reducible rfl | with_reducible apply dropWay_works | with_reducible apply mirrorSend_works
    | with_reducible apply homeCommit_works | split | (rename State => x; subst x) | with_reducible apply flex_works | with_reducible apply lan_works
    | with_reducible apply trn_works | with_reducible apply moving_works | with_reducible apply draws_works | with_reducible apply ctr_works)

theorem nowLocal_works {σ τ : State} (hw : Works σ τ) (b : Nat) (v : Bobbin) (la : Nat) : Works σ (nowLocal b v la τ) := by
  unfold nowLocal
  repeat' (first
    | (extract_lets +onlyGivenNames x; try (refine (fun hx : Works σ x => ?_) ?_; on_goal 1 => clear_value x; on_goal 2 => subst x))
    | with_reducible assumption | with_reducible rfl | with_reducible apply takeBack_works | with_reducible apply freeBob_works
    | with_reducible apply abandon_works | with_reducible apply setBob_works | split | (rename State => x; subst x) | with_reducible apply flex_works
    | with_reducible apply lan_works | with_reducible apply trn_works | with_reducible apply moving_works | with_reducible apply draws_works
    | with_reducible apply ctr_works)

theorem retryReq_works {σ τ : State} (hw : Works σ τ) (b : Nat) (v : Bobbin) : Works σ (retryReq b v τ) := by
  unfold retryReq
  repeat' (first
    | (extract_lets +onlyGivenNames x; try (refine (fun hx : Works σ x => ?_) ?_; on_goal 1 => clear_value x; on_goal 2 => subst x))
    | with_reducible assumption | with_reducible rfl | with_reducible apply nowLocal_works | with_reducible apply perf_works
    | with_reducible apply sendReq_works | with_reducible apply setBob_works | split | (rename State => x; subst x) | with_reducible apply flex_works
    | with_reducible apply lan_works | with_reducible apply trn_works | with_reducible apply moving_works | with_reducible apply draws_works
    | with_reducible apply ctr_works)

theorem takeNak_works {σ τ : State} (hw : Works σ τ) (r : Rx) : Works σ (takeNak r τ) := by
  unfold takeNak
  repeat' (first
    | (extract_lets +onlyGivenNames x; try (refine (fun hx : Works σ x => ?_) ?_; on_goal 1 => clear_value x; on_goal 2 => subst x))
    | with_reducible assumption | with_reducible rfl | with_reducible apply retryReq_works | with_reducible apply cohCount_works
    | with_reducible apply perf_works | with_reducible apply learnCls_works | split | (rename State => x; subst x) | with_reducible apply flex_works
    | with_reducible apply lan_works | with_reducible apply trn_works | with_reducible apply moving_works | with_reducible apply draws_works
    | with_reducible apply ctr_works)

theorem takeAtomic_works {σ τ : State} (hw : Works σ τ) (r : Rx) : Works σ (takeAtomic r τ) := by
  unfold takeAtomic
  repeat' (first
    | (extract_lets +onlyGivenNames x; try (refine (fun hx : Works σ x => ?_) ?_; on_goal 1 => clear_value x; on_goal 2 => subst x))
    | with_reducible assumption | with_reducible rfl |  with_reducible apply finishLine_works | with_reducible apply learnCls_works
    | with_reducible apply answerLane_works | split | (rename State => x; subst x) | with_reducible apply flex_works
    | with_reducible apply lan_works | with_reducible apply trn_works | with_reducible apply moving_works | with_reducible apply draws_works
    | with_reducible apply ctr_works)

theorem takeGrantLease_works {σ τ : State} (hw : Works σ τ) (r : Rx) : Works σ (takeGrantLease r τ) := by
  unfold takeGrantLease
  repeat' (first
    | (extract_lets +onlyGivenNames x; try (refine (fun hx : Works σ x => ?_) ?_; on_goal 1 => clear_value x; on_goal 2 => subst x))
    | with_reducible assumption | with_reducible rfl | with_reducible apply finishLine_works | with_reducible apply answerLane_works
    | with_reducible apply learnCls_works | split | (rename State => x; subst x) | with_reducible apply flex_works | with_reducible apply lan_works
    | with_reducible apply trn_works | with_reducible apply moving_works | with_reducible apply draws_works | with_reducible apply ctr_works)

theorem takeBreak_works {σ τ : State} (hw : Works σ τ) (r : Rx) : Works σ (takeBreak r τ) := by
  unfold takeBreak
  repeat' (first
    | (extract_lets +onlyGivenNames x; try (refine (fun hx : Works σ x => ?_) ?_; on_goal 1 => clear_value x; on_goal 2 => subst x))
    | with_reducible assumption | with_reducible rfl | with_reducible apply learnCls_works | with_reducible apply finishLine_works | split
    | (rename State => x; subst x) | with_reducible apply flex_works | with_reducible apply lan_works | with_reducible apply trn_works
    | with_reducible apply moving_works | with_reducible apply draws_works | with_reducible apply ctr_works | dsimp only)

theorem resendOp_works {σ τ : State} (hw : Works σ τ) (b : Nat) : Works σ (resendOp b τ) := by
  unfold resendOp
  repeat' (first
    | (extract_lets +onlyGivenNames x; try (refine (fun hx : Works σ x => ?_) ?_; on_goal 1 => clear_value x; on_goal 2 => subst x))
    | with_reducible assumption | with_reducible rfl |  with_reducible apply cohCount_works | with_reducible apply retryReq_works | split
    | (rename State => x; subst x) | with_reducible apply flex_works | with_reducible apply lan_works | with_reducible apply trn_works
    | with_reducible apply moving_works | with_reducible apply draws_works | with_reducible apply ctr_works)

theorem cutOff_works {σ τ : State} (hw : Works σ τ) (b status : Nat) : Works σ (cutOff b status τ) := by
  unfold cutOff
  repeat' (first
    | (extract_lets +onlyGivenNames x; try (refine (fun hx : Works σ x => ?_) ?_; on_goal 1 => clear_value x; on_goal 2 => subst x))
    | with_reducible assumption | with_reducible rfl |  with_reducible apply setBob_works | with_reducible apply freeBob_works
    | with_reducible apply complete_works | with_reducible apply attachedApply_works | with_reducible apply abandon_works | split
    | (rename State => x; subst x) | with_reducible apply flex_works | with_reducible apply lan_works | with_reducible apply trn_works
    | with_reducible apply moving_works | with_reducible apply draws_works | with_reducible apply ctr_works)

theorem releaseHeld_works {σ τ : State} (hw : Works σ τ) (la : Nat) : Works σ (releaseHeld la τ) := by
  unfold releaseHeld
  repeat' (first
    | (extract_lets +onlyGivenNames x; try (refine (fun hx : Works σ x => ?_) ?_; on_goal 1 => clear_value x; on_goal 2 => subst x))
    | with_reducible assumption | with_reducible rfl |  with_reducible apply setCopy_works | with_reducible apply dropWay_works | split
    | (rename State => x; subst x) | with_reducible apply flex_works | with_reducible apply lan_works | with_reducible apply trn_works
    | with_reducible apply moving_works | with_reducible apply draws_works | with_reducible apply ctr_works)

theorem staleMark_works {σ τ : State} (hw : Works σ τ) (src : Nat) (c : Cls) : Works σ (staleMark src c τ) := by
  unfold staleMark
  repeat' (first
    | (extract_lets +onlyGivenNames x; try (refine (fun hx : Works σ x => ?_) ?_; on_goal 1 => clear_value x; on_goal 2 => subst x))
    | with_reducible assumption | with_reducible rfl | with_reducible apply each_works | intro _ _ _ | with_reducible apply setCopy_works
    | with_reducible apply refreshLine_works | split | (rename State => x; subst x) | with_reducible apply flex_works | with_reducible apply lan_works
    | with_reducible apply trn_works | with_reducible apply moving_works | with_reducible apply draws_works | with_reducible apply ctr_works)

/-! ### Migrate -/

theorem dropMove_works {σ τ : State} (hw : Works σ τ) (r : Nat) (mirror : Bool) : Works σ (dropMove r mirror τ) := by
  unfold dropMove
  repeat' (first
    | (extract_lets +onlyGivenNames x; try (refine (fun hx : Works σ x => ?_) ?_; on_goal 1 => clear_value x; on_goal 2 => subst x))
    | with_reducible assumption | with_reducible rfl | with_reducible apply setTrks_works | split | (rename State => x; subst x)
    | with_reducible apply flex_works | with_reducible apply lan_works | with_reducible apply trn_works | with_reducible apply moving_works
    | with_reducible apply draws_works | with_reducible apply ctr_works)

theorem takeMove_works {σ τ : State} (hw : Works σ τ) (r : Nat) (mirror : Bool) : Works σ (takeMove r mirror τ) := by
  unfold takeMove
  repeat' (first
    | (extract_lets +onlyGivenNames x; try (refine (fun hx : Works σ x => ?_) ?_; on_goal 1 => clear_value x; on_goal 2 => subst x))
    | with_reducible assumption | with_reducible rfl | with_reducible apply setTrks_works | split | (rename State => x; subst x)
    | with_reducible apply flex_works | with_reducible apply lan_works | with_reducible apply trn_works | with_reducible apply moving_works
    | with_reducible apply draws_works | with_reducible apply ctr_works)

theorem beginMove_works {σ τ : State} (hw : Works σ τ) (r : Nat) (dst : Nat) (mirror : Bool) : Works σ (beginMove r dst mirror τ) := by
  unfold beginMove
  repeat' (first
    | (extract_lets +onlyGivenNames x; try (refine (fun hx : Works σ x => ?_) ?_; on_goal 1 => clear_value x; on_goal 2 => subst x))
    | with_reducible assumption | with_reducible rfl | with_reducible apply takeMove_works | with_reducible apply dropMove_works | split
    | (rename State => x; subst x) | with_reducible apply flex_works | with_reducible apply lan_works | with_reducible apply trn_works
    | with_reducible apply moving_works | with_reducible apply draws_works | with_reducible apply ctr_works)

theorem sendMigAck_works {σ τ : State} (hw : Works σ τ) (r : Nat) (mirror : Bool) : Works σ (sendMigAck r mirror τ) := by
  unfold sendMigAck
  repeat' (first
    | (extract_lets +onlyGivenNames x; try (refine (fun hx : Works σ x => ?_) ?_; on_goal 1 => clear_value x; on_goal 2 => subst x))
    | with_reducible assumption | with_reducible rfl |  with_reducible apply queueMsg_works | split | (rename State => x; subst x)
    | with_reducible apply flex_works | with_reducible apply lan_works | with_reducible apply trn_works | with_reducible apply moving_works
    | with_reducible apply draws_works | with_reducible apply ctr_works)

theorem wipeRole_works {σ τ : State} (hw : Works σ τ) (r : Nat) (orphan : Bool) : Works σ (wipeRole r orphan τ) := by
  unfold wipeRole
  repeat' (first
    | (extract_lets +onlyGivenNames x; try (refine (fun hx : Works σ x => ?_) ?_; on_goal 1 => clear_value x; on_goal 2 => subst x))
    | with_reducible assumption | with_reducible rfl |  split | (rename State => x; subst x) | with_reducible apply flex_works
    | with_reducible apply lan_works | with_reducible apply trn_works | with_reducible apply moving_works | with_reducible apply draws_works
    | with_reducible apply ctr_works)

theorem orphanRest_works {σ τ : State} (hw : Works σ τ) (r : Nat) : Works σ (orphanRest r τ) := by
  unfold orphanRest
  repeat' (first
    | (extract_lets +onlyGivenNames x; try (refine (fun hx : Works σ x => ?_) ?_; on_goal 1 => clear_value x; on_goal 2 => subst x))
    | with_reducible assumption | with_reducible rfl |  with_reducible apply each_works | intro _ _ _ | with_reducible apply setLine_works
    | split | (rename State => x; subst x) | with_reducible apply flex_works | with_reducible apply lan_works
    | with_reducible apply trn_works | with_reducible apply moving_works | with_reducible apply draws_works
    | with_reducible apply ctr_works)

theorem ackKnown_works {σ τ : State} (hw : Works σ τ) (r : Nat) (mirror : Bool) : Works σ (ackKnown r mirror τ) := by
  unfold ackKnown
  repeat' (first
    | (extract_lets +onlyGivenNames x; try (refine (fun hx : Works σ x => ?_) ?_; on_goal 1 => clear_value x; on_goal 2 => subst x))
    | with_reducible assumption | with_reducible rfl | split | (rename State => x; subst x) | with_reducible apply flex_works
    | with_reducible apply lan_works | with_reducible apply trn_works | with_reducible apply moving_works | with_reducible apply draws_works
    | with_reducible apply ctr_works)

theorem roleMoved_works {σ τ : State} (hw : Works σ τ) (r : Nat) : Works σ (roleMoved r τ) := by
  unfold roleMoved
  repeat' (first
    | (extract_lets +onlyGivenNames x; try (refine (fun hx : Works σ x => ?_) ?_; on_goal 1 => clear_value x; on_goal 2 => subst x))
    | with_reducible assumption | with_reducible rfl |  with_reducible apply complete_works | split | (rename State => x; subst x)
    | with_reducible apply flex_works | with_reducible apply lan_works | with_reducible apply trn_works | with_reducible apply moving_works
    | with_reducible apply draws_works | with_reducible apply ctr_works)

theorem modMigIn_works {σ τ : State} (hw : Works σ τ) (r src : Nat) (mirror : Bool) (f : MigIn → MigIn) : Works σ (modMigIn r src mirror f τ) := by
  unfold modMigIn
  repeat' (first
    | (extract_lets +onlyGivenNames x; try (refine (fun hx : Works σ x => ?_) ?_; on_goal 1 => clear_value x; on_goal 2 => subst x))
    | with_reducible assumption | with_reducible rfl |  split | (rename State => x; subst x) | with_reducible apply flex_works
    | with_reducible apply lan_works | with_reducible apply trn_works | with_reducible apply moving_works | with_reducible apply draws_works
    | with_reducible apply ctr_works)

theorem ownRole_works {σ τ : State} (hw : Works σ τ) (r : Nat) : Works σ (ownRole r τ) := by
  unfold ownRole
  repeat' (first
    | (extract_lets +onlyGivenNames x; try (refine (fun hx : Works σ x => ?_) ?_; on_goal 1 => clear_value x; on_goal 2 => subst x))
    | with_reducible assumption | with_reducible rfl | with_reducible apply each_works | intro _ _ _ | with_reducible apply ownLine_works | split
    | (rename State => x; subst x) | with_reducible apply flex_works | with_reducible apply lan_works | with_reducible apply trn_works
    | with_reducible apply moving_works | with_reducible apply draws_works | with_reducible apply ctr_works)

theorem ackEffect_works {σ τ : State} (hw : Works σ τ) (r : Nat) (mirror : Bool) : Works σ (ackEffect r mirror τ) := by
  unfold ackEffect
  repeat' (first
    | (extract_lets +onlyGivenNames x; try (refine (fun hx : Works σ x => ?_) ?_; on_goal 1 => clear_value x; on_goal 2 => subst x))
    | with_reducible assumption | with_reducible rfl | with_reducible apply ownRole_works | with_reducible apply beginMove_works
    | with_reducible apply ackKnown_works | with_reducible apply roleMoved_works | split | (rename State => x; subst x)
    | with_reducible apply flex_works | with_reducible apply lan_works | with_reducible apply trn_works | with_reducible apply moving_works
    | with_reducible apply draws_works | with_reducible apply ctr_works)

theorem ackLeft_works {σ τ : State} (hw : Works σ τ) (m : LineMsg) : Works σ (ackLeft m τ) := by
  unfold ackLeft
  repeat' (first
    | (extract_lets +onlyGivenNames x; try (refine (fun hx : Works σ x => ?_) ?_; on_goal 1 => clear_value x; on_goal 2 => subst x))
    | with_reducible assumption | with_reducible rfl | with_reducible apply ackEffect_works | with_reducible apply modMigIn_works | split
    | (rename State => x; subst x) | with_reducible apply flex_works | with_reducible apply lan_works | with_reducible apply trn_works
    | with_reducible apply moving_works | with_reducible apply draws_works | with_reducible apply ctr_works)

theorem storeMig_works {σ τ : State} (hw : Works σ τ) (m : LineMsg) : Works σ (storeMig m τ) := by
  unfold storeMig
  repeat' (first
    | (extract_lets +onlyGivenNames x; try (refine (fun hx : Works σ x => ?_) ?_; on_goal 1 => clear_value x; on_goal 2 => subst x))
    | with_reducible assumption | with_reducible rfl |  with_reducible apply setLine_works | with_reducible apply replayAdd_works | split
    | (rename State => x; subst x) | with_reducible apply flex_works | with_reducible apply lan_works | with_reducible apply trn_works
    | with_reducible apply moving_works | with_reducible apply draws_works | with_reducible apply ctr_works)

theorem mirrorAck_works {σ τ : State} (hw : Works σ τ) (r : Rx) : Works σ (mirrorAck r τ) := by
  unfold mirrorAck
  repeat' (first
    | (extract_lets +onlyGivenNames x; try (refine (fun hx : Works σ x => ?_) ?_; on_goal 1 => clear_value x; on_goal 2 => subst x))
    | with_reducible assumption | with_reducible rfl |  with_reducible apply queueMsg_works | split | (rename State => x; subst x)
    | with_reducible apply flex_works | with_reducible apply lan_works | with_reducible apply trn_works | with_reducible apply moving_works
    | with_reducible apply draws_works | with_reducible apply ctr_works)

theorem takeOwned_works {σ τ : State} (hw : Works σ τ) (m : LineMsg) : Works σ (takeOwned m τ) := by
  unfold takeOwned
  repeat' (first
    | (extract_lets +onlyGivenNames x; try (refine (fun hx : Works σ x => ?_) ?_; on_goal 1 => clear_value x; on_goal 2 => subst x))
    | with_reducible assumption | with_reducible rfl | with_reducible apply mirrorSend_works | with_reducible apply homeCommit_works
    | with_reducible apply setLine_works | split | (rename State => x; subst x) | with_reducible apply flex_works | with_reducible apply lan_works
    | with_reducible apply trn_works | with_reducible apply moving_works | with_reducible apply draws_works | with_reducible apply ctr_works)

theorem takeMigLine_works {σ τ : State} (hw : Works σ τ) (r : Rx) : Works σ (takeMigLine r τ) := by
  unfold takeMigLine
  repeat' (first
    | (extract_lets +onlyGivenNames x; try (refine (fun hx : Works σ x => ?_) ?_; on_goal 1 => clear_value x; on_goal 2 => subst x))
    | with_reducible assumption | with_reducible rfl | with_reducible apply modMigIn_works | with_reducible apply storeMig_works
    | with_reducible apply mirrorAck_works | with_reducible apply takeOwned_works | split | (rename State => x; subst x)
    | with_reducible apply flex_works | with_reducible apply lan_works | with_reducible apply trn_works | with_reducible apply moving_works
    | with_reducible apply draws_works | with_reducible apply ctr_works)

theorem takeDir_works {σ τ : State} (hw : Works σ τ) (m : LineMsg) (i : Nat) : Works σ (takeDir m τ i) := by
  unfold takeDir
  repeat' (first
    | (extract_lets +onlyGivenNames x; try (refine (fun hx : Works σ x => ?_) ?_; on_goal 1 => clear_value x; on_goal 2 => subst x))
    | with_reducible assumption | with_reducible rfl | with_reducible apply setEntry_works | with_reducible apply dirTrk_works
    | with_reducible apply setTrks_works | split | (rename State => x; subst x) | with_reducible apply flex_works | with_reducible apply lan_works
    | with_reducible apply trn_works | with_reducible apply moving_works | with_reducible apply draws_works | with_reducible apply ctr_works)

theorem takeMigDir_works {σ τ : State} (hw : Works σ τ) (r : Rx) : Works σ (takeMigDir r τ) := by
  unfold takeMigDir
  repeat' (first
    | (extract_lets +onlyGivenNames x; try (refine (fun hx : Works σ x => ?_) ?_; on_goal 1 => clear_value x; on_goal 2 => subst x))
    | with_reducible assumption | with_reducible rfl | with_reducible apply each_works | intro _ _ _ | with_reducible apply modMigIn_works
    | with_reducible apply takeDir_works | split | (rename State => x; subst x) | with_reducible apply flex_works | with_reducible apply lan_works
    | with_reducible apply trn_works | with_reducible apply moving_works | with_reducible apply draws_works | with_reducible apply ctr_works)

theorem closeMove_works {σ τ : State} (hw : Works σ τ) (r : Rx) (k : Nat) : Works σ (closeMove r k τ) := by
  unfold closeMove
  repeat' (first
    | (extract_lets +onlyGivenNames x; try (refine (fun hx : Works σ x => ?_) ?_; on_goal 1 => clear_value x; on_goal 2 => subst x))
    | with_reducible assumption | with_reducible rfl | with_reducible apply sendMigAck_works | with_reducible apply modMigIn_works | split
    | (rename State => x; subst x) | with_reducible apply flex_works | with_reducible apply lan_works | with_reducible apply trn_works
    | with_reducible apply moving_works | with_reducible apply draws_works | with_reducible apply ctr_works)

theorem sourceAcked_works {σ τ : State} (hw : Works σ τ) (k : Nat) : Works σ (sourceAcked k τ) := by
  unfold sourceAcked
  repeat' (first
    | (extract_lets +onlyGivenNames x; try (refine (fun hx : Works σ x => ?_) ?_; on_goal 1 => clear_value x; on_goal 2 => subst x))
    | with_reducible assumption | with_reducible rfl |  split | (rename State => x; subst x) | with_reducible apply flex_works
    | with_reducible apply lan_works | with_reducible apply trn_works | with_reducible apply moving_works | with_reducible apply draws_works
    | with_reducible apply ctr_works)

theorem hearAck_works {σ τ : State} (hw : Works σ τ) (k : Nat) (mirror : Bool) : Works σ (hearAck k mirror τ) := by
  unfold hearAck
  repeat' (first
    | (extract_lets +onlyGivenNames x; try (refine (fun hx : Works σ x => ?_) ?_; on_goal 1 => clear_value x; on_goal 2 => subst x))
    | with_reducible assumption | with_reducible rfl | with_reducible apply dropMove_works | with_reducible apply sourceAcked_works
    | with_reducible apply ackKnown_works | with_reducible apply roleMoved_works | split | (rename State => x; subst x)
    | with_reducible apply flex_works | with_reducible apply lan_works | with_reducible apply trn_works | with_reducible apply moving_works
    | with_reducible apply draws_works | with_reducible apply ctr_works)

theorem takeMigDone_works {σ τ : State} (hw : Works σ τ) (r : Rx) : Works σ (takeMigDone r τ) := by
  unfold takeMigDone
  repeat' (first
    | (extract_lets +onlyGivenNames x; try (refine (fun hx : Works σ x => ?_) ?_; on_goal 1 => clear_value x; on_goal 2 => subst x))
    | with_reducible assumption | with_reducible rfl |  with_reducible apply mirrorAnswer_works | with_reducible apply closeMove_works
    | with_reducible apply hearAck_works | split | (rename State => x; subst x) | with_reducible apply flex_works
    | with_reducible apply lan_works | with_reducible apply trn_works | with_reducible apply moving_works | with_reducible apply draws_works
    | with_reducible apply ctr_works)

theorem migLeft_works {σ τ : State} (hw : Works σ τ) (m : LineMsg) : Works σ (migLeft m τ) := by
  unfold migLeft
  repeat' (first
    | (extract_lets +onlyGivenNames x; try (refine (fun hx : Works σ x => ?_) ?_; on_goal 1 => clear_value x; on_goal 2 => subst x))
    | with_reducible assumption | with_reducible rfl |  split | (rename State => x; subst x) | with_reducible apply flex_works
    | with_reducible apply lan_works | with_reducible apply trn_works | with_reducible apply moving_works | with_reducible apply draws_works
    | with_reducible apply ctr_works)

end Sys2Proof.Machine
end

