-- ==== Sys2Proof/WellFormed.lean ====
section
/-! DEFINITION. Which commands are well formed: every operand lies in the range its field or the node's resources give it. The
meanings are total and do not ask for it. -/

namespace Sys2Proof

/-- The fields of a line message fit their widths (03 R142). -/
def LineMsg.wf (m : LineMsg) : Bool :=
  decide (m.dst < 64) && decide (m.trk < 1024) && decide (m.ten < 8) && decide (m.la < 2 ^ 24) && decide (m.age < 256)

/-- A received line message: its sender's node number and home key (01 R21, R17). -/
def Rx.wf (r : Rx) : Bool := decide (1 ≤ r.src ∧ r.src ≤ 62) && decide (r.srcHk < 256) && r.msg.wf

/-- A bobbin index (01 R33). -/
def bobOk (b : Nat) : Bool := decide (b < 512)

/-- A tenant number. -/
def tenOk (t : Nat) : Bool := decide (t < 8)

/-- A car-bus port. -/
def portOk (p : Nat) : Bool := decide (p < 2)

/-- A CAN frame (11 R561, R562). -/
def CanFrame.wf (f : CanFrame) : Bool :=
  decide (f.id < 2 ^ 29) && (f.ide || decide (f.id < 2 ^ 11)) && decide (f.dlc < 16) && decide (f.data.length ≤ 64)

/-- A quad-SPI frame (09 R439). -/
def SpiFrame.wf (f : SpiFrame) : Bool := decide (f.port < 4) && decide (f.a < 2 ^ 24)

/-- A steward-window offset. -/
def offOk (off : Nat) : Bool := decide (off < 2 ^ 20)

/-- Who makes an access is a tenant of the node. -/
def Who.wf : Who → Bool
  | .tenant n => tenOk n
  | _ => true

/-- A well-formed command. -/
def Instr.wf : Instr → Bool
  | .read b | .readFresh b | .readBlock b | .write b | .writeMasked b | .writeBlock b | .zeroLine b | .claim b | .release b
  | .atomic b | .lock b | .unlock b | .subscribe b | .unsubscribe b | .flush b | .invalidate b | .clean b | .pin b | .unpin b
  | .prefetch b | .mapRegion b | .unmapRegion b | .setAttr b | .bindCan b | .unbindCan b | .queryRegion b | .readPhase b
  | .waitPhase b | .picotArm b | .picotCancel b | .setMainsSource b | .readTopology b | .inaugRequest b | .patternPropose b
  | .patternQuery b | .roleQuery b | .roleClaim b | .loadPricking b | .counterRead b | .sampleDrain b | .clampLogRead b
  | .inject b | .bistSchedule b | .bistResult b | .shutdown b | .echo b | .commandTimeout b | .waitPhaseReached b
  | .requestResend b => bobOk b
  | .badOpcode t | .cqHeadPoll t | .tenantResetTimeout t | .resetDone t | .irqcoalTime t => tenOk t
  | .tenDb t _ | .tenCqdb t _ | .tenRctlWrite t _ | .tenantEnableWrite t _ | .freset t _ | .tenPhin t _ => tenOk t
  | .rdShared r | .rdOwn r | .ownNodata r | .wrPublish r | .wrMasked r | .atomicReq r | .lockReq r | .unlockReq r | .subReq r
  | .unsubReq r | .writeback r | .evictClean r | .readHome r | .dataShared r | .dataOwn r | .grantOwn r | .update r
  | .invalidateMsg r | .recall r | .ack r | .nakRetry r | .atomicResult r | .leaseGrant r | .leaseBreak r | .invAck r
  | .recallData r | .recallNodata r | .migLine r | .migDir r | .migDone r => r.wf
  | .homeFifoNext la | .leaseExpiry la | .heldLineRelease la => decide (la < 2 ^ 24)
  | .homeResend t => decide (t < 1024)
  | .adezoFrameReceive f | .frameRepeat f => decide (f.bytes.length ≤ 1534)
  | .reorderTimeout src _ => decide (1 ≤ src ∧ src ≤ 62)
  | .foreignFrameReceive _ _ bs => decide (bs.length ≤ 1534)
  | .ownStitchStart st => decide (st ≤ 512)
  | .migrationRetry role => decide (role < 8)
  | .range _ _ m => decide (m.rseq < 32)
  | .disc _ _ ms => decide (ms.length ≤ 6)
  | .zxEdge i _ => decide (i < 3)
  | .zxInputMissing i => decide (i < 3)
  | .picotCapture c _ _ | .picotOutputEdge c | .picCapPop c _ => decide (c < 24)
  | .inaugClaim src _ | .digest src _ | .confirm src _ | .drained src _ | .patSwitchPropose src _ | .patSwitchAck src _
  | .patSwitchNack src _ => decide (1 ≤ src ∧ src ≤ 62)
  | .couplerEdge e _ => decide (1 ≤ e ∧ e ≤ 2)
  | .lanEnableWrite w _ _ | .bypForceWrite w _ _ | .laneSpeedWrite w _ _ | .patStageHold w _ | .pmcCtrlClr w _ | .glbReset w _
  | .glbAutostartWrite w _ => w.wf
  | .registerWrite w off _ | .accessAlign w off _ | .rcRead w off | .pmcLoRead w off => w.wf && offOk off
  | .pmcSelWrite w off _ => w.wf && offOk off
  | .evtPendClear w j _ => w.wf && decide (j < 16)
  | .msixGapEnd fn vec => decide (fn < 8) && decide (1 ≤ vec ∧ vec ≤ 7)
  | .pcieFunctionReset _ fn => decide (fn < 8)
  | .ramWrite f | .ramRead f | .regWrite f | .regRead f | .status f | .portReset f => f.wf
  | .spiFrameInvalid p => decide (p < 4)
  | .canFrameReceived p f _ _ => portOk p && f.wf
  | .txDone p _ | .confRequest p _ | .confLeave p _ => portOk p
  | .txAborted p | .busOn p | .boreq p | .confDone p | .integrationDone p | .bindTxLoad p => portOk p
  | .errFrame p c _ _ => portOk p && decide (c < 16)
  | .confRefused p off => portOk p && offOk off
  | .objLock p o | .objUnlock p o | .txreq p o | .txcancel p o | .objClear p o => portOk p && decide (o < 128)
  | .qtxRequest p b | .qtxCancel p b => portOk p && decide (b < 3)
  | .rxqAck p q m => portOk p && decide (q < 2) && decide (m < 64)
  | .bindRxWrite i => decide (i < 256)
  | .detectorFire d _ _ _ => decide (d < 48)
  | .wayctlDrain q w | .wayctlOn q w | .ccWayOff q w => decide (q < 4) && decide (w < 16)
  | .keeRead p | .keeWrite p | .keepDailyRead p _ => decide (p < 256)
  | .pinMuxWrite w k _ => w.wf && decide (k < 30)
  | .glbClkgateWrite w j _ => w.wf && decide (j < 7)
  | .dapacc a _ _ _ => decide (a < 2 ^ 20)
  | .laneCopyTimeout k st => decide (k < 4) && decide (st ≤ 512)
  | .pmcCycleWrap i => decide (i < 80)
  | .pcieConfigWrite c => match c with
    | .vfEnable _ => true
    | .memSpace fn _ | .msixEnable fn _ | .msixFnMask fn _ => decide (fn < 8)
    | .msixVecMask fn vec _ => decide (fn < 8) && decide (vec < 8)
  | .jobFetch | .heldRepeatSend _ _ | .foreignWindowStart _ | .macControlFrame _ _ | .rowStart | .hoopBoundary
  | .delayedLaunch _ _ | .rangingStitchStart _ | .rangingFallback _ _ | .rangingMiss _ _ | .reference _ _ _ _ _ _ _ _
  | .referenceMissed | .holdoverLimit | .tvalidLossTimeout | .phtSnap _ | .call _ _ | .statusAgreed _ | .statusCut _
  | .statusResume _ | .agreementTimeout | .drainLimit | .isolationRetry | .patSwitchGo _ | .patSwitchCancel _
  | .mdioPoll _ _ _ _ _ | .rxcLoss _ _ | .linkConfirmed _ _ | .relaySettle _ | .lanMdioCmd _ | .perstAssert
  | .dmaReadComplete _ _ | .watchdogExpiry | .ccWindowEnd | .scrubStep _ _ | .keeVerify | .keepPageWriteDone _ _
  | .clampLogPersist | .intClampClear _ | .powerUpStart _ | .railFall _ | .resetAssert | .startComplete _ _ _ | .glbRun _
  | .shdnReq | .sentLow | .bistDecision _ | .logicBistDone _ | .memoryBistDone _ _ | .bistHoldupAbort _ _ | .pinTick | .dbgHalt
  | .dbgResume | .dbgStep | .dbgHaltLong | .mdioFrameDone _ | .pcieLinkUp | .postedWriteCredit | .rgmiiRailBack
  | .trueHoopBoundary | .ctcInputChange _ | .keepReadDone _ | .ledBlink _ => true

end Sys2Proof
end

