-- ==== Sys2Proof/Tests/Slice0.lean ====
section
/-! SUPPORT. Tests: ill-formed commands that well-formedness refuses, one step of single commands on small states with results
worked out from the spec, and, for every statement with hypotheses, states and operands that meet them (theorems `test_met_…`). -/

namespace Sys2Proof.Tests
set_option Elab.async false
open Sys2Proof Sys2Proof.Machine

/-! ### Sample states -/

/-- The state a command leads to; the state before it where it stops, which no test would pass on. -/
def after (c : Instr) (s : State) : State := match exec c s with
  | .next t => t
  | _ => s

/-- A register in force. -/
def put (off v : Nat) (s : State) : State := { s with reg := s.reg.put off v }

/-- A side that is up and ranged. -/
def sideUp : SideSt := { link := .up, ones := 2, rxc := true, noPeer := false, yv := true, y := 4000, ranged := true, mean := 4000, hasMean := true }

/-- STANDBY with home key 5. -/
def standby : State := { State.reset with
  dev := { State.reset.dev with st := .standby, started := true }, kee := { State.reset.kee with hk := 5 }
  tm := { State.reset.tm with clk := 10 ^ 12 } }

/-- A region of 64 lines. -/
def region (b : Nat) (claim : Bool) (cls : Cls) : Region :=
  { base := b, count := 64, claim := claim, cls := cls, clsReq := cls, persist := false, canb := false, rrd := true, rwr := true, agelim := 0
    trd := 0xFF, twr := 0xFF, pin := false }

/-- RUN as node 2 of three, home key 5, in hoop 100 and in SYNC; lanes A and B up; a PUBLISH region of class C2 at 50000h and a CLAIM
region of class C1 at 50100h. -/
def run : State := put (lanBase 0) 3 (put (lanBase 1) 3 { standby with
  dev := { standby.dev with st := .run }
  tm := { standby.tm with
    tstate := .sync, hoop := 100, thoop := 100, locked := true, rows := 1000, virt := false, following := true, rowClk := 10 ^ 12
    trueClk := 10 ^ 12, jammed := true }
  trn := { standby.trn with
    memb := .member, node := 2, epoch := 7, nnodes := 3, roster := [4, 5, 6], version := 1, holders := [1, 1, 2, 3, 1, 1, 1, 2], held := 4
    roleSrc := 0xFF }
  lan := { standby.lan with lanes := [{ byp := true, e1 := sideUp, e2 := sideUp }, { byp := true, e1 := sideUp, e2 := sideUp }, {}] }
  pat := { standby.pat with cur := 0, slots := [{ valid := true }, {}, {}, {}] }
  home := { standby.home with regions := [(0, region 0x50000 false .c2), (1, region 0x50100 true .c1)] } })

/-- A stitch entry of a pricking (04 R199): class C0, all rows of a four-row hoop, lanes as a mask. -/
def entry (start owner len stype use lanes : Nat) : List Byte :=
  leBytes 3 start ++ leBytes 1 owner ++ leBytes 3 len ++ leBytes 1 (stype + 64 * use) ++ leBytes 1 lanes ++ leBytes 1 0 ++ leBytes 2 0xF

/-- A pricking for three nodes on lane A at 1000 Mb/s, for pattern `n`, without its digest (04 R197–R199): the pattern stitch, three data
stitches a node, the ranging stitch, three budgets. -/
def prickBody (n : Nat) : List Byte :=
  leBytes 2 0x5A71 ++ leBytes 1 1 ++ leBytes 1 n ++ leBytes 1 0 ++ leBytes 1 3 ++ leBytes 1 9 ++ leBytes 1 0 ++ leBytes 2 11
    ++ leBytes 6 0 ++ leBytes 3 300000 ++ leBytes 1 0 ++ leBytes 3 400000 ++ leBytes 1 0 ++ leBytes 40 0
    ++ entry 0 0 3000 0 3 1
    ++ (List.range 3).flatMap (fun i => (List.range 3).flatMap fun u => entry (3000 + 9000 * i + 3000 * u) (i + 1) 2500 1 u 1)
    ++ entry 150000 63 90000 2 3 1
    ++ (List.range 3).flatMap fun _ => leBytes 2 208 ++ leBytes 2 208 ++ leBytes 2 208 ++ leBytes 10 0

/-- The pricking with its digest. -/
def prick (n : Nat) : List Byte := prickBody n ++ leBytes 4 (crc32 (prickBody n))

/-- `run` with a pricking in slot 0, pattern 0 in force. -/
def runPat : State := { run with kee := { run.kee with
  mem := run.kee.mem ++ ((prick 0).zipIdx 0x2000).filterMap fun e => if e.1 = 0 then none else some (e.2, e.1) } }

/-- A job. -/
def job (ten op la : Nat) (arg : List Byte := []) (olen : Nat := 256) : Job :=
  { ten := ten, op := op, la := la, arg := arg, alen := arg.length, olen := olen }

/-- A bobbin with a job, accepted just now. -/
def bob (j : Job) (claim : Bool := false) : Bobbin := { job := j, par := if claim then 1 else 0, accClk := 10 ^ 12 - 100, accHoop := 99 }

/-- A state with one command in bobbin 40. -/
def withBob (v : Bobbin) (s : State) : State := { s with ten := { s.ten with bobs := [(40, v)] } }

/-- A command of tenant 1 with opcode `op`. -/
def cmd (op : Nat) (arg : List Byte) (s : State := run) : State := withBob (bob (job 1 op 0 arg 2048)) s

/-- A copy of a line in state `st`. -/
def copy (la : Nat) (st : CState) : Copy := { la := la, st := st, version := 9, data := 0xABCDEF, ageRow := 990, age := 3 }

/-- `s` with a copy of remote line 60101h. -/
def withCopy (c : Copy) (s : State := run) : State := { s with cc := { s.cc with ways := [(16 * Machine.setOf 0x60101 + 3, c)] } }

/-! ### States and operands that meet the hypotheses of each statement, clause by clause -/

theorem test_met_IdleStepPassesOneCoreCycle : State.reset.pending = [] := rfl

theorem test_met_MisalignedAccessIsIgnoredAndReported : reachable standby = true ∧ 0xFFFFF % 4 ≠ 0 ∧ 0x2001 % 4 ≠ 0 := by decide +kernel

theorem test_met_RegisterWriteStoresTheCheckedValue : stewardly .steward = true ∧ stewardly .debug = true ∧ reachable run = true
    ∧ PlainRegister 0x2000 ∧ isStaged 0x2000 = true ∧ PlainRegister 0xC018 ∧ isStaged 0xC018 = false
    ∧ (regCheck run 0xC018 101).2 ≠ [] ∧ (regCheck run 0xC018 100).2 = [] := by
  unfold PlainRegister; decide +kernel

theorem test_met_CheckedFieldsLieInTheirRange : (regFlds 0x8000).any (fun f => f.clamp == .near 2 64) = true := by decide +kernel

/-- `run` with tenant 7 on SPI port 3, the performance counters off. -/
def spi : State := put 0xB000 0 (put (tenBase 7 + 0x1C08) 0 (put (tenBase 7 + 0x1C00) 5 run))

theorem test_met_CounterReadReturnsThenClears : reachable run = true ∧ 0xC100 % 4 = 0 ∧ clears run .steward 0xC100 = true
    ∧ clears run .steward 0x6088 = true ∧ clears spi (.tenant 7) 0x408 = true := by decide +kernel

/-- `run` with performance counter 79 counting cycles. -/
def counting : State := put 0xB000 1 (put (pmcSelOff 79) 0x100 { run with dbg := { run.dbg with accessed := true } })

theorem test_met_PerformanceCounterCommands : stewardly .steward = true ∧ reachable counting = true ∧ counting.dbg.dbgDis = false
    ∧ counting.dbg.accessed = true ∧ (2 : Word).getLsbD 1 = true ∧ pmcOn counting 79 = true
    ∧ cycleEvent (rfld counting (pmcSelOff 79) 0 8) = true := by decide +kernel

theorem test_met_WritesOfOneClear : mayWrite .steward run = true ∧ 15 < 16 ∧ (1 : Word).getLsbD 0 = true := by decide +kernel

/-- `run` while the debug port has been used. -/
def attached (f : DbgSt → DbgSt) : State := { run with dbg := f { run.dbg with accessed := true } }

theorem test_met_DebugPortAccess : (attached fun d => { d with dbgDis := true }).dbg.dbgDis = true
    ∧ (run.dbg.dbgDis = false ∧ reachable run = true ∧ run.dbg.accessed = false)
    ∧ ((attached id).dbg.dbgDis = false ∧ reachable (attached id) = true ∧ (attached id).dbg.accessed = true ∧ 0xFFFFC % 4 = 0 ∧ 0xFFFFC < 2 ^ 20)
    ∧ ¬(0xB000 ≤ 0xB008 ∧ 0xB008 < 0xC000 ∧ 0xB008 % 0x10 = 4) ∧ rbit (attached id) 0xE000 3 = false ∧ rbit (attached id) 0xE000 2 = false
    ∧ rbit (put 0xE000 4 (attached id)) 0xE000 2 = true := by decide +kernel

theorem test_met_DebugHaltStepAndResume : (run.dbg.dbgDis = false ∧ run.dbg.halted = false ∧ serving run = true)
    ∧ (attached fun d => { d with halted := true, hoops := 1 }).dbg.halted = true
    ∧ ((attached fun d => { d with halted := true, hoops := 1 }).dbg.long = false ∧ 1 ≤ (attached fun d => { d with halted := true, hoops := 1 }).dbg.hoops)
    ∧ (attached fun d => { d with halted := true, long := true }).dbg.long = true := by decide +kernel

/-- A frame of port 3 with its checks met where CRC is off. -/
def spiFrame (a len : Nat) (data : List Byte) : SpiFrame := { port := 3, width := 2, a := a, len := len, data := data }

theorem test_met_RamReadReturnsWhatRamWriteStored : portHears spi 3 = true ∧ spiWriteOk spi 1 (spiFrame 0x3FFF 1 [1, 2]) = true
    ∧ spiWriteOk spi 1 (spiFrame 0 255 (List.replicate 256 7)) = true ∧ Memory.wf spi.ten.ram = true ∧ rbit spi 0xB000 0 = false := by
  decide +kernel

theorem test_met_SpiFramesActOnTheirTenant : portHears spi 3 = true ∧ spi.ten.tens.length = 8
    ∧ spiWriteOk spi 3 (spiFrame 0x1FFC 3 [1, 2, 3, 4]) = true ∧ (spiFrame 0x1FFC 3 [1, 2, 3, 4]).a % 4 = 0 := by decide +kernel

/-- A pin on its way to another function. -/
def pinSw (left : Nat) : PinSw := { left := left, func := 0, park := true }

theorem test_met_PinSwitchesClockGatesAndLeds : mayWrite .steward run = true ∧ tget run.dev.switching 29 = none
    ∧ bitsOf (regCheck run (0x1000 + 4 * 29) 0).1 0 3 ≠ bitsOf (muxReg run 29) 0 3
    ∧ (run.dev.st ≠ .off ∧ run.dev.resetLow = false)
    ∧ (pinSw 3).left = 3 ∧ (pinSw 2).left = 2 ∧ (pinSw 1).left = 1 ∧ runBlinks { run with dev := { run.dev with st := .inaug } } = true
    ∧ fltBlinks { run with int := { run.int with detStat := 1 } } = true := by decide +kernel

/-- OFF, with every supply down. -/
def off : State := { run with dev := { run.dev with st := .off, rails := 0, window := 0 } }

theorem test_met_ResetsBeginStart : off.dev.st = .off ∧ off.kee.cur = none ∧ run.dev.st ≠ .off ∧ mayWrite .steward run = true
    ∧ (0x5AA50001 : Word).getLsbD 0 = true ∧ (0x5AA50001 : Word).toNat / 65536 = 0x5AA5 ∧ (0x5AA50000 : Word).getLsbD 0 = false
    ∧ (0x5AA40001 : Word).toNat / 65536 ≠ 0x5AA5 := by decide +kernel

theorem test_met_StartEndsAndRunIsEntered : ({ State.reset with kee := { State.reset.kee with mem := [] } } : State).dev.st = .start
    ∧ State.reset.dev.resetLow = false ∧ idPage { State.reset with kee := { State.reset.kee with mem := [] } } = none
    ∧ (State.reset.dev.st = .start ∧ idPage State.reset ≠ none ∧ imageOf State.reset = none ∧ rbit State.reset 0x00C 1 = false
      ∧ Memory.wf State.reset.kee.mem = true)
    ∧ (standby.dev.st = .standby ∧ standby.dev.straps.getLsbD 3 = false ∧ (1 : Word).getLsbD 0 = true ∧ (2 : Word).getLsbD 1 = true)
    ∧ ({ standby with dev := { standby.dev with straps := 8 } } : State).dev.straps.getLsbD 3 = true := by decide +kernel

theorem test_met_ShutdownIsEntered : serving run = true ∧ run.dev.resetLow = false := by decide +kernel

/-- SHUTDOWN at a stage of its BIST. -/
def shut (st : ShutStep) (f : IntSt → IntSt) : State := { run with dev := { run.dev with st := .shutdown }, int := f { run.int with shut := st } }


theorem test_met_ShutdownBistSequence : (shut .decide id).int.shut = .decide
    ∧ bistWhy 0 (shut .decide id) = 0 ∧ bistWhy 0 (shut .decide fun i => { i with noBist := true }) ≠ 0
    ∧ (bistWhy 1000 (shut .decide fun i => { i with noBist := true, sentLow := true }) ≠ 0
      ∧ holdup (shut .decide fun i => { i with noBist := true, sentLow := true }) < 3000 + 85)
    ∧ (shut .logic id).int.shut = .logic ∧ ((shut .memory id).int.shut = .memory ∧ injOf (shut .memory id) 45 = .none ∧ injOf (shut .memory id) 46 = .none)
    ∧ (bistRuns (shut .logic fun i => { i with sentLow := true }) = true ∧ (shut .logic id).int.bistSent = false
      ∧ holdup (shut .logic id) < 0 + 1) ∧ (holdup (put 0xC028 0xFF01 (shut .logic id)) < 2465 + 86 ∧ 2465 + 85 ≤ holdup (put 0xC028 0xFF01 (shut .logic id))) := by decide +kernel

/-- `run` with injections enabled and set. -/
def injecting : State := put 0xC014 1 { run with int := { run.int with inj := [(5, .oneShot), (44, .sticky)] } }

theorem test_met_DetectorFiringIsRecordedAndActs : detActive run 0 = true ∧ detActive run 47 = true
    ∧ (List.range 48).any (fun d => detActive run d && detSafe d) = true
    ∧ (List.range 48).any (fun d => detActive run d && !detSafe d && !detContain d) = true
    ∧ (detActive injecting 5 = true ∧ injOf injecting 5 ≠ .none) ∧ detActive run 10 = true := by decide +kernel

theorem test_met_KeepStoreCommandsBegin : keeReady run = true ∧ stewardPage (0 % 256) = true ∧ stewardPage (223 % 256) = true
    ∧ (List.range 256).any (fun p => !stewardPage p) = true ∧ (keeReady { run with dev := { run.dev with st := .acquire } } = true)
    ∧ (stewardPage 8 = true ∧ run.dev.st = .run) := by decide +kernel

/-- `run` while a page is written. -/
def writing (w : KeepWr) (p : Nat) (again : Bool) : State := { run with kee := { run.kee with cur := some (w, p, again), busy := true } }

theorem test_met_PageWriteStoresItsPageAlone : Memory.wf run.kee.mem = true
    ∧ (writing (.steward 255 [1, 2]) 255 false).kee.cur = some (.steward 255 [1, 2], 255, false)
    ∧ (writing (.steward 0 [1, 2]) 0 true).kee.cur = some (.steward 0 [1, 2], 0, true) := by decide +kernel

theorem test_met_KeepStoreReadsAndClampLog : ({ run with kee := { run.kee with reading := some 255 } } : State).kee.reading = some 255
    ∧ (powered run = true ∧ (List.range 256).any (fun p => !copied p) = true)
    ∧ (run.dev.st ≠ .shutdown ∧ ({ run with int := { run.int with logDirty := true } } : State).int.logDirty = true ∧ run.kee.logClk = none) := by
  decide +kernel

/-- `run` with way-quadrants in given states. -/
def ways (l : Table WayQ) : State := { run with cc := { run.cc with wqs := l } }

theorem test_met_WayQuadrantCommands : reachable run = true ∧ ((wq (ways []) (15 * 4 + 3)).st = .on ∧ 4 < onWays (ways []) 3)
    ∧ ((wq (ways ((List.range 12).map fun i => (4 * i, { st := .offSteward }))) (15 * 4 + 0)).st = .on
      ∧ onWays (ways ((List.range 12).map fun i => (4 * i, { st := .offSteward }))) 0 ≤ 4)
    ∧ ((wq (ways [(0, { st := .drain })]) 0).st = .drain ∧ (∀ e ∈ (ways [(0, { st := .drain })]).cc.ways, ¬(e.1 % 16 = 0 ∧ e.1 / 4096 = 0))) := by
  decide +kernel

/-- `run` with the home store's scrubbing at a written line. -/
def scrubbing : State := { run with
  cc := { run.cc with scrubCc := 16383, scrubHs := 1, scrubF := 12287 }
  home := { run.home with lines := [(1, { data := 77, version := 5 })] } }

theorem test_met_ScrubMovesOn : scrubs scrubbing = true ∧ isBusy scrubbing (laOf scrubbing.kee.hk scrubbing.cc.scrubHs) = false
    ∧ homeHas scrubbing (laOf scrubbing.kee.hk scrubbing.cc.scrubHs) = true ∧ fEntry scrubbing (laOf scrubbing.kee.hk scrubbing.cc.scrubHs) = none
    ∧ scrubBusy scrubbing scrubbing.cc.scrubF = false := by decide +kernel

/-- `run` with side E1 of lane A changed. -/
def side (f : SideSt → SideSt) (s : State := run) : State := modSide .a .e1 f s

theorem test_met_LinkStateFollowsThePolls : run.lan.lanes.length = 3 ∧ pollDue run .a .e1 = true
    ∧ pollDue (side fun x => { x with pollClk := some (10 ^ 12 - 1) }) .a .e1 = false ∧ evaluates run .a = true ∧ run.dev.rgDown = false
    ∧ pollBit run .a .e1 0xFFFF = true ∧ pollBit run .a .e1 0 = false ∧ 1 ≤ (sideOf (side fun x => { x with link := .down, ones := 1 }) .a .e1).ones
    ∧ (sideOf (side fun x => { x with link := .down, ones := 1 }) .a .e1).link = .down ∧ true = laneFast run (laneIx .a)
    ∧ (sideOf (side fun x => { x with link := .spderr, ones := 2 }) .a .e1).link = .spderr ∧ false ≠ laneFast run (laneIx .a)
    ∧ (sideOf (side fun x => { x with link := .down, ones := 0 }) .a .e1).ones = 0 ∧ (sideOf run .a .e1).link ≠ .down ∧ powered run = true := by
  decide +kernel

/-- `run` with its train state changed. -/
def train (f : TrnSt → TrnSt) (st : DevState := .run) : State := { run with dev := { run.dev with st := st }, trn := f run.trn }

theorem test_met_CouplingChangesAreCauses : (run.dev.st = .run ∧ run.trn.isoRestarts = false)
    ∧ ((train id .inaug).dev.st = .inaug ∧ (decide ((2 : Nat) ≠ 2) && !(train id .inaug).trn.restartCounted) = false
      ∧ (decide ((0 : Nat) ≠ 2) && !(train id .inaug).trn.restartCounted) = true ∧ (train (fun t => { t with restarts := 2 }) .inaug).trn.restarts < 3
      ∧ 3 ≤ (train (fun t => { t with restarts := 3 }) .inaug).trn.restarts)
    ∧ ((train fun t => { t with isoRestarts := true }).trn.isoRestarts = true ∧ standby.dev.st ≠ .run ∧ standby.dev.st ≠ .inaug)
    ∧ ((sideOf run .a .e1).confirm = none ∧ (sideOf (side fun x => { x with confirm := some true }) .a .e1).confirm = some true
      ∧ rfld (put 0x7000 2 run) 0x7000 0 2 = 2 ∧ run.trn.cple.getD (sideIx .e1) false = false ∧ rfld run 0x7000 0 2 ≠ 2
      ∧ (train fun t => { t with cple := [true, false] }).trn.cple.getD (sideIx .e1) false = true)
    ∧ (powered off = false ∧ powered run = true ∧ rfld (put 0x7000 1 run) 0x7000 0 2 = 1 ∧ rfld run 0x7000 0 2 ≠ 1) := by decide +kernel

theorem test_met_LaneControlWrites : mayWrite (.tenant 0) run = false ∧ mayWrite .steward run = true ∧ gateShut run (lanBase 0) = false
    ∧ gateShut run (lanBase 2) = false ∧ run.lan.lanes.length = 3
    ∧ ((1 : Word).getLsbD 0 = true ∧ (1 : Word).getLsbD 3 = false ∧ run.dev.st = .run)
    ∧ ((0 : Word).getLsbD 0 = false ∧ (8 : Word).getLsbD 3 = true ∧ standby.dev.st ≠ .acquire ∧ standby.dev.st ≠ .run ∧ standby.dev.st ≠ .inaug)
    ∧ (4 : Word).getLsbD 2 = true ∧ (3 : Word).getLsbD 1 = laneFast run (laneIx .a)
    ∧ ((1 : Word).getLsbD 2 = false ∧ (1 : Word).getLsbD 1 ≠ laneFast run (laneIx .a))
    ∧ (reachable off = false ∧ ({ run with lan := { run.lan with mdioBusy := true } } : State).lan.mdioBusy = true)
    ∧ (reachable run = true ∧ run.lan.mdioBusy = false ∧ run.lan.mdioCmd = none)
    ∧ ({ run with lan := { run.lan with mdioCmd := some 0x1000 } } : State).lan.mdioCmd = some 0x1000 := by decide +kernel

/-- `run` within a ranging stitch of lane A, side E1 changed. -/
def ranging (f : SideSt → SideSt) : State := side f (modLane .a (fun x => { x with ranging := true, rngEnd := 10 ^ 12 + 1 }) run)

theorem test_met_RangingMeasuresTheLinks : run.lan.lanes.length = 3 ∧ ranges (modLane .a (fun x => { x with byp := false }) run) .a = false
    ∧ ranges run .a = true ∧ (sideOf (modSide .a .e2 (fun x => { x with noPeer := true }) run) .a (other .e1)).noPeer = true
    ∧ sideOpen run .a .e1 2 = true
    ∧ (({} : RangeMsg).prevv = false ∧ (sideOf (side fun x => { x with rx1 := none }) .a .e1).rx1 = none)
    ∧ ({ prevv := true, yvalid := true } : RangeMsg).prevv = true
    ∧ ((sideOf (ranging fun x => { x with jseq := some 31, tx1 := some 1000, rx1 := some 3000 }) .a .e1).jseq = some ((0 + 31) % 32)
      ∧ (if (sideOf (ranging fun x => { x with tx1 := some 1000 }) .a .e1).sent && true then (sideOf (ranging id) .a .e1).tx0
        else (sideOf (ranging fun x => { x with tx1 := some 1000 }) .a .e1).tx1) = some 1000
      ∧ (sideOf (ranging fun x => { x with rx1 := some 3000 }) .a .e1).rx1 = some 3000 ∧ (sideOf run .a .e1).ranged = true)
    ∧ (((laneAt (ranging id) .a).ranging && decide ((ranging id).tm.clk < (laneAt (ranging id) .a).rngEnd)) = true
      ∧ (sideOf (ranging id) .a (other .e1)).sent = false ∧ sideOpen (ranging id) .a (other .e1) 2 = true)
    ∧ ((sideOf (endRanging .a run) .a .e1).missed = false ∧ (sideOf (endRanging .a (side fun x => { x with missed := true, misses := 15 })) .a .e1).missed = true
      ∧ (sideOf (endRanging .a (side fun x => { x with missed := true, misses := 15 })) .a .e1).link = .up
      ∧ (sideOf (endRanging .a (side fun x => { x with missed := true, misses := 15 })) .a .e1).misses = 15)
    ∧ ((laneAt run .a).ranging = false ∧ (laneAt (ranging id) .a).ranging = true ∧ (sideOf (ranging id) .a .e1).sent = false
      ∧ sideOpen (ranging id) .a .e1 2 = true) := by decide +kernel

theorem test_met_CompletionsEnterTheirRing : bobOf (cmd 1 []) 40 = some (bob (job 1 1 0 [] 2048)) ∧ (bob (job 1 1 0 [] 2048)).kind = .job
    ∧ (bob (job 1 1 0 [] 2048)).absorb = false
    ∧ ((List.replicate 32 (0 : Byte)).length = 32 ∧ (tenOf run 0).ovf = [] ∧ cqFull run 0 = false ∧ cqFull run 7 = false ∧ isSpi run 7 = false
      ∧ run.ten.noCredit = false) := by decide +kernel

/-- A line command of tenant 1 in bobbin 40, on `la`, in `s`. -/
def lineCmd (op la : Nat) (claim : Bool) (s : State := run) : State := withBob (bob (job 1 op la (List.replicate 72 3)) claim) s

/-- What `LineJob` asks. -/
theorem lineJob_of {s : State} {b op la : Nat} {v : Bobbin}
    (h : bobOf s b = some v ∧ v.job.op = op ∧ mayRun s v = true ∧ earlier s b v la = false ∧ curLa v = la) : LineJob s b op la v :=
  ⟨h.1, h.2.1, h.2.2.1, h.2.2.2.1, h.2.2.2.2⟩

/-- The bobbin of `lineCmd`. -/
def lineBob (op la : Nat) (claim : Bool) : Bobbin := bob (job 1 op la (List.replicate 72 3)) claim

/-- `run` in device state `st`, with membership `m`, its time lost if `lost`, line 60101h in class C0 at its home. -/
def gated (st : DevState) (m : Memb) (lost : Bool := false) : State := { run with
  dev := { run.dev with st := st }, trn := { run.trn with memb := m }
  tm := { run.tm with tstate := if lost then .acquire else .sync }, home := { run.home with hcls := [(0x60101, .c0)] } }

/-- `run` with every way of line 60101h's set taken by a copy of another line in state `st`. -/
def fullSet (st : CState) : State := { run with cc := { run.cc with
  ways := (List.range 16).map fun i => (16 * Machine.setOf 0x60101 + i, copy (0x60101 + 1024 * (i + 1)) st) } }

/-- A lane command on line 60101h finds its request withheld: DENIED (`op` as an ISOLATED node), out of time, frozen, and with no class known. -/
theorem gates_met : remoteGate (gated .run .isolated) false .c0 = .deny ∧ remoteGate (gated .run .listenOnly) true .c0 = .deny
    ∧ remoteCls (gated .run .member true) 0x60101 .c2 = .c0 ∧ remoteGate (gated .run .member true) false .c0 = .run
    ∧ remoteGate (gated .run .member true) true .c0 = .run ∧ timed (gated .run .member true) = false
    ∧ remoteGate (gated .acquire .member true) false .c0 = .wait ∧ remoteGate (gated .acquire .member true) true .c0 = .wait
    ∧ (gated .acquire .member true).dev.st ≠ .inaug ∧ remoteCls run 0x60101 .c2 ≠ .c0
    ∧ remoteGate { gated .inaug .member with trn := { run.trn with frozen := true } } true .c0 = .wait
    ∧ remoteGate { gated .inaug .member with trn := { run.trn with frozen := true } } false .c0 = .wait := by decide +kernel

/-- The home's gate is shut (SHUTDOWN, or a write in Freeze), or no general tracker is free for class C1. -/
theorem homeGates_met : homeGate (gated .shutdown .member) false ≠ .run ∧ homeGate (gated .shutdown .member) true ≠ .run
    ∧ homeGate run false = .run ∧ homeGate run true = .run
    ∧ takeTrk { run with home := { run.home with q0 := 832 } } .c1 false = none := by decide +kernel

/-- `run` with no tracker left to C1 and C2. -/
def noTrk : State := { run with home := { run.home with q0 := 832 } }

theorem test_met_ReadCommands :
    (LineJob (lineCmd 1 0x60101 true (withCopy (copy 0x60101 .s))) 40 1 0x60101 (lineBob 1 0x60101 true)
      ∧ homedHere run 0x60101 = false ∧ copyOf (withCopy (copy 0x60101 .s) run) 0x60101 = some (16 * Machine.setOf 0x60101 + 3, copy 0x60101 .s))
    ∧ (LineJob (lineCmd 3 0x60101 false (withCopy (copy 0x60101 .p))) 40 3 0x60101 (lineBob 3 0x60101 false) ∧ (copy 0x60101 .p).st = .p)
    ∧ (LineJob (lineCmd 2 0x60101 true (withCopy (copy 0x60101 .m))) 40 2 0x60101 (lineBob 2 0x60101 true) ∧ claimJob (lineBob 2 0x60101 true) = true)
    ∧ (LineJob (lineCmd 1 0x60101 true (withCopy (copy 0x60101 .mi))) 40 1 0x60101 (lineBob 1 0x60101 true)
      ∧ (copyOf (withCopy (copy 0x60101 .mi)) 0x60101).isSome = true ∧ (copy 0x60101 .mi).st ∉ [CState.s, .e, .m, .p])
    ∧ (LineJob (lineCmd 2 0x60101 false (withCopy (copy 0x60101 .p))) 40 2 0x60101 (lineBob 2 0x60101 false)
      ∧ (copy 0x60101 .p).st ∉ [CState.s, .e, .m]
      ∧ LaneOpen (lineCmd 2 0x60101 false (withCopy (copy 0x60101 .p))) (lineBob 2 0x60101 false) false)
    ∧ (LineJob (lineCmd 1 0x60101 true { run with cc := { run.cc with lostM := [0x60101] } }) 40 1 0x60101 (lineBob 1 0x60101 true))
    ∧ (LineJob (lineCmd 1 0x60101 false) 40 1 0x60101 (lineBob 1 0x60101 false) ∧ 0x60101 ∉ run.cc.lostM
      ∧ copyOf (lineCmd 1 0x60101 false) 0x60101 = none ∧ LaneOpen (lineCmd 1 0x60101 false) (lineBob 1 0x60101 false) false
      ∧ claimJob (lineBob 1 0x60101 false) = false)
    ∧ (LineJob (lineCmd 1 0x60101 true) 40 1 0x60101 (lineBob 1 0x60101 true) ∧ LaneOpen (lineCmd 1 0x60101 true) (lineBob 1 0x60101 true) false
      ∧ (wayFor 40 0x60101 (lineCmd 1 0x60101 true)).2 = .got (16 * Machine.setOf 0x60101)
      ∧ (wayFor 40 0x60101 (lineCmd 1 0x60101 true (fullSet .mi))).2 = .later ∧ (wayFor 40 0x60101 (lineCmd 1 0x60101 true (fullSet .is))).2 = .none)
    ∧ (LineJob (lineCmd 1 0x60101 true (gated .run .isolated)) 40 1 0x60101 (lineBob 1 0x60101 true)
      ∧ LineJob (lineCmd 1 0x60101 true (gated .run .member true)) 40 1 0x60101 (lineBob 1 0x60101 true)
      ∧ LineJob (lineCmd 2 0x60101 true (gated .acquire .member true)) 40 2 0x60101 (lineBob 2 0x60101 true)
      ∧ copyOf (lineCmd 2 0x60101 true (gated .acquire .member true)) 0x60101 = none)
    ∧ (LineJob (lineCmd 1 0x50001 false) 40 1 0x50001 (lineBob 1 0x50001 false) ∧ homedHere (lineCmd 1 0x50001 false) 0x50001 = true
      ∧ homeGate (lineCmd 1 0x50001 false) false = .run ∧ (takeTrk (lineCmd 1 0x50001 false) (clsAt run 0x50001 .c1) false).isSome = true
      ∧ takeTrk (lineCmd 1 0x50001 false noTrk) (clsAt noTrk 0x50001 .c1) false = none
      ∧ LineJob (lineCmd 2 0x50001 false (gated .shutdown .member)) 40 2 0x50001 (lineBob 2 0x50001 false)) := by
  simp only [LaneOpen]; and_intros <;> first | exact lineJob_of (by decide +kernel) | decide +kernel

theorem test_met_WriteCommands :
    (LineJob (lineCmd 4 0x60101 true (withCopy (copy 0x60101 .e))) 40 4 0x60101 (lineBob 4 0x60101 true)
      ∧ LaneOpen (lineCmd 4 0x60101 true (withCopy (copy 0x60101 .e))) (lineBob 4 0x60101 true) true ∧ claimJob (lineBob 4 0x60101 true) = true
      ∧ copyOf (withCopy (copy 0x60101 .e) run) 0x60101 = some (16 * Machine.setOf 0x60101 + 3, copy 0x60101 .e))
    ∧ (LineJob (lineCmd 8 0x60101 true (withCopy (copy 0x60101 .s))) 40 8 0x60101 (lineBob 8 0x60101 true) ∧ (copy 0x60101 .s).st = .s)
    ∧ (LineJob (lineCmd 5 0x60101 true (withCopy (copy 0x60101 .is))) 40 5 0x60101 (lineBob 5 0x60101 true)
      ∧ (copyOf (withCopy (copy 0x60101 .is)) 0x60101).isSome = true ∧ (copy 0x60101 .is).st ∉ [CState.e, .m, .s])
    ∧ (LineJob (lineCmd 7 0x60101 true) 40 7 0x60101 (lineBob 7 0x60101 true) ∧ copyOf (lineCmd 7 0x60101 true) 0x60101 = none
      ∧ (wayFor 40 0x60101 (relyLease 40 0x60101 (lineCmd 7 0x60101 true))).2 = .got (16 * Machine.setOf 0x60101)
      ∧ LineJob (lineCmd 6 0x60101 true (fullSet .is)) 40 6 0x60101 (lineBob 6 0x60101 true)
      ∧ (wayFor 40 0x60101 (relyLease 40 0x60101 (lineCmd 6 0x60101 true (fullSet .is)))).2 = .none)
    ∧ (LineJob (lineCmd 7 0x60101 false) 40 7 0x60101 (lineBob 7 0x60101 false)
      ∧ LaneOpen (lineCmd 7 0x60101 false) (lineBob 7 0x60101 false) true ∧ claimJob (lineBob 7 0x60101 false) = false)
    ∧ (LineJob (lineCmd 4 0x60101 true (gated .run .listenOnly)) 40 4 0x60101 (lineBob 4 0x60101 true)
      ∧ LineJob (lineCmd 4 0x60101 true (gated .run .member true)) 40 4 0x60101 (lineBob 4 0x60101 true)
      ∧ LineJob (lineCmd 4 0x60101 true (gated .acquire .member true)) 40 4 0x60101 (lineBob 4 0x60101 true)
      ∧ homedHere (gated .acquire .member true) 0x60101 = false)
    ∧ (LineJob (lineCmd 6 0x50101 true) 40 6 0x50101 (lineBob 6 0x50101 true) ∧ homeGate (lineCmd 6 0x50101 true) true = .run
      ∧ (takeTrk (lineCmd 6 0x50101 true) (clsAt run 0x50101 .c1) false).isSome = true
      ∧ takeTrk (lineCmd 6 0x50101 true noTrk) (clsAt noTrk 0x50101 .c1) false = none
      ∧ LineJob (lineCmd 6 0x50101 true (gated .shutdown .member)) 40 6 0x50101 (lineBob 6 0x50101 true)) := by
  simp only [LaneOpen]; and_intros <;> first | exact lineJob_of (by decide +kernel) | decide +kernel

/-- `s` with tenants subscribed to line 60101h. -/
def subscribed (ts : List Nat) (s : State := run) : State := { s with home := { s.home with subs := ts.map fun n => (0x60101, n) } }

/-- `run` with line 50001h marked. -/
def marked (l : HomeLine) : State := { run with home := { run.home with lines := [(1, l)] } }

theorem test_met_HomeAndSubscriptionCommands :
    (LineJob (lineCmd 10 0x60101 false) 40 10 0x60101 (lineBob 10 0x60101 false) ∧ homedHere (lineCmd 10 0x60101 false) 0x60101 = false
      ∧ LaneOpen (lineCmd 10 0x60101 false) (lineBob 10 0x60101 false) true ∧ copyOf (lineCmd 10 0x60101 false) 0x60101 = none)
    ∧ (∀ st ∈ [CState.p, .s, .m, .mi], (copyOf (lineCmd 10 0x60101 true (withCopy (copy 0x60101 st))) 0x60101).map (·.2.st) = some st)
    ∧ LineJob (lineCmd 10 0x60101 true (withCopy (copy 0x60101 .m))) 40 10 0x60101 (lineBob 10 0x60101 true)
    ∧ LineJob (lineCmd 11 0x60101 true) 40 11 0x60101 (lineBob 11 0x60101 true) ∧ LineJob (lineCmd 12 0x60101 true) 40 12 0x60101 (lineBob 12 0x60101 true)
    ∧ (LineJob (lineCmd 11 0x60101 true (gated .run .listenOnly)) 40 11 0x60101 (lineBob 11 0x60101 true)
      ∧ LineJob (lineCmd 10 0x60101 true (gated .run .member true)) 40 10 0x60101 (lineBob 10 0x60101 true)
      ∧ LineJob (lineCmd 12 0x60101 true (gated .acquire .member true)) 40 12 0x60101 (lineBob 12 0x60101 true))
    ∧ (LineJob (lineCmd 10 0x50001 false) 40 10 0x50001 (lineBob 10 0x50001 false) ∧ homeGate (lineCmd 10 0x50001 false) true = .run
      ∧ (takeTrk (lineCmd 10 0x50001 false) (clsAt run 0x50001 .c1) false).isSome = true
      ∧ takeTrk (lineCmd 10 0x50001 false noTrk) (clsAt noTrk 0x50001 .c1) false = none
      ∧ LineJob (lineCmd 11 0x50101 true (gated .shutdown .member)) 40 11 0x50101 (lineBob 11 0x50101 true))
    ∧ LineJob (lineCmd 11 0x50101 true) 40 11 0x50101 (lineBob 11 0x50101 true) ∧ LineJob (lineCmd 12 0x50101 true) 40 12 0x50101 (lineBob 12 0x50101 true)
    ∧ (LineJob (lineCmd 13 0x60101 false (withCopy (copy 0x60101 .p))) 40 13 0x60101 (lineBob 13 0x60101 false)
      ∧ claimJob (lineBob 13 0x60101 false) = false ∧ (copyOf (withCopy (copy 0x60101 .p)) 0x60101).isSome = true ∧ (copy 0x60101 .ip).st ≠ .p)
    ∧ (LineJob (lineCmd 13 0x60101 false) 40 13 0x60101 (lineBob 13 0x60101 false) ∧ unsubOut (lineCmd 13 0x60101 false) 0x60101 = false
      ∧ LaneOpen (lineCmd 13 0x60101 false) (lineBob 13 0x60101 false) false
      ∧ unsubOut { run with ten := { run.ten with owed := [{ ten := 0, op := 14, la := 0x60101, cls := .c1, msg := { typ := .unsubReq } }] } } 0x60101 = true
      ∧ (wayFor 40 0x60101 (lineCmd 13 0x60101 false)).2 = .got (16 * Machine.setOf 0x60101)
      ∧ (wayFor 40 0x60101 (lineCmd 13 0x60101 false (fullSet .is))).2 = .none)
    ∧ (LineJob (lineCmd 13 0x50001 false) 40 13 0x50001 (lineBob 13 0x50001 false) ∧ homeGate (lineCmd 13 0x50001 false) false = .run
      ∧ LineJob (lineCmd 13 0x50001 false (gated .shutdown .member)) 40 13 0x50001 (lineBob 13 0x50001 false)
      ∧ (homeLine (marked { orphan := true }) 0x50001).orphan = true
      ∧ ((homeLine (marked { errData := true }) 0x50001).orphan = false ∧ (homeLine (marked { errData := true }) 0x50001).errData = true))
    ∧ (LineJob (lineCmd 14 0x50001 false) 40 14 0x50001 (lineBob 14 0x50001 false)
      ∧ LineJob (lineCmd 14 0x50001 false (gated .shutdown .member)) 40 14 0x50001 (lineBob 14 0x50001 false))
    ∧ (LineJob (lineCmd 14 0x60101 false (subscribed [1, 2])) 40 14 0x60101 (lineBob 14 0x60101 false)
      ∧ (subsOf (subscribed [2]) 0x60101).contains 1 = false
      ∧ (subsOf (subscribed [1, 2]) 0x60101).contains 1 = true ∧ (subsOf (subscribed [1, 2]) 0x60101).any (· != 1) = true)
    ∧ (LineJob (lineCmd 14 0x60101 false (subscribed [1] (withCopy (copy 0x60101 .p) run))) 40 14 0x60101 (lineBob 14 0x60101 false)
      ∧ (subsOf (subscribed [1]) 0x60101).any (· != 1) = false ∧ transient (copy 0x60101 .ip).st = true ∧ transient (copy 0x60101 .s).st = false
      ∧ LaneOpen (lineCmd 14 0x60101 false (subscribed [1])) (lineBob 14 0x60101 false) false)
    ∧ (LineJob (lineCmd 13 0x60101 false (gated .run .isolated)) 40 13 0x60101 (lineBob 13 0x60101 false)
      ∧ LineJob (lineCmd 13 0x60101 false (gated .run .member true)) 40 13 0x60101 (lineBob 13 0x60101 false)
      ∧ LineJob (lineCmd 14 0x60101 false (subscribed [1] (withCopy (copy 0x60101 .p) (gated .acquire .member true)))) 40 14 0x60101 (lineBob 14 0x60101 false)
      ∧ (copyOf (withCopy (copy 0x60101 .p) (gated .acquire .member true)) 0x60101).any (·.2.st == .p) = true) := by
  simp only [LaneOpen]; and_intros <;> first | exact lineJob_of (by decide +kernel) | decide +kernel

/-- `run` with way 3 of line 60101h's set pinned through other lines of the set, or the line itself. -/
def pinned (l : List Pin) : State := { run with cc := { run.cc with pins := l } }

theorem test_met_MaintenanceCommands : homedHere run 0x60101 = false ∧ ¬(run.dev.st = .run ∧ run.trn.memb = .isolated)
    ∧ (LineJob (lineCmd 9 0x50101 true) 40 9 0x50101 (lineBob 9 0x50101 true) ∧ homedHere (lineCmd 9 0x50101 true) 0x50101 = true
      ∧ LineJob (lineCmd 0x15 0x60101 true (gated .run .isolated)) 40 0x15 0x60101 (lineBob 0x15 0x60101 true)
      ∧ LineJob (lineCmd 0x13 0x50101 true) 40 0x13 0x50101 (lineBob 0x13 0x50101 true) ∧ (lineBob 0x13 0x50101 true).job.la = 0x50101
      ∧ LineJob (lineCmd 0x14 0x50101 true) 40 0x14 0x50101 (lineBob 0x14 0x50101 true))
    ∧ (LineJob (lineCmd 9 0x60101 true (withCopy (copy 0x60101 .e))) 40 9 0x60101 (lineBob 9 0x60101 true)
      ∧ LineJob (lineCmd 9 0x60101 true (withCopy (copy 0x60101 .s))) 40 9 0x60101 (lineBob 9 0x60101 true)
      ∧ LineJob (lineCmd 0x12 0x60101 false (withCopy (copy 0x60101 .p))) 40 0x12 0x60101 (lineBob 0x12 0x60101 false)
      ∧ LineJob (lineCmd 0x10 0x60101 true (withCopy { copy 0x60101 .is with bob := some 41 })) 40 0x10 0x60101 (lineBob 0x10 0x60101 true)
      ∧ (copyOf (withCopy { copy 0x60101 .is with bob := some 41 }) 0x60101).any (fun e => transient e.2.st && e.2.bob == some 41) = true)
    ∧ (LineJob (lineCmd 0x15 0x60101 false) 40 0x15 0x60101 (lineBob 0x15 0x60101 false) ∧ claimJob (lineBob 0x15 0x60101 false) = false
      ∧ LaneOpen (lineCmd 0x15 0x60101 true) (lineBob 0x15 0x60101 true) false ∧ copyOf (lineCmd 0x15 0x60101 true) 0x60101 = none)
    ∧ (LineJob (lineCmd 9 0x60101 true) 40 9 0x60101 (lineBob 9 0x60101 true) ∧ copyOf (lineCmd 9 0x60101 true) 0x60101 = none)
    ∧ (LineJob (lineCmd 0x10 0x60101 true (withCopy (copy 0x60101 .s))) 40 0x10 0x60101 (lineBob 0x10 0x60101 true)
      ∧ LaneOpen (lineCmd 0x10 0x60101 true (withCopy (copy 0x60101 .s))) (lineBob 0x10 0x60101 true) false)
    ∧ (LineJob (lineCmd 0x12 0x60101 true (withCopy (copy 0x60101 .m))) 40 0x12 0x60101 (lineBob 0x12 0x60101 true)
      ∧ LaneOpen (lineCmd 0x12 0x60101 true (withCopy (copy 0x60101 .m))) (lineBob 0x12 0x60101 true) true)
    ∧ LineJob (lineCmd 0x11 0x60101 true (withCopy (copy 0x60101 .m))) 40 0x11 0x60101 (lineBob 0x11 0x60101 true)
    ∧ (LineJob (lineCmd 0x15 0x60101 true) 40 0x15 0x60101 (lineBob 0x15 0x60101 true)
      ∧ (wayFor 40 0x60101 (lineCmd 0x15 0x60101 true)).2 = .got (16 * Machine.setOf 0x60101))
    ∧ (LineJob (lineCmd 0x13 0x60101 true) 40 0x13 0x60101 (lineBob 0x13 0x60101 true) ∧ pinsFit (lineCmd 0x13 0x60101 true) [0x60101] = true
      ∧ pinsFit (pinned ((List.range 20).map fun i => { la := 0x60101 + 1024 * (i + 1), rgn := none })) [0x60101] = false)
    ∧ (LineJob (lineCmd 0x14 0x60101 true (pinned [{ la := 0x60101, rgn := some 1 }])) 40 0x14 0x60101 (lineBob 0x14 0x60101 true)
      ∧ (pinned [{ la := 0x60101, rgn := some 1 }]).cc.pins.any (fun p => p.la == 0x60101 && p.rgn.isSome) = true
      ∧ (pinned [{ la := 0x60101, rgn := none }]).cc.pins.any (fun p => p.la == 0x60101 && p.rgn.isSome) = false) := by
  simp only [LaneOpen]; and_intros <;> first | exact lineJob_of (by decide +kernel) | decide +kernel

/-- MAP_REGION of line `la` with attributes `w`. -/
def mapping (la : Nat) (arg : List Byte) : State := withBob (bob (job 1 0x20 la arg 2048)) run

/-- A one-line C0 PUBLISH region homed here, as MAP_REGION asks for it. -/
def c0Map : Region := mapRegionOf (job 1 0x20 0x50200 [1, 0, 0x30, 0, 0xFF, 0xFF, 0, 0])

/-- `run` with the filter set of that line full of shared entries. -/
def fullFilter : State := { run with home := { run.home with
  filter := (List.range 12).map fun i => (0x200 + 1024 * (i + 1), { st := .sh, vec := nodeBit 3, seq := i }) } }

theorem test_met_RegionCommands : serving run = true
    ∧ (freeRegion run = some 2 ∧ (admitRegion run c0Map).any (fun e => e.1.cls == .c0 && !e.1.claim && homedHere run e.1.base) = true
      ∧ regionFree run c0Map.base c0Map.count = true ∧ anchoredAll (anchorRegion c0Map run) c0Map = true
      ∧ anchoredAll (anchorRegion c0Map fullFilter) c0Map = false)
    ∧ ((gated .run .isolated).trn.memb = .isolated ∧ (gated .inaug .member).dev.st = .inaug ∧ run.trn.memb ≠ .isolated
      ∧ unmapEmpty run 40 (region 0x50000 false .c2) = true
      ∧ unmapEmpty { run with home := { run.home with filter := [(1, { st := .pub, vec := nodeBit 3 })] } } 40 (region 0x50000 false .c2) = false)
    ∧ (bobOf (mapping 0x50010 [4, 0, 0x34, 0, 0xFF, 0xFF, 0, 0]) 40 = some (bob (job 1 0x20 0x50010 [4, 0, 0x34, 0, 0xFF, 0xFF, 0, 0] 2048))
      ∧ mayRun run (bob (job 1 0x20 0x50010 [4, 0, 0x34, 0, 0xFF, 0xFF, 0, 0] 2048)) = true
      ∧ regionFree run (mapRegionOf (job 1 0x20 0x50010 [4, 0, 0x34, 0, 0xFF, 0xFF, 0, 0])).base (mapRegionOf (job 1 0x20 0x50010 [4, 0, 0x34, 0, 0xFF, 0xFF, 0, 0])).count = false)
    ∧ (regionFree run (mapRegionOf (job 1 0x20 0x60400 [4, 0, 0xB1, 0, 0xFF, 0xFF, 0, 0])).base (mapRegionOf (job 1 0x20 0x60400 [4, 0, 0xB1, 0, 0xFF, 0xFF, 0, 0])).count = true
      ∧ freeRegion run = some 2 ∧ (admitRegion run (mapRegionOf (job 1 0x20 0x60400 [4, 0, 0xB1, 0, 0xFF, 0xFF, 0, 0]))).isSome = true
      ∧ homedHere run 0x60400 = false)
    ∧ admitRegion (pinned ((List.range 20).map fun i => { la := 0x60101 + 1024 * (i + 1), rgn := none }))
      (mapRegionOf (job 1 0x20 0x60101 [1, 0, 0xB3, 0, 0xFF, 0xFF, 0, 0])) = none
    ∧ (({ bob (job 1 0x21 0x50000) with rgn := some (region 0x50000 false .c2) } : Bobbin).rgn ≠ none ∧ standby.dev.st = .standby
      ∧ (bob (job 1 0x21 0)).rgn = none)
    ∧ readyJob (cmd 0x22 [0, 0, 0, 0, 0, 0, 0, 0]) 40 0x22 = some (bob (job 1 0x22 0 [0, 0, 0, 0, 0, 0, 0, 0] 2048))
    ∧ (readyJob (cmd 0x25 []) 40 0x25 = some (bob (job 1 0x25 0 [] 2048)) ∧ regionAt run 0 = none ∧ (regionAt run 0x5013F).isSome = true
      ∧ regionAt run 0x50140 = none) := by decide +kernel

/-- What `TaskJob` asks. -/
theorem taskJob_of {s : State} {b op : Nat} {v : Bobbin} (h : readyJob s b op = some v ∧ serving s = true) : TaskJob s b op v := ⟨h.1, h.2⟩

/-- A binding of line 50001h. -/
def bnd (port : Nat) (tx : Bool) (obj : Nat) : Bind :=
  { la := 0x50001, port := port, tx := tx, ide := false, fd := false, brs := false, id := 0x123, off := 0, len := 8, ten := 1, obj := obj }

/-- A received frame of a binding. -/
def canRx : CanRx := { f := { id := 0x123, dlc := 8, data := [1, 2, 3, 4, 5, 6, 7, 8] }, tsc := 77, ph := 5 }

/-- `run` with the car-bus ports active and bindings made. -/
def bound (l : List (Nat × Bind)) : State := { run with can := { run.can with ports := run.can.ports.map fun c => { c with st := .active }, binds := l } }

/-- No tenant may use the regions. -/
def denied (s : State) : State := { s with home := { s.home with regions := s.home.regions.map fun e => (e.1, { e.2 with trd := 0, twr := 0 }) } }

/-- BIND_CAN of line 50001h. -/
def binding : Job := job 1 0x23 0x50001 [0, 0, 0, 0, 0x23, 1, 0, 0, 0, 8] 2048

/-- Port 1 bus-off. -/
def port1Off (s : State) : State := modPort 1 (fun c => { c with st := .busOff }) s

/-- All internal bobbins of port 0 taken. -/
def portTaken (s : State) : State := { s with ten := { s.ten with
  bobs := (List.range 12).map fun k => (k, { bob { job 1 5 0x50002 with tag := 0 } with kind := .bindWrite 9 }) } }

/-- A received frame waits for binding 3. -/
def rxWaits : State := bound [(3, { bnd 0 false 100 with wait := some canRx })]

/-- Transmit binding 5 of port 1 is pending. -/
def txPends (f : Bind → Bind := id) (s : State → State := id) : State := s (bound [(5, f { bnd 1 true 127 with pend := true, sub := true })])

theorem test_met_BindingCommands :
    (TaskJob (withBob (bob (job 1 0x23 0x60101 [3, 0, 0, 0, 0x23, 1, 0, 0, 0, 8] 2048)) run) 40 0x23 (bob (job 1 0x23 0x60101 [3, 0, 0, 0, 0x23, 1, 0, 0, 0, 8] 2048))
      ∧ (bindOf (job 1 0x23 0x60101 [3, 0, 0, 0, 0x23, 1, 0, 0, 0, 8])).tx = true ∧ homedHere run 0x60101 = false ∧ regionAt run 0x60101 = none
      ∧ (regionAt { run with home := { run.home with regions := [(0, region 0x60100 true .c1)] } } 0x60101).any (fun r => r.2.claim) = true)
    ∧ (bnd 0 false 100).ten = 1
    ∧ (copyOf (dropBind 3 (withCopy (copy 0x60101 .p) (bound [(3, { bnd 0 true 100 with la := 0x60101 })]))) 0x60101).any (fun c => c.2.st == .p) = true
    ∧ ((subsOf (subscribed [8]) 0x60101).contains 8 = true ∧ (subsOf (subscribed []) 0x60101).isEmpty = true)
    ∧ (tget rxWaits.can.binds 3 = some { bnd 0 false 100 with wait := some canRx }
      ∧ bindBlocked (bound [(2, { bnd 0 false 101 with wait := some { canRx with tsc := 70 } }), (3, { bnd 0 false 100 with wait := some canRx })]) 3
        { bnd 0 false 100 with wait := some canRx } canRx = true
      ∧ portBob (portTaken rxWaits) 0 = none)
    ∧ (maySend (port1Off (txPends)) 1 = false ∧ nextLoad (txPends fun e => { e with pend := false }) 1 = none
      ∧ (nextLoad (txPends fun e => { e with la := 0x60101 }) 1).isSome = true ∧ boundLine (txPends fun e => { e with la := 0x60101 }) 0x60101 = none
      ∧ (portBinds (txPends fun e => { e with sub := false }) 1).any (fun x => x.2.tx && !x.2.sub) = true)
    ∧ (queueMode (put (cbpBase 1 + 8) 1 (txPends fun e => { e with obj := 2 })) 1 = true
      ∧ 2 < (portOf (put (cbpBase 1 + 8) 1 (txPends id)) 1).qtx.length ∧ run.can.ports.length = 2
      ∧ (nextLoad (put (cbpBase 1 + 8) 0x20001 (txPends fun e => { e with obj := 2 })) 1).isSome = true)
    ∧
    (TaskJob (withBob (bob binding) run) 40 0x23 (bob binding) ∧ homedHere (withBob (bob binding) run) 0x50001 = true ∧ freeBind run = some 0
      ∧ (bindResource run (bindOf binding)).isSome = true
      ∧ bindResource (put (cbpBase 0 + 8) 1 run) (bindOf { binding with arg := [2, 0, 0, 0, 0x23, 1, 0, 0, 0, 8] }) = none)
    ∧ (TaskJob (cmd 0x24 [3, 0]) 40 0x24 (bob (job 1 0x24 0 [3, 0] 2048)) ∧ tget run.can.binds 3 = none
      ∧ tget (bound [(3, bnd 0 false 100)]).can.binds 3 = some (bnd 0 false 100))
    ∧ ((waitingFrame (bound [(3, { bnd 0 false 100 with wait := some canRx })]) 3 { bnd 0 false 100 with wait := some canRx }) = some canRx
      ∧ bindBlocked (bound [(3, { bnd 0 false 100 with wait := some canRx })]) 3 { bnd 0 false 100 with wait := some canRx } canRx = false
      ∧ tenMay run 0x50001 1 true = true ∧ tenMay (denied run) 0x50001 1 true = false
      ∧ (portBob (bound [(3, { bnd 0 false 100 with wait := some canRx })]) 0).isSome = true)
    ∧ (queueMode (bound [(5, { bnd 1 true 127 with pend := true, sub := true })]) 1 = false
      ∧ maySend (bound [(5, { bnd 1 true 127 with pend := true, sub := true })]) 1 = true
      ∧ (∀ x ∈ portBinds (bound [(5, { bnd 1 true 127 with pend := true, sub := true })]) 1, x.2.tx = true → x.2.sub = true)
      ∧ nextLoad (bound [(5, { bnd 1 true 127 with pend := true, sub := true })]) 1 = some (5, { bnd 1 true 127 with pend := true, sub := true })
      ∧ (boundLine (bound [(5, bnd 1 true 127)]) 0x50001).isSome = true ∧ tenMay (denied run) 0x50001 1 false = false) := by
  and_intros <;> first | exact taskJob_of (by decide +kernel) | decide +kernel

/-- `run` with port 0 on the bus, its object `k` set up: words CTL and STAT, and its mask. -/
def object (k ctl stat : Nat) (f : CanPort → CanPort := id) : State :=
  put (cbpBase 0 + 0x200 + 4 * k) 0x1FFFFFFF (modPort 0 (fun c => f { c with
    st := .active, mem := memPuts c.mem (64 * k) (leBytes 4 0x123 ++ leBytes 4 ctl ++ leBytes 4 stat) }) run)

/-- `run` with port 0 in queue mode, pair 0 accepting identifier 123h into queue 1. -/
def queued (f : CanPort → CanPort := id) : State :=
  put (cbpBase 0 + 8) 1 (put (cbpBase 0 + 0x200) (2 ^ 31 + 0x123) (put (cbpBase 0 + 0x204) (0x1FFFFFFF + 2 ^ 30)
    (modPort 0 (fun c => f { c with st := .active }) run)))

/-- A frame with identifier 123h. -/
def canFrame : CanFrame := { id := 0x123, dlc := 8, data := [1, 2, 3, 4, 5, 6, 7, 8] }

/-- `run` with a port in a state. -/
def port (f : CanPort → CanPort) (s : State := run) : State := modPort 0 f s

/-- `run` with port 0 on the bus in either mode, binding 3 receiving identifier 123h. -/
def onTheBus (q : Bool) : State := put (cbpBase 0 + 8) (b2n q) (bound [(3, bnd 0 false 100)])

theorem test_met_CarBusFrames : run.can.ports.length = 2
    ∧ (onBus (object 3 0x1100 0) 0 = true ∧ canFrame.fdf = false ∧ boundFor (object 3 0x1100 0) 0 canFrame = none ∧ queueMode (object 3 0x1100 0) 0 = false
      ∧ (List.range (poolBase (object 3 0x1100 0) 0)).find? (objMatch (object 3 0x1100 0) 0 canFrame) = some 3
      ∧ bitOf (objStat (object 3 0x1100 0) 0 3) 2 = false ∧ bitOf (objStat (object 3 0x1100 0) 0 3) 0 = false
      ∧ bitOf (objCtl (object 3 0x1100 0) 0 3) 12 = true)
    ∧ (List.range (poolBase (object 3 0x1100 0) 0)).find? (objMatch (object 3 0x1100 0) 0 { canFrame with id := 0x7FF }) = none
    ∧ (queueMode queued 0 = true ∧ (List.range (pairBase queued 0)).find? (pairMatch queued 0 canFrame) = some 0
      ∧ bitsOf (regCur queued (cbpBase 0 + 0x204 + 8 * 0)) 30 1 = 1 ∧ (portOf queued 0).rxq.length = 2
      ∧ ((portOf (queued fun c => { c with rxq := [(0, 0, false), (0, 32, false)] }) 0).rxq.getD 1 (0, 0, false)).2.1 = 32)
    ∧ ((portOf (object 127 0x1208 8 fun c => { c with sending := some 127 }) 0).sending = some 127)
    ∧ ((portOf (queued fun c => { c with sending := some 2, qtx := [0, 0, 1] }) 0).sending = some 2
      ∧ 2 < (portOf (queued fun c => { c with qtx := [0, 0, 1] }) 0).qtx.length)
    ∧ darOf (object 3 0x1608 8) 0 3 = true ∧ darOf (object 3 0x1208 8) 0 3 = false
    ∧ (onBus run 0 = false ∧ ({ canFrame with fdf := true } : CanFrame).fdf = true ∧ fdOn (put (cbpBase 0 + 8) 0 run) 0 = false ∧ onBus (put (cbpBase 0 + 8) 0 (port fun c => { c with st := .active })) 0 = true)
    ∧ (rbit (put (cbpBase 0) 16 (object 3 0x1100 0)) (cbpBase 0) 4 = true ∧ rbit (object 3 0x1100 0) (cbpBase 0) 4 = false)
    ∧ (boundFor (onTheBus false) 0 canFrame = some 100 ∧ rxBindsOf (onTheBus false) 0 100 = [(3, bnd 0 false 100)] ∧ canFrame.data ≠ []
      ∧ onBus (onTheBus false) 0 = true ∧ queueMode (onTheBus false) 0 = false ∧ queueMode (onTheBus true) 0 = true
      ∧ boundFor (onTheBus true) 0 canFrame = some 100 ∧ (portOf (onTheBus true) 0).bfifo.length < 16
      ∧ 16 ≤ (portOf (port (fun c => { c with bfifo := List.replicate 16 (9, canRx) }) (onTheBus true)) 0).bfifo.length
      ∧ (portOf (port (fun c => { c with bfifo := [(3, canRx)] }) (onTheBus true)) 0).bfifo.any (fun y => y.1 == 3) = true)
    ∧ (bitOf (objStat (object 3 0x1100 1) 0 3) 0 = true ∧ bitOf (objStat (object 3 0x1100 4) 0 3) 2 = true ∧ (portOf (object 3 0x1100 4) 0).shadow = none
      ∧ (List.range (poolBase (object 3 0x1100 4) 0)).find? (objMatch (object 3 0x1100 4) 0 canFrame) = some 3
      ∧ (portOf (object 3 0x1100 4 fun c => { c with shadow := some (3, canRx) }) 0).shadow ≠ none)
    ∧ ((List.range (pairBase queued 0)).find? (pairMatch queued 0 { canFrame with id := 0x7FF }) = none ∧ rfld queued (cbpBase 0 + 8) 3 2 ∉ [1, 2]
      ∧ rfld (put (cbpBase 0 + 8) 0x11 queued) (cbpBase 0 + 8) 3 2 = 1 + 1
      ∧ boundFor queued 0 { canFrame with id := 0x7FF } = none)
    ∧ (portOf run 0).sending = none ∧ (portOf (object 3 0x1208 8 fun c => { c with cancelAfter := true }) 0).cancelAfter = true := by decide +kernel

theorem test_met_CarBusStates : (onBus (port fun c => { c with st := .active }) 0 = true ∧ romOn run 0 = false ∧ (portOf run 0).sending = none)
    ∧ (portOf (port fun c => { c with st := .recovering }) 0).st = .recovering
    ∧ (reachable run = true ∧ gateShut run (cbpBase 0) = false ∧ gateShut run (cbpBase 1) = false)
    ∧ ((portOf (port fun c => { c with st := .busOff }) 0).st = .busOff ∧ rbit (put (cbpBase 0) 4 run) (cbpBase 0) 2 = true)
    ∧ rbit (put (cbpBase 0) 0 run) (cbpBase 0) 0 = false
    ∧ (rbit run (cbpBase 0) 0 = true ∧ (portOf run 0).st = .conf ∧ (portOf run 0).wasOff = false ∧ (∀ j < 3, rfld run (0x1060 + 4 * (3 * 0 + j)) 0 3 = 1))
    ∧ (∃ j < 3, rfld (put 0x1064 0 run) (0x1060 + 4 * (3 * 0 + j)) 0 3 ≠ 1)
    ∧ (List.range 64).any (fun i => bitTiming 0 (cbpBase 0 + 4 * i)) = true
    ∧ (portOf (port fun c => { c with confReq := true }) 0).confReq = true
    ∧ (portOf (port fun c => { c with st := .integrating }) 0).st = .integrating
    ∧ onBus run 0 = false
    ∧ ((portOf (port fun c => { c with st := .active, sending := some 3 }) 0).sending = some 3 ∧ onBus (port fun c => { c with st := .active, sending := some 3 }) 0 = true)
    ∧ (onBus (put (cbpBase 0) 2 (port fun c => { c with st := .rom })) 0 = true ∧ romOn (put (cbpBase 0) 2 (port fun c => { c with st := .rom })) 0 = true)
    ∧ ((portOf run 0).st ≠ .recovering ∧ (portOf run 0).confReq = false ∧ (portOf run 0).st ≠ .integrating ∧ (portOf run 0).st ≠ .busOff)
    ∧ darOf (object 3 0x1608 8) 0 3 = true
    ∧ ((List.range 64).any (fun i => !bitTiming 0 (cbpBase 0 + 4 * i)) = true) := by decide +kernel

theorem test_met_CarBusObjectCommands : (reachable run = true ∧ gateShut run (cbpBase 0) = false)
    ∧ (softObj (put (cbpBase 0 + 8) 0 (object 127 0x208 0)) 0 127 = true ∧ softObj (object 3 0x208 0) 0 3 = true ∧ (portOf run 0).shadow = none ∧ objType (object 3 0x208 0) 0 3 = 2
      ∧ bitOf (objStat (object 3 0x208 0) 0 3) 3 = false)
    ∧ (portOf (object 3 0x1100 4 fun c => { c with shadow := some (3, canRx) }) 0).shadow = some (3, canRx)
    ∧ (queueMode queued 0 = true ∧ softBuf queued 0 2 = true ∧ (portOf queued 0).qtx.getD 2 0 ≠ 1
      ∧ (portOf (queued fun c => { c with qtx := [0, 0, 1] }) 0).qtx.getD 2 0 = 1)
    ∧ (63 < 64 ∧ 0 < run.can.ports.length ∧ 1 < (portOf run 0).rxq.length)
    ∧ softObj (put (cbpBase 0 + 8) 1 run) 0 3 = false
    ∧ (objType (object 3 0x1100 0) 0 3 ≠ 2 ∧ bitOf (objStat (object 3 0x208 8) 0 3) 3 = true)
    ∧ (portOf (object 5 0x1100 4 fun c => { c with shadow := some (3, canRx) }) 0).shadow = some (3, canRx)
    ∧ queueMode (object 3 0x208 0) 0 = false := by decide +kernel

/-- WAIT_PHASE's state: bobbin 40 waits for the phase. -/
def waiting (due : Word) : State := withBob { bob (job 1 0x31 0 [0, 0, 0, 0, 0, 0, 0, 0, 0] 32) with wait := .phase, due := due } run

theorem test_met_TimeCommands : readyJob (cmd 0x30 []) 40 0x30 = some (bob (job 1 0x30 0 [] 2048))
    ∧ (readyJob (cmd 0x31 [0, 0, 1, 0, 100, 0, 0, 0, 0]) 40 0x31 = some (bob (job 1 0x31 0 [0, 0, 1, 0, 100, 0, 0, 0, 0] 2048))
      ∧ begun (hoopOf run false) 100 = true ∧ begun (hoopOf run true) 101 = false)
    ∧ (bobOf (waiting 100) 40).any (fun v => v.wait == .phase && v.job.op == 0x31 && phaseReached (waiting 100) v) = true
    ∧ (bobOf (waiting 105) 40).any (fun v => !phaseReached (waiting 105) v) = true ∧ run.dbg.halted = false
    ∧ readyJob (cmd 0x34 [2, 1, 1, 5, 9]) 40 0x34 = some (bob (job 1 0x34 0 [2, 1, 1, 5, 9] 2048))
    ∧ (reachable run = true ∧ (1 : Word).getLsbD 0 = true)
    ∧ (begun (hoopOf run false) 101 = false ∧ (run.dbg.halted = false ∧ ({ run with dbg := { run.dbg with halted := true } } : State).dbg.halted = true))
    ∧ (bobOf (cmd 0x31 []) 40).any (fun v => v.wait != .phase) = true
    ∧ reachable off = false ∧ (0 : Word).getLsbD 0 = false := by decide +kernel

/-- `run` with picot channel `n` changed, on a pin connected to it. -/
def channel (n : Nat) (f : PicotCh → PicotCh) : State :=
  modCh n f { run with dev := { run.dev with pins := tset run.dev.pins n (1, true, 0, false) } }

/-- A capture channel with `k` records in its FIFO. -/
def capturing (n k : Nat) (capev : Bool) : State := channel n fun c => { c with
  par := { c.par with mode := 4, edges := 3, capev := capev }
  fifo := List.replicate k { phase := 1, hoop := 2, pol := false, ord := false, virt := false, tb := false } }

theorem test_met_PicotChannels :
    (readyJob (cmd 0x32 [3, 2, 1, 0]) 40 0x32 = some (bob (job 1 0x32 0 [3, 2, 1, 0] 2048)) ∧ (chOf run 3).arm = none
      ∧ (chOf (channel 3 fun c => { c with arm := some (41, {}, 103, 5) }) 3).arm = some (41, {}, 103, 5))
    ∧ (readyJob (cmd 0x33 [3, 1]) 40 0x33 = some (bob (job 1 0x33 0 [3, 1] 2048)) ∧ run.dbg.halted = false ∧ (chOf run 3).cancel = none)
    ∧ outMode (chOf (channel 23 fun c => { c with par := { c.par with mode := 1 } }) 23).par = true
    ∧ ((chOf (capturing 23 15 false) 23).par.mode = 4 ∧ bitOf (chOf (capturing 23 15 false) 23).par.edges 1 = true
      ∧ pinFunc (capturing 23 15 false) 23 = 1 ∧ pinParked (capturing 23 15 false) 23 = false ∧ (chOf (capturing 23 15 false) 23).fifo.length < 16)
    ∧ 16 ≤ (chOf (capturing 0 16 false) 0).fifo.length ∧ (chOf (capturing 0 0 true) 0).par.capev = true
    ∧ ((1 : Word).getLsbD 0 = true ∧ reachable run = true ∧ gateShut run (0x3100 + 0x20 * 23) = false)
    ∧ ({ run with dbg := { run.dbg with halted := true } } : State).dbg.halted = true
    ∧ (readyJob { cmd 0x33 [3, 0] with dbg := { run.dbg with halted := true } } 40 0x33).isSome = true
    ∧ readyJob (cmd 0x33 [3, 0]) 40 0x33 = some (bob (job 1 0x33 0 [3, 0] 2048))
    ∧ (chOf (channel 3 fun c => { c with cancel := some 41 }) 3).cancel = some 41
    ∧ (outMode (chOf run 0).par = false ∧ (0 : Word).getLsbD 0 = false ∧ reachable off = false)
    ∧ run.tm.master = false := by decide +kernel

/-- A REFERENCE of a higher rank than any followed, with TRUE and ORIGIN to go with it. -/
def ref : RefMsg := { tier := 0, masterHk := 8, nrow := 0, locked := true, row := 3, rank := 0, period := 80000000, hoop := 100 }

def refTrue : TrueMsg := { tvalid := true, tperiod := 80000000 }
def refOrigin : OriginMsg := { yvE1 := true, yvE2 := true, yE1 := 100, yE2 := 5000 }

/-- `run` with its time changed. -/
def timing (f : TimeSt → TimeSt) : State := { run with tm := f run.tm }

theorem test_met_TimeFollowsTheReference : (pathDelay run .a .e1 .e2 refOrigin).isSome = true ∧ pathDelay run .a .e1 .e2 {} = none
    ∧ refBad run ref refTrue = false ∧ refBad run { ref with nrow := 3 } refTrue = true ∧ canFollow run = true ∧ mayUse run ref = true
    ∧ mayUse (timing fun t => { t with mHk := 3, mRank := 0, mTier := 0, following := true, usedInRow := true }) { ref with masterHk := 9, rank := 4 } = false
    ∧ ((timing fun t => { t with tstate := .acquire, jammed := false }).tm.tstate = .acquire ∧ (timing fun t => { t with jammed := false }).tm.jammed = false)
    ∧ (run.tm.master = false ∧ run.tm.usedInRow = false ∧ run.tm.tstate = .sync ∧ run.tm.miss = 0)
    ∧ (1 ≤ (timing fun t => { t with miss := 1 }).tm.miss)
    ∧ (rfld run 0x2000 10 4 * 8000000000 ≤ (timing fun t => { t with tstate := .holdover, holdClk := 0 }).tm.clk - 0)
    ∧ (8000000000 ≤ (timing fun t => { t with tvalid := false, tlossClk := 0 }).tm.clk - 0 ∧ run.tm.virt = false)
    ∧ (countsMatch (countAt run.tm.hoop (rowPhase (putPeriod ref.period run)) 0) (refPoint { ref with hoop := 107 } refTrue 5000).row = false
      ∧ refStep run false false 0 = .jam ∧ refStep run true true 8001 = .jam ∧ refStep run true false 8001 = .steer false
      ∧ refStep (timing fun t => { t with tstate := .acquire, jammed := true, good := 7 }) true false 8000 = .steer true
      ∧ refStep (timing fun t => { t with tstate := .acquire, jammed := true, good := 6 }) true false 8000 = .steer false
      ∧ refStep (timing fun t => { t with tstate := .free }) true false 0 = .none)
    ∧ canFollow { run with dev := { run.dev with st := .standby } } = false ∧ (timing fun t => { t with master := true }).tm.master = true
    ∧ run.tm.tstate ≠ .holdover ∧ (timing fun t => { t with tvalid := true }).tm.tvalid = true := by decide +kernel

/-- `run` with the zero-cross inputs enabled and all in one state. -/
def zero (f : ZxIn → ZxIn) : State := put 0x2034 7 { run with zx := { run.zx with ins := run.zx.ins.map f } }

theorem test_met_LocalSourcesAreMeasured : run.zx.ins.length = 3 ∧ zxOn (put 0x2034 1 run) 2 = false ∧ zxOn (zero id) 2 = true
    ∧ tooSoon { run with zx := { run.zx with period := 400 } } (some (10 ^ 12 - 100)) (10 ^ 12) = true
    ∧ (((zero id).zx.ins.getD 2 {}).level = !true
      ∧ tooSoon (zero id) ((zero id).zx.ins.getD 2 {}).rise ((zero id).tm.clk - rfld (zero id) 0x2034 8 8 * 8000) = false)
    ∧ (((zero fun x => { x with missing := false, period := 1000, rise := some 5 }).zx.ins.getD 0 {}).missing = false
      ∧ 3 * 1000 ≤ (zero id).tm.clk - 5)
    ∧ (reachable run = true ∧ enabled (put (tenBase 0 + 0x1C00) 1 run) 0 = true ∧ rfld (put 0x2060 0 run) 0x2060 0 3 = 0
      ∧ ({ run with zx := { run.zx with strobe := some (10 ^ 12 - 5, 3) } } : State).zx.strobe = some (10 ^ 12 - 5, 3)
      ∧ run.tm.clk - (10 ^ 12 - 5) ≤ hoopUnits run.tm.tperiod ∧ hoopUnits run.tm.tperiod < run.tm.clk - 5)
    ∧ ctcConnected run = false
    ∧ (List.range 30).any (fun k => (List.range 8).any fun f => ctcConnected { run with dev := { run.dev with pins := [(k, f, true, 0, false)] } }) = true
    ∧ ((zero fun x => { x with missing := true }).zx.ins.getD 0 {}).missing = true
    ∧ (∀ k < 3, k ≠ 1 → zxOn (zero fun x => { x with missing := true }) k = true → ((zero fun x => { x with missing := true }).zx.ins.getD k {}).missing = true)
    ∧ (enabled (put (tenBase 0 + 0x1C00) 0 run) 0 = false ∧ run.zx.strobe = none ∧ rfld (put 0x2060 1 run) 0x2060 0 3 ≠ 0) := by
  decide +kernel


/-- `runPat` with pricking 1 in slot 2. -/
def twoPats : State := { runPat with
  kee := { runPat.kee with mem := runPat.kee.mem ++ ((prick 1).zipIdx 0x6000).filterMap fun e => if e.1 = 0 then none else some (e.2, e.1) }
  pat := { runPat.pat with slots := [{ valid := true }, {}, { valid := true }, {}] } }

/-- LOAD_PRICKING of slot 1, its pricking of `len` bytes read. -/
def loading (len : Nat) (s : State) : Bobbin × State :=
  let v := { bob (job 1 0x46 0 [1, 0, 0, 0, BitVec.ofNat 8 len, 0, 0, 0] 2048) with par := 10, out := prick 1 }
  (v, withBob v s)

theorem test_met_TrainCommands : TaskJob (cmd 0x40 []) 40 0x40 (bob (job 1 0x40 0 [] 2048)) ∧ TaskJob (cmd 0x44 []) 40 0x44 (bob (job 1 0x44 0 [] 2048))
    ∧ TaskJob (cmd 0x43 []) 40 0x43 (bob (job 1 0x43 0 [] 2048))
    ∧ (readyJob (cmd 0x41 []) 40 0x41 = some (bob (job 1 0x41 0 [] 2048)) ∧ standby.dev.st = .standby ∧ run.dev.st = .run
      ∧ run.trn.isoRestarts = false ∧ inaugNow run = false)
    ∧ (TaskJob (cmd 0x42 [1] runPat) 40 0x42 (bob (job 1 0x42 0 [1] 2048)) ∧ run.trn.memb = .member
      ∧ run.pat.props.any (fun p => p.bob.isSome && p.target < 4) = false ∧ run.pat.cur = 0 ∧ timed run = true
      ∧ targetReason run 2 (word (slotDigest run 2)) ≠ 0)
    ∧ checkPrick (prick 1) 1 248 = 0 ∧ checkPrick (prick 1) 1 247 ≠ 0
    ∧ (TaskJob (cmd 0x45 [2]) 40 0x45 (bob (job 1 0x45 0 [2] 2048)) ∧ run.trn.holders.getD 2 0 = run.trn.node
      ∧ run.trn.holders.getD 3 0 ≠ run.trn.node ∧ rfld (put 0x7004 0xFFFFFF run) 0x7004 (4 * (7 - 2)) 4 ≠ 0)
    ∧ (TaskJob (withBob { bob (job 1 0x46 0 [2, 0, 0, 0, 248, 0, 0, 0] 2048) with par := 10 } run) 40 0x46
        { bob (job 1 0x46 0 [2, 0, 0, 0, 248, 0, 0, 0] 2048) with par := 10 }
      ∧ slotInUse run 2 = false ∧ slotInUse run 0 = true ∧ (writing (.steward 8 []) 8 false).kee.cur ≠ none)
    ∧ (readyJob (cmd 0x41 [] { run with trn := { run.trn with isoRestarts := true } }) 40 0x41).isSome = true
    ∧ (inaugNow (train fun t => { t with call := some 0 }) = true ∧ (train id .acquire).dev.st = .acquire ∧ (train id .inaug).dev.st = .inaug)
    ∧ (TaskJob (cmd 0x42 [1] standby) 40 0x42 (bob (job 1 0x42 0 [1] 2048)) ∧ TaskJob (cmd 0x42 [1] (train id .inaug)) 40 0x42 (bob (job 1 0x42 0 [1] 2048))
      ∧ ¬((train (fun t => { t with memb := .listenOnly })).dev.st = .run ∧ (train (fun t => { t with memb := .listenOnly })).trn.memb = .member))
    ∧ (({ run with pat := { run.pat with props := [{ proposer := 2, digest := 0, hoop := 104, target := 1, bob := some 33 }] } } : State).pat.props.any
        (fun p => p.bob.isSome && p.target < 4) = true
      ∧ timed (timing fun t => { t with tstate := .acquire }) = false
      ∧ (TaskJob (cmd 0x42 [2] twoPats) 40 0x42 (bob (job 1 0x42 0 [2] 2048)) ∧ targetReason twoPats 2 (word (slotDigest twoPats 2)) = 0))
    ∧ (TaskJob (cmd 0x45 [2] standby) 40 0x45 (bob (job 1 0x45 0 [2] 2048)) ∧ TaskJob (cmd 0x45 [2] (train id .inaug)) 40 0x45 (bob (job 1 0x45 0 [2] 2048))
      ∧ TaskJob (cmd 0x45 [3]) 40 0x45 (bob (job 1 0x45 0 [3] 2048)) ∧ rfld (put 0x7004 0 run) 0x7004 (4 * (3 - 2)) 4 = 0
      ∧ rfld (put 0x7004 0xFFFFFF run) 0x7004 (4 * (3 - 2)) 4 ≠ 0 ∧ run.trn.node = 2)
    ∧ (TaskJob (loading 248 runPat).2 40 0x46 (loading 248 runPat).1 ∧ slotInUse (loading 248 runPat).2 1 = false
      ∧ loadCheck (loading 248 runPat).2 (prick 1) 1 248 = 0 ∧ loadCheck (loading 247 runPat).2 (prick 1) 1 247 ≠ 0
      ∧ (loading 248 runPat).2.kee.cur = none ∧ (bob (job 1 0x46 0 [1])).par ≠ 10) := by
  and_intros <;> first | exact taskJob_of (by decide +kernel) | decide +kernel

theorem test_met_HealthCommands : TaskJob (cmd 0x50 [0, 0, 1, 0, 1]) 40 0x50 (bob (job 1 0x50 0 [0, 0, 1, 0, 1] 2048))
    ∧ TaskJob (cmd 0x51 [2, 0]) 40 0x51 (bob (job 1 0x51 0 [2, 0] 2048)) ∧ TaskJob (cmd 0x52 [0, 2, 1]) 40 0x52 (bob (job 1 0x52 0 [0, 2, 1] 2048))
    ∧ (TaskJob (cmd 0x53 [10, 2]) 40 0x53 (bob (job 1 0x53 0 [10, 2] 2048)) ∧ detSafe 10 = true ∧ rbit run 0xC014 0 = false ∧ run.dev.st ≠ .standby)
    ∧ ((List.range 48).any (fun d => !detSafe d) = true ∧ rbit injecting 0xC014 0 = true)
    ∧ TaskJob (cmd 0x54 [2]) 40 0x54 (bob (job 1 0x54 0 [2] 2048)) ∧ TaskJob (cmd 0x54 [1] standby) 40 0x54 (bob (job 1 0x54 0 [1] 2048))
    ∧ TaskJob (cmd 0x55 []) 40 0x55 (bob (job 1 0x55 0 [] 2048)) ∧ TaskJob (cmd 0x56 [1]) 40 0x56 (bob (job 1 0x56 0 [1] 2048))
    ∧ TaskJob (cmd 0x57 [1, 2, 3, 4]) 40 0x57 (bob (job 1 0x57 0 [1, 2, 3, 4] 2048))
    ∧ (bitOf (argB (job 1 0x54 0 [2]) 0) 1 = true ∧ bitOf (argB (job 1 0x54 0 [1]) 0) 1 = false ∧ bitOf (argB (job 1 0x54 0 [0]) 0) 0 = false ∧ standby.dev.st ≠ .run) := by
  and_intros <;> first | exact taskJob_of (by decide +kernel) | decide +kernel

/-- `s` with tenant `n` enabled, its rings under TEN_RCTL `v`. -/
def rings (n v : Nat) (f : Ten → Ten := id) (s : State := run) : State :=
  put (tenBase n + 0x200) v (put (tenBase n + 0x1C00) 1
    (modTen n (fun t => f { t with mse := true, msixEn := true, vecMask := 0 }) { s with ten := { s.ten with vfEn := true, linkUp := true } }))

/-- One entry of a send queue: opcode and flags. -/
def sqEntry (op fl : Nat) : List Byte := leBytes 1 op ++ leBytes 1 fl ++ leBytes 62 7

/-- Tenant 1 has one entry, fetched. -/
def oneJob (op fl : Nat) : State := rings 1 0x111 fun t => { t with sqTail := 1, fetched := [(0, sqEntry op fl)] }

/-- A command that waits, with a timeout. -/
def timed1 (tmo acc : Nat) (w : BWait) : State := withBob { bob { job 1 1 0x60001 with tmo := tmo } with wait := w, accClk := acc } run

theorem test_met_RingsAndFetching : run.ten.tens.length = 8 ∧ doorsOpen run 7 = false ∧ doorsOpen (rings 3 0x111) 3 = true
    ∧ (rbit (rings 3 0x111) (tenBase 3 + 0x200) 1 = false ∧ bitsOf (0x0FFF : Word).toNat 12 2 = 0 ∧ (tenOf (rings 3 0x111) 3).dmaErr = false)
    ∧ (rbit (rings 3 0x113) (tenBase 3 + 0x200) 1 = true ∧ isSpi (rings 3 0x113) 3 = false ∧ dmaFull (rings 3 0x113) = false
      ∧ cqFull (rings 3 0x113 fun t => { t with cqTail := 15 }) 3 = true)
    ∧ (enabled (rings 3 0) 3 = true ∧ reachable (rings 3 0) = true ∧ gateShut (rings 3 0) (tenBase 3 + 0x200) = false ∧ ringEn (rings 3 0) 3 = false
      ∧ (tenOf (rings 3 0) 3).rst = false ∧ (1 : Word).getLsbD 0 = true)
    ∧ ((tenOf (rings 3 0 fun t => { t with oldest := some 5 }) 3).oldest = some 5 ∧ rfld (put (tenBase 3 + 0x220) 0xFFFF00 run) (tenBase 3 + 0x220) 8 16 ≠ 0
      ∧ rfld (put (tenBase 3 + 0x220) 0xFFFF00 run) (tenBase 3 + 0x220) 8 16 * 8000 ≤ run.tm.clk - 5)
    ∧ ((oneJob 0x57 3).ten.cmds = [] ∧ canFetch (oneJob 0x57 3) 1 = true ∧ headChain (oneJob 0x57 3) 1 = .job [sqEntry 0x57 3]
      ∧ freeIn (oneJob 0x57 3) 32 480 = some 32 ∧ (∀ m < 8, m ≠ 1 → canFetch (oneJob 0x57 3) m = false))
    ∧ (opcodeOk (jobOf (oneJob 0xEE 3) 1 [sqEntry 0xEE 3]).op = false ∧ chainOk [sqEntry 0xEE 3] (jobOf (oneJob 0xEE 3) 1 [sqEntry 0xEE 3]) = true)
    ∧ (tget ({ run with ten := { run.ten with dma := [(3, .sq 7 15 1)] } } : State).ten.dma 3 = some (.sq 7 15 1)
      ∧ (∀ e ∈ run.ten.bobs, e.2.wait ≠ .dma) ∧ (∀ e ∈ run.ten.tens, e.idxPend = false))
    ∧ ((bobOf (timed1 1 5 .sync) 40).any (fun v => hasTmo v && decide (tmoUnits v ≤ run.tm.clk - 5)) = true ∧ irreversible (timed1 1 5 .sync) 40 = false)
    ∧ (bobOf (timed1 60000 (10 ^ 12 - 1) .answer) 40).any (fun v => hasTmo v && decide (run.tm.clk - (10 ^ 12 - 1) < tmoUnits v)) = true
    ∧ (doorsOpen (rings 3 0x113) 3 = true ∧ dmaFull (rings 3 0x113) = false ∧ cqFull (rings 3 0x113) 3 = false ∧ enabled (put (tenBase 3 + 0x1C00) 0 run) 3 = false)
    ∧ (run.tm.clk - (10 ^ 12 - 1) < rfld (put (tenBase 3 + 0x220) 0xFFFF00 run) (tenBase 3 + 0x220) 8 16 * 8000 ∧ (tenOf run 3).oldest = none)
    ∧ ((∀ m < 8, canFetch run m = false) ∧ run.ten.cmds = [] ∧ canFetch run 3 = false)
    ∧ ((opcodeOk (jobOf (oneJob 0x57 3) 1 [sqEntry 0x57 3]).op = true) ∧ tget run.ten.dma 3 = none ∧ bobOf run 40 = none)
    ∧ (hasTmo { bob (job 1 1 0) with kind := .intern } = false ∧ (bobOf (timed1 1 5 .cqFull) 40).any (fun v => v.wait == .cqFull) = true
      ∧ (bobOf (timed1 1 5 .dma) 40).any (fun v => v.wait == .dma && decide (v.par < 4)) = true
      ∧ irreversible { timed1 1 5 .phase with pat := { run.pat with props := [{ proposer := 2, digest := 0, hoop := 104, target := 1, bob := some 40, sent := true }] } } 40 = true
      ∧ (bobOf (timed1 1 5 .state) 40).any (fun v => v.wait != .cqFull && v.wait != .dma) = true) := by
  decide +kernel

theorem test_met_TenantResetsAndFunctions : run.ten.tens.length = 8 ∧ reachable run = true ∧ gateShut run (tenBase 7 + 0x1C00) = false
    ∧ ((2 : Word).getLsbD 1 = true ∧ tenEn (rings 3 0x111) 3 = true ∧ (0 : Word).getLsbD 0 = false ∧ (1 : Word).getLsbD 1 = false)
    ∧ ((tenOf (rings 3 0x111 fun t => { t with rst := true, rstRow := 997 }) 3).rst = true
      ∧ (tenOf (rings 3 0x111 fun t => { t with rst := true, rstRow := 997 }) 3).rstRow + 3 ≤ run.tm.rows ∧ run.dev.st ≠ .inaug
      ∧ jobsOf (rings 3 0x111 fun t => { t with rst := true, rstRow := 997 }) 3 = [] ∧ jobsOf (cmd 0x57 []) 1 ≠ [])
    ∧ ((rings 3 0).ten.vfEn = true ∧ isSpi (rings 3 0) 3 = false ∧ (rings 3 0).ten.linkUp = true ∧ run.ten.linkUp = false)
    ∧ ((tenOf (rings 3 0 fun t => { t with gapEvt := 0x80 }) 3).gapEvt.getLsbD 7 = true ∧ (tenOf run 3).gapEvt.getLsbD 7 = false
      ∧ fnLive (rings 3 0) 3 = true ∧ (tenOf (rings 3 0) 3).msixEn = true ∧ (tenOf (rings 3 0) 3).fnMask = false
      ∧ (tenOf (rings 3 0) 3).vecMask.getLsbD 7 = false ∧ (rings 3 0).ten.noCredit = false)
    ∧ ((3 : Word).getLsbD 1 = true ∧ (1 : Word).getLsbD 0 = true ∧ tenEn run 3 = false ∧ (tenOf run 3).rst = false)
    ∧ ((rings 3 0x111 fun t => { t with rst := true, rstRow := 998 }).tm.rows < (tenOf (rings 3 0x111 fun t => { t with rst := true, rstRow := 998 }) 3).rstRow + 3
      ∧ (tenOf (rings 3 0x111 fun t => { t with rst := true, rstResume := true }) 3).rstResume = true
      ∧ jobsOf (modTen 1 (fun t => { t with rst := true }) (cmd 0x57 [])) 1 ≠ [] ∧ (tenOf (modTen 1 (fun t => { t with rst := true }) (cmd 0x57 [])) 1).rst = true)
    ∧ (run.ten.vfEn = false ∧ ({ spi with ten := { spi.ten with vfEn := true } } : State).ten.vfEn = true ∧ isSpi spi 7 = true) := by decide +kernel

/-- A line message from node 3 for this node. -/
def rx (typ : MsgType) (la : Nat) (flg : BitVec 3 := 0) (param : Word := 5) : Rx :=
  { src := 3, srcHk := 6, msg := { typ := typ, cls := .c1, dst := 2, trk := 33, ten := 1, la := la, data := 0x99, version := 9, param := param, flg := flg } }

/-- `run` in INAUG before Freeze, with `k` entries in the replay table. -/
def inInaug (k : Nat) : State := { gated .inaug .member with home := { run.home with
  replay := (List.range k).map fun i => { key := { hk := 9, ten := i % 8, trk := i }, la := 0x50001, version := 1, c0 := false } } }

theorem test_met_HomeTakesRequests : onTrain standby = false ∧ homedHere run 0x60101 = false
    ∧ AtHome run (rx .rdShared 0x5FFFF) ∧ regionAt run 0x5FFFF = none ∧ AtHome run (rx .wrPublish 0x5003F)
    ∧ (regionAt run 0x5003F = some (0, region 0x50000 false .c2) ∧ needsRwr .rdShared = false ∧ needsRwr .wrPublish = true
      ∧ ({ region 0x50000 false .c2 with rwr := false } : Region).rwr = false ∧ listenDenies .wrPublish = true ∧ listenDenies .writeback = false
      ∧ (gated .run .listenOnly).trn.memb = .listenOnly)
    ∧ ((∀ t ∈ run.home.trks, t.la = 0x50101 → t.isRecall = true → hasNode t.awaited 3 = false) ∧ tooLate run .wrPublish = false
      ∧ tooLate { gated .inaug .member with trn := { run.trn with frozen := true } } .wrPublish = true)
    ∧ AtHome (inInaug 1024) (rx .wrPublish 0x50001) ∧ replayFull (inInaug 1024) .c0 .wrPublish = true ∧ replayFull (inInaug 1023) .c0 .wrPublish = false
    ∧ replayFull (inInaug 768) .c2 .wrPublish = true
    ∧ (replayFull run .c2 .rdShared = false ∧ (takeTrk run .c2 false).isSome = true)
    ∧ takeTrk { run with home := { run.home with q0 := 832 } } .c1 false = none := by
  and_intros <;> first | exact ⟨by decide +kernel, by decide +kernel, by decide +kernel, by decide +kernel⟩ | decide +kernel

/-- The premises of a plain request at the home. -/
theorem workedNow_of {s : State} {r : Rx} {rg : Region} (h : AtHome s r)
    (h0 : frozen s = false) (h1 : s.dev.st = .run ∧ s.trn.memb = .member ∧ r.src ≠ 0 ∧ (regionAt s r.msg.la).map (·.2) = some rg ∧ rg.rrd = true ∧ rg.rwr = true)
    (h2 : (takeTrk s rg.cls false).isSome = true ∧ r.msg.elder = false ∧ hasFifo s r.msg.la = false
      ∧ ((homeLine s r.msg.la).orphan = false ∧ (homeLine s r.msg.la).errData = false ∧ (homeLine s r.msg.la).metaLost = false
        ∧ (homeLine s r.msg.la).lost = false) ∧ (homeLine s r.msg.la).key ≠ some { hk := r.srcHk, ten := r.msg.ten, trk := r.msg.trk })
    (h3 : r.msg.replay = false ∧ leaseOn s r.msg.la = none ∧ (r.msg.la, r.src, r.msg.ten) ∉ s.home.brokenAt ∧ isMirrored s r.msg.la = false
      ∧ s.trn.migOut = []) : WorkedNow s r rg :=
  { toAtHome := h, thawed := h0, run := h1.1, member := h1.2.1, source := h1.2.2.1, region := h1.2.2.2.1, reads := h1.2.2.2.2.1, writes := h1.2.2.2.2.2
    tracker := h2.1, young := h2.2.1, alone := h2.2.2.1, plain := h2.2.2.2.1, newKey := h2.2.2.2.2, replay := h3.1, lease := h3.2.1
    broken := h3.2.2.1, mirror := h3.2.2.2.1, moving := h3.2.2.2.2 }

/-- `run` with a filter entry for line 50101h. -/
def filtered (e : FEntry) : State := { run with home := { run.home with filter := [(0x101, e)] } }

theorem test_met_HomeWorksRequests : WorkedNow run (rx .wrPublish 0x50001) (region 0x50000 false .c2)
    ∧ WorkedNow run (rx .atomicReq 0x5003F) (region 0x50000 false .c2) ∧ (region 0x50000 false .c2).claim = false
    ∧ (atomicLine (homeLine run 0x5003F).data (0 : Word) (0x99 : Line)).2.2 = false
    ∧ WorkedNow run (rx .subReq 0x50001) (region 0x50000 false .c2) ∧ fEntry run 0x50001 = none ∧ (fSet run (xOf 0x50001 % 1024)).length < 12
    ∧ WorkedNow run (rx .rdOwn 0x50101) (region 0x50100 true .c1) ∧ fEntry run 0x50101 = none ∧ (region 0x50100 true .c1).claim = true
    ∧ WorkedNow (filtered { st := .ex, vec := nodeBit 3 }) (rx .writeback 0x50101) (region 0x50100 true .c1)
    ∧ (fEntry (filtered { st := .ex, vec := nodeBit 3 }) 0x50101).any (fun e => e.st == .ex && hasNode e.vec 3 && !e.anchor) = true
    ∧ ((region 0x50100 true .c1).cls ≠ .c0 ∧ run.home.leases.length < 64)
    ∧ WorkedNow run (rx .unsubReq 0x50001) (region 0x50000 false .c2) ∧ WorkedNow run (rx .rdShared 0x5003F) (region 0x50000 false .c2)
    ∧ WorkedNow run (rx .lockReq 0x50101) (region 0x50100 true .c1) ∧ WorkedNow run (rx .unlockReq 0x50101) (region 0x50100 true .c1)
    ∧ WorkedNow run (rx .evictClean 0x50101) (region 0x50100 true .c1) ∧ (fSet run (xOf 0x50101 % 1024)).length < 12 := by
  and_intros <;> first
    | exact workedNow_of ⟨by decide +kernel, by decide +kernel, by decide +kernel, by decide +kernel⟩ (by decide +kernel) (by decide +kernel) (by decide +kernel)
        (by decide +kernel)
    | decide +kernel

/-- A bobbin of tenant 1 that waits for the answer to request `t` on line 60101h. -/
def asking (t : MsgType) (op : Nat) (claim : Bool) : Bobbin := { lineBob op 0x60101 claim with
  wait := .answer, req := some { typ := t, la := 0x60101, trk := 40, ten := 1, param := 7 } }

/-- A line message from node 1 to bobbin 40. -/
def answer (typ : MsgType) (flg : BitVec 3 := 0) (param : Word := 3) : Rx :=
  { src := 1, srcHk := 4, msg := { typ := typ, cls := .c1, dst := 2, trk := 40, ten := 1, la := 0x60101, data := 0x99, version := 10, param := param, flg := flg } }

/-- `run` with a waiting bobbin and a copy. -/
def asked (v : Bobbin) (c : Option CState) : State := withBob v (match c with
  | some st => withCopy { copy 0x60101 st with bob := some 40 }
  | none => run)

theorem test_met_RequesterTakesAnswers : forNode standby (answer .ack) = false
    ∧ (forNode (withCopy (copy 0x60101 .p)) (answer .update) = true ∧ (copyOf (withCopy (copy 0x60101 .p)) 0x60101).isSome = true
      ∧ newer 10 (copy 0x60101 .p).version = true ∧ newer 9 (copy 0x60101 .p).version = false)
    ∧ (forNode (asked (asking .readHome 1 false) none) (answer .dataShared 4) = true
      ∧ ansBob (asked (asking .readHome 1 false) none) (answer .dataShared 4).msg = some (asking .readHome 1 false)
      ∧ copyOf (asked (asking .readHome 1 false) none) 0x60101 = none)
    ∧ (ansBob (asked (asking .rdShared 1 true) (some .is)) (answer .dataShared).msg = some (asking .rdShared 1 true)
      ∧ (copyOf (asked (asking .rdShared 1 true) (some .is)) 0x60101).any (fun e => e.2.st == .is && e.2.bob == some 40 && !e.2.inval) = true)
    ∧ ansBob (asked (asking .rdOwn 4 true) (some .im)) (answer .dataOwn).msg = some (asking .rdOwn 4 true)
    ∧ ansBob (asked (asking .ownNodata 4 true) (some .sm)) (answer .grantOwn).msg = some (asking .ownNodata 4 true)
    ∧ (ansBob (asked (asking .wrPublish 4 false) none) (answer .ack).msg = some (asking .wrPublish 4 false)
      ∧ reqType (asking .wrPublish 4 false) = some .wrPublish ∧ (answer .ack 0 0).msg.param.toNat % 256 ≠ stReplayed)
    ∧ ansBob (asked (asking .rdOwn 4 true) (some .im)) (answer .nakRetry).msg = some (asking .rdOwn 4 true)
    ∧ ansBob (asked (asking .atomicReq 10 false) none) (answer .atomicResult).msg = some (asking .atomicReq 10 false)
    ∧ ansBob (asked (asking .lockReq 11 false) none) (answer .leaseGrant).msg = some (asking .lockReq 11 false)
    ∧ ansBob (asked (asking .lockReq 11 false) none) (answer .leaseBreak 1).msg = some (asking .lockReq 11 false)
    ∧ (copyState (asked (asking .subReq 13 false) (some .ip)) 0x60101 = .ip ∧ copyState run 0x60101 ≠ .ip ∧ (answer .update).msg.cls ≠ .c0
      ∧ (copyOf (withCopy { copy 0x60101 .p with stale := true }) 0x60101).any (fun e => e.2.stale && e.2.version == 9) = true)
    ∧ (forNode run { answer .dataShared with msg := { (answer .dataShared).msg with dst := 63 } } = true ∧ (answer .dataShared 2).msg.flg.getLsbD 1 = true
      ∧ (answer .dataShared 4).msg.flg.getLsbD 1 = false ∧ (answer .dataShared 4).msg.dst ≠ 63 ∧ ansBob run (answer .ack).msg = none)
    ∧ ((answer .leaseBreak 1).msg.flg.getLsbD 0 = true ∧ (answer .leaseBreak).msg.flg.getLsbD 0 = false)
    ∧ (copyOf (asked (asking .rdShared 1 true) none) 0x60101 = none
      ∧ (copyOf (withBob (asking .rdShared 1 true) (withCopy { copy 0x60101 .is with bob := some 40, inval := true })) 0x60101).any (·.2.inval) = true)
    ∧ ((copyOf (asked (asking .rdOwn 4 true) (some .im)) 0x60101).any (fun e => e.2.st == .im && e.2.bob == some 40) = true
      ∧ (copyOf (asked (asking .ownNodata 4 true) (some .sm)) 0x60101).any (fun e => e.2.st == .sm && e.2.bob == some 40) = true
      ∧ (asked { asking .ownNodata 7 true with req := some { typ := .ownNodata, flg := 1, la := 0x60101, trk := 40, ten := 1 } } (some .im)).ten.bobs.any
        (fun e => e.2.req.any fun q => q.typ == .ownNodata && q.flg.getLsbD 0) = true)
    ∧ (∀ q ∈ [MsgType.writeback, .unlockReq, .rdShared, .subReq, .atomicReq], reqType (asking q 4 false) = some q)
    ∧ (homedHere (asked (asking .rdOwn 4 true) none) 0x60101 = false ∧ homedHere run 0x50101 = true
      ∧ ansBob (withBob { asking .rdOwn 4 true with job := job 1 4 0x50101, req := some { typ := .rdOwn, la := 0x50101, trk := 40, ten := 1 } } run)
        { (answer .nakRetry).msg with la := 0x50101 } ≠ none) := by decide +kernel

/-- A tracker with a probe out. -/
def probing (rc : Bool) (aw : Nat) (row : Nat := 990) (ph : TPhase := .probe) : Tracker :=
  { ix := 33, kind := .general, la := 0x50101, src := 1, srcHk := 4, phase := ph, awaited := BitVec.ofNat 62 aw, isRecall := rc, claim := true, row := row
    msg := { typ := .rdOwn, cls := .c1, trk := 8, ten := 2, la := 0x50101 } }

/-- `run` with that tracker. -/
def tracked (t : Tracker) : State := { run with home := { run.home with trks := [t] } }

theorem test_met_ProbesAndTheirAnswers : forNode run (answer .invalidate) = true ∧ copyOf run 0x60101 = none ∧ heldOf run 0x60101 = none
    ∧ (copyOf (withCopy (copy 0x60101 .s)) 0x60101).isSome = true ∧ (copyOf (withCopy (copy 0x60101 .m)) 0x60101).any (·.2.st == .m) = true
    ∧ awaiting run (rx .invAck 0x50101).msg 3 = none ∧ (rx .recallData 0x50101).msg.param.toNat % 64 ≠ run.trn.node
    ∧ awaiting (tracked (probing false 4)) (rx .invAck 0x50101).msg 3 = some (probing false 4)
    ∧ (awaiting (tracked (probing true 4)) (rx .recallNodata 0x50101 1).msg 3 = some (probing true 4) ∧ (probing true 4).phase ≠ .wb
      ∧ (probing true 4).purpose = .request)
    ∧ forNode standby (answer .invalidate) = false
    ∧ (∀ st ∈ [CState.s, .p, .is, .sm, .e, .m, .mi], (copyOf (withCopy (copy 0x60101 st)) 0x60101).map (·.2.st) = some st)
    ∧ ((heldOf (withCopy { copy 0x60101 .m with held := some (33, 935) }) 0x60101).isSome = true
      ∧ copyOf (withCopy { copy 0x60101 .m with held := some (33, 935) }) 0x60101 = none
      ∧ (copyOf (withCopy { copy 0x60101 .s with again := some (40, 990, true) }) 0x60101).any (fun e => e.2.again.any fun a => a.1 == 40) = true
      ∧ (copyOf (withCopy (copy 0x60101 .s)) 0x60101).any (fun e => e.2.again.isNone) = true)
    ∧ (forNode run (answer .recallData 0 (BitVec.ofNat 32 (2 + 64 * 40 + 65536))) = true
      ∧ (BitVec.ofNat 32 (2 + 64 * 40 + 65536)).toNat % 64 = run.trn.node ∧ bitsOf (BitVec.ofNat 32 (2 + 64 * 40 + 65536)).toNat 6 10 = 40
      ∧ bitsOf (BitVec.ofNat 32 (2 + 64 * 40 + 65536)).toNat 16 3 = 1
      ∧ (copyOf (asked (asking .rdShared 1 true) (some .is)) 0x60101).any (fun e => e.2.st == .is && e.2.bob == some 40) = true)
    ∧ (awaiting (tracked (probing true 4)) (rx .recallNodata 0x50101 0).msg 3 = some (probing true 4)
      ∧ queuedWriteback (tracked (probing true 4)) 0x50101 3 = none ∧ (queuedWriteback { run with home := { run.home with trks := [probing true 4,
        { ix := 34, kind := .general, la := 0x50101, src := 3, srcHk := 6, msg := (rx .writeback 0x50101).msg }] } } 0x50101 3).isSome = true)
    ∧ (awaiting (tracked (probing true 4 990 .wb)) (rx .recallNodata 0x50101).msg 3 = some (probing true 4 990 .wb)
      ∧ awaiting (tracked { probing true 4 with purpose := .restore }) (rx .recallData 0x50101).msg 3 = some { probing true 4 with purpose := .restore }
      ∧ (rx .recallData 0x50101 1).msg.flg.getLsbD 0 = true) := by decide +kernel

/-- Line 5 of role 3. -/
def roleLine : Nat := roleLa 3 5

/-- A MIG_DIR of role `k` from line `x` with one entry, shared by node 3. -/
def fullDir (k x : Nat) : LineMsg := { (rx .migDir (roleLa k x)).msg with param := 1, data := 4 + 2 ^ 62 }

/-- `run` with the filter set of that line full and no reserved tracker free. -/
def noRoom (k x : Nat) : State := { run with home := { run.home with
  filter := (List.range 12).map fun i => (xOf (roleLa k x) % 1024 + 1024 * (i + 20), { st := .sh, vec := nodeBit 3, seq := i })
  trks := (List.range 128).map fun i => { probing true 4 with ix := 896 + i, kind := .reserved } } }

theorem test_met_TimersAndTransfers :
    ((bobOf (withBob { asking .rdShared 1 true with left := some 996 } run) 40).any (fun v => v.left == some 996 && v.wait == .answer) = true
      ∧ rfld run 0x8000 0 8 ≤ run.tm.rows - 996 ∧ run.tm.rows - 997 < rfld run 0x8000 0 8)
    ∧ (trkOf (tracked (probing true 4)) 33 = some (probing true 4) ∧ (probing true 4).phase = .probe ∧ rfld run 0x8000 8 8 ≤ run.tm.rows - 990
      ∧ run.tm.rows - 1000 < rfld run 0x8000 8 8)
    ∧ ((tracked (probing true 4 0 .queued)).home.trks.find? (fun t => t.la == 0x50101 && t.phase == .way) = none
      ∧ isBusy (tracked (probing true 4 0 .queued)) 0x50101 = false ∧ isBusy (tracked (probing true 4)) 0x50101 = true
      ∧ (tracked (probing true 4 0 .queued)).home.trks.find? (fun t => t.la == 0x50101) = some (probing true 4 0 .queued))
    ∧ (leaseOn { run with home := { run.home with leases := [{ la := 0x50101, node := 3, ten := 1, expiry := 100 }] } } 0x50101
        = some { la := 0x50101, node := 3, ten := 1, expiry := 100 }
      ∧ leaseExpired run { la := 0x50101, node := 3, ten := 1, expiry := 100 } = true
      ∧ leaseExpired run { la := 0x50101, node := 0, ten := 1, expiry := 101 } = false)
    ∧ ((heldOf (withCopy { copy 0x60101 .m with held := some (4, 935) }) 0x60101).isSome = true ∧ 65 ≤ run.tm.rows - 935
      ∧ run.tm.rows - 936 < 65 ∧ copyOf (withCopy { copy 0x60101 .m with held := some (4, 936) }) 0x60101 = none)
    ∧ (forNode run (rx .migLine roleLine) = true ∧ roleOf (laHk roleLine) = some 3 ∧ newer (homeLine run roleLine).version 9 = false)
    ∧ (migInOf { run with trn := { run.trn with migIn := [{ role := 3, src := 3, mirror := false, got := [(4, 8), (5, 9)], dirs := [0] }] } } 3 false
        = some { role := 3, src := 3, mirror := false, got := [(4, 8), (5, 9)], dirs := [0] }
      ∧ (rx .migDone roleLine 0 0x10002).msg.param.toNat % 65536 ≤ 2 + 0
      ∧ (rx .migDone roleLine 0 0x10002).msg.param.toNat / 65536 ≤ 1 ∧ 2 + 0 < (rx .migDone roleLine 0 0x10003).msg.param.toNat % 65536)
    ∧ ({ run with trn := { run.trn with migOut := [{ role := 3, dst := 1, mirror := false, todo := [], dirs := [] }] } } : State).trn.migOut[0]?
        = some { role := 3, dst := 1, mirror := false, todo := [], dirs := [] }
    ∧ ((bobOf (withBob (asking .rdShared 1 true) run) 40).any (fun v => v.left.isNone) = true
      ∧ trkOf (tracked { probing true 4 990 .mirror with purpose := .mirror }) 33 = some { probing true 4 990 .mirror with purpose := .mirror }
      ∧ (probing true 4 990 .queued).phase ≠ .probe)
    ∧ ((tracked (probing true 4 0 .way)).home.trks.find? (fun t => t.la == 0x50101 && t.phase == .way) = some (probing true 4 0 .way)
      ∧ (tracked { probing true 4 0 .way with purpose := .dir { st := .sh, vec := nodeBit 3 } }).home.trks.any (fun t => t.purpose == .dir { st := .sh, vec := nodeBit 3 }) = true
      ∧ hasFifo run 0x50101 = false ∧ passed (probing true 4 0 .queued) = false)
    ∧ (leaseOn run 0x50101 = none ∧ (copyOf (withCopy { copy 0x60101 .s with again := some (4, 935, true) }) 0x60101).any
        (fun e => e.2.again.any fun a => decide (65 ≤ run.tm.rows - a.2.1)) = true
      ∧ heldOf (withCopy { copy 0x60101 .s with again := some (4, 935, true) }) 0x60101 = none)
    ∧ (forNode standby (rx .migLine roleLine) = false ∧ roleOf (laHk 0x50001) = none)
    ∧ ((rx .migLine roleLine 1).msg.flg.getLsbD 0 = true ∧ (rx .migLine roleLine 2).msg.flg.getLsbD 1 = true ∧ (rx .migLine roleLine).msg.flg.getLsbD 1 = false
      ∧ newer 12 9 = true ∧ ({ (rx .migLine roleLine 1) with mig := true } : Rx).mig = true ∧ (rx .migLine roleLine 1).mig = false)
    ∧ (dirFits (rx .migDir (roleLa 3 8)).msg run = true ∧ (∀ i < 8, hasWay run ((rx .migDir (roleLa 3 8)).msg.la + i) = true)
      ∧ laLx (roleLa 3 8) % 8 = 0 ∧ laLx (roleLa 3 8) < 0x400 ∧ (dirEntry (fullDir 3 8) run 0).isSome = true
      ∧ dirFits (fullDir 3 8) (noRoom 3 8) = false)
    ∧ (({ role := 3, src := 3, mirror := false, done := true } : MigIn).done = true
      ∧ (rx .migDone roleLine 1).msg.dst ≠ 63 ∧ ({ (rx .migDone roleLine 1).msg with dst := 63 } : LineMsg).dst = 63
      ∧ run.trn.holders.getD 4 0 ≠ run.trn.node)
    ∧ (migInOf { run with trn := { run.trn with migIn := [{ role := 3, src := 3, mirror := false, done := true }] } } 3 false
        = some { role := 3, src := 3, mirror := false, done := true } ∧ roleOf (laHk (roleLa 3 0)) = some 3)
    ∧ ((some 998 : Option Nat).any fun d => decide (2 ≤ run.tm.rows - d)) = true ∧ ((some 999 : Option Nat).any fun d => decide (2 ≤ run.tm.rows - d)) = false := by
  and_intros <;> decide +kernel

/-- A data frame of node 1 as `s` receives it. -/
def hdr (seq : Nat) (ep : Word := 7) : FrameHdr := { kind := 1, cls := 1, src := 1, srcHk := 4, epoch := ep, fseq := seq, stitch := 3, row := 0, hoop := 100 }

def frameOf (h : FrameHdr) : RawFrame := ⟨.a, .e1, frameBytes run .a .e1 h [.line (rx .readHome 0x50001).msg], true⟩

/-- `run` with the stream of node 1 in class C1. -/
def stream (e : Option Nat) (held : List Nat) (clk : Nat) : State := { run with lan := { run.lan with
  streams := [(streamKey 1 1, { e := e, held := held.map fun q => (q, .a, clk, (readFrame (frameOf (hdr q)).bytes).1) })] } }

/-- Bytes of a frame that is not Adezo's. -/
def foreign (n : Nat) : List Byte := List.replicate 12 1 ++ [8, 0] ++ List.replicate n 0

/-- A MAC control frame. -/
def pause : List Byte := List.replicate 12 1 ++ [0x88, 8] ++ List.replicate 46 0

theorem test_met_FramesAreCheckedAndSequenced : rxOpen run .c .e1 = false ∧ isAdezo run .a (foreign 50) = false
    ∧ (rxOpen run .a .e1 = true ∧ isAdezo run .a (frameOf (hdr 5)).bytes = true ∧ (readFrame (frameOf (hdr 5)).bytes).1.hdr.kind = 1
      ∧ crcOk ((frameOf (hdr 5)).bytes.drop 14) = true ∧ (readFrame (frameOf (hdr 5)).bytes).2 = false)
    ∧ crcOk (((frameOf (hdr 5)).bytes.set 30 0xFF).drop 14) = false ∧ (sideOf run .a .e1).link ≠ .gated
    ∧ ownEpoch run (hdr 5) = true ∧ ownEpoch run (hdr 5 8) = false
    ∧ (0x8000 ≤ (5 + 65536 - 6) % 65536 ∧ (5 + 65536 - 5) % 65536 = 0 ∧ (5 + 65536 - 65534) % 65536 = 7
      ∧ (streamOf (stream (some 65534) [] 0) (streamKey 1 1)).held.any (·.1 == 5) = false ∧ heldAll (stream (some 65534) [] 0) < 64)
    ∧ ((streamOf (stream (some 65534) [5] 0) (streamKey 1 1)).held.any
        (fun h => reordTmo (stream (some 65534) [5] 0) h.2.1 ≤ (stream (some 65534) [5] 0).tm.clk - h.2.2.1) = true
      ∧ (nextHeld (streamOf (stream (some 65534) [5] 0) (streamKey 1 1))).any (fun h => h.1 == 5) = true)
    ∧ (streamOf (stream (some 65534) [5] (10 ^ 12)) (streamKey 1 1)).held.any
        (fun h => reordTmo (stream (some 65534) [5] (10 ^ 12)) h.2.1 ≤ (stream (some 65534) [5] (10 ^ 12)).tm.clk - h.2.2.1) = false
    ∧ run.lan.copies = []
    ∧ (({ run with lan := { run.lan with copies := [{ kind := 0, stitch := 3, lane := .b, side := .e1, stamp := 5
                                                      frame := (readFrame (frameOf (hdr 0)).bytes).1 }] } } : State).lan.copies.filter
        fun c => c.kind == 0 && c.stitch == 3).head?.isSome = true
    ∧ ((sideOf (side fun x => { x with link := .gated }) .a .e1).link = .gated ∧ rxOpen (side fun x => { x with link := .gated }) .a .e1 = true)
    ∧ ((frameOf (hdr 5)).fcsOk = true ∧ ({ frameOf (hdr 5) with fcsOk := false } : RawFrame).fcsOk = false ∧ (hdr 5).cls ≠ 3
      ∧ (readFrame (frameOf { hdr 5 with cls := 3 }).bytes).1.hdr.cls = 3 ∧ kindOf (frameOf { hdr 5 with kind := 2 }).bytes = 2
      ∧ (readFrame (frameOf { hdr 5 with kind := 0 }).bytes).1.hdr.kind = 0 ∧ (readFrame (frameOf { hdr 5 with kind := 3 }).bytes).1.hdr.kind = 3)
    ∧ (64 ≤ heldAll (stream (some 65534) (List.range 64) 0) ∧ 8 ≤ (6 + 65536 - 65534) % 65536 ∧ (5 + 65536 - 5) % 65536 < 8)
    ∧ (({ run with lan := { run.lan with decided := [(copyKey (hdr 0), 5)] } } : State).lan.decided.any (·.1 == copyKey (hdr 0)) = true
      ∧ run.lan.decided.any (·.1 == copyKey (hdr 0)) = false)
    ∧ (streamOf run (streamKey 1 1)).e = none := by decide +kernel

/-- An end port at E1 of lane A with foreign frames waiting, in `run` with foreign frames carried. -/
def endport (n : Nat) (f : State → State := id) : State := side (fun x => { x with noPeer := true, entry := List.replicate n (foreign 100) })
  (f { run with lan := { run.lan with fore := true } })

/-- The same in the foreign window of the pattern in force. -/
def inWindow (n : Nat) : State := modLane .a (fun x => { x with fwin := true })
  (endport n fun s => { s with kee := runPat.kee, tm := { s.tm with rowClk := s.tm.clk - 3000000 } })

theorem test_met_FramesAreRepeatedAndForwarded : repeats run .c .e1 = false ∧ isMacControl pause = true
    ∧ (run.lan.lanes.length = 3 ∧ repeats run .a .e1 = true ∧ isMacControl (frameOf (hdr 5)).bytes = false ∧ isAdezo run .a (frameOf (hdr 5)).bytes = true
      ∧ kindOf (frameOf (hdr 5)).bytes = 1 ∧ ¬(run.tm.clk < (sideOf run .a .e2).busyTill))
    ∧ ((side (fun x => { x with busyTill := 10 ^ 12 + 1, busyOwn := true })).tm.clk < (sideOf (side (fun x => { x with busyTill := 10 ^ 12 + 1, busyOwn := true })) .a .e1).busyTill
      ∧ elasticFull run (sideOf (side (fun x => { x with busyTill := 10 ^ 12 + 1, busyOwn := true })) .a .e1) = false
      ∧ elasticFull run (sideOf (side (fun x => { x with elastic := some ([1], true) })) .a .e1) = true
      ∧ (sideOf (side (fun x => { x with elastic := some ([1], true) })) .a .e1).elastic = some ([1], true)
      ∧ (sideOf (side (fun x => { x with elastic := some ([1], true) })) .a .e1).busyTill + 12 * byteUnits run .a ≤ run.tm.clk)
    ∧ endPort run .a .e1 = false
    ∧ (endPort (endport 3) .a .e1 = true ∧ isAdezo (endport 3) .a (foreign 1504) = false ∧ isMacControl (foreign 1504) = false
      ∧ (foreign 1504).length = 1518 ∧ 1518 < (foreign 1505).length ∧ 4 ≤ (sideOf (endport 4) .a .e1).entry.length
      ∧ (sideOf (endport 3) .a .e1).entry.length < 4
      ∧ ((sideOf (endport 3) .a .e1).entry.map List.length).foldl (· + ·) (foreign 1504).length ≤ 6144 ∧ (laneAt (endport 3) .a).fwin = false)
    ∧ (run.pat.cur ≠ 4 ∧ laneMaint run .a = false ∧ endPort run .a .e2 = false)
    ∧ (endPort (inWindow 1) .a .e1 = true ∧ (sideOf (inWindow 1) .a .e1).entry = [foreign 100] ∧ (sideOf (inWindow 1) .a .e2).busyTill ≤ run.tm.clk
      ∧ mayStart (inWindow 1) .a run.tm.clk = true ∧ (sideOf (inWindow 1) .a .e2).link = .up)
    ∧ (isAdezo run .a (foreign 100) = false ∧ (sideOf run .a .e1).noPeer = false ∧ mayStart run .a run.tm.clk = false ∧ foreignFits (foreign 100) = true
      ∧ repeats (inWindow 1) .a .e2 = true ∧ (sideOf (inWindow 1) .a .e2).noPeer = false ∧ mayStart (inWindow 1) .a (inWindow 1).tm.clk = true)
    ∧ (kindOf (frameOf { hdr 5 with kind := 2 }).bytes = 2 ∧ (frameOf (hdr 5)).fcsOk = true)
    ∧ ((sideOf run .a .e1).elastic = none
      ∧ run.tm.clk < (sideOf (side fun x => { x with elastic := some ([1], true), busyTill := 10 ^ 12 }) .a .e1).busyTill + 12 * byteUnits run .a
      ∧ laneMaint (put (lanBase 0) 7 run) .a = true ∧ laneMaint run .a = false ∧ isAdezo run .a (frameOf (hdr 5)).bytes = true)
    ∧ (run.pat.cur = 0 ∧ ({ run with pat := { run.pat with cur := 4 } } : State).pat.cur = 4) := by
  decide +kernel

/-- `runPat` without the mastership: SEL is 1. -/
def following : State := put 0x2000 1 run

/-- `run` with staged values. -/
def staging (hold : Bool) (clk : Nat) : State := { run with
  pat := { run.pat with hold := hold }, reg := { run.reg with staged := [(0x2000, 5)], stagedClk := [(0x2000, clk)] } }

/-- INAUG in Agreement on pattern I of three nodes, with everything heard, in the row of this node's control stitch. -/
def controlling (f : State → State) : State := f { runPat with
  dev := { run.dev with st := .inaug }, pat := { runPat.pat with cur := 4 }
  trn := { run.trn with
    step := 3, propN := 3, propNode := 2, propHks := [4, 5, 6], list := [{ hk := 4 }, { hk := 5 }, { hk := 6 }] } }

theorem test_met_RowsHoopsAndStitches : off.dev.st = .off
    ∧ (following.dev.st = .run ∧ following.trn.restartNext = false ∧ following.lan.mute = false ∧ following.tm.master = false
      ∧ rfld following 0x2000 0 2 = 1 ∧ following.tm.sawOther = false ∧ following.trn.enterNext = false ∧ following.pat.nrowNext = none ∧ following.ten.owed = [])
    ∧ (run.dev.st ≠ .off ∧ run.pat.props = [] ∧ run.home.attrWait = [] ∧ run.trn.cutHoop = none ∧ run.tm.virtNext = false ∧ run.dbg.halted = false)
    ∧ (tget (staging false 0).reg.staged 0x2000 = some 5 ∧ 80000 ≤ run.tm.clk - tgetD (staging false (10 ^ 12 - 80000)).reg.stagedClk 0x2000 0
      ∧ run.tm.clk - tgetD (staging false (10 ^ 12 - 79999)).reg.stagedClk 0x2000 0 < 80000)
    ∧ ((staging true 0).pat.hold = true ∧ (staging true 0).pat.holdClr = none)
    ∧ ((stitchAt runPat 4).any (fun x => x.stype == 1 && mayLaunch runPat x && x.lmode != 2) = true ∧ runPat.lan.launched = []
      ∧ runPat.lan.fseq.length = 3 ∧ runPat.lan.lanes.length = 3 ∧ stitchAt runPat 11 = none)
    ∧ (sideOf run .a .e1).delayed = none
    ∧ ((sideOf (side fun x => { x with delayed := some ([1], 3, 5) }) .a .e1).delayed = some ([1], 3, 5)
      ∧ (sideOf (side fun x => { x with delayed := some ([1], 3, 5) }) .a .e1).busyTill ≤ run.tm.clk ∧ txSlip run .a < run.tm.clk - 5
      ∧ run.tm.clk - (10 ^ 12 - 1) ≤ txSlip run .a)
    ∧ ((train fun t => { t with enterNext := true }).trn.enterNext = true
      ∧ ({ runPat with tm := { runPat.tm with master := true, row := 0 } } : State).tm.master = true ∧ rfld runPat 0x2000 0 2 ≠ 1 ∧ runPat.trn.memb ≠ .isolated
      ∧ (rowStitches runPat).any (fun e => e.2.stype == 0) = true)
    ∧ ((tgetD ({ (staging false (10 ^ 12)).reg with earlier := [(0x2000, [(7, 10 ^ 12 - 80000)])] } : RegSt).earlier 0x2000 []).find?
      (fun e => decide (80000 ≤ run.tm.clk - e.2)) = some (7, 10 ^ 12 - 80000))
    ∧ (∃ e ∈ rowStitches runPat, e.2.stype ≠ 1 ∧ e.2.stype ≠ 3 ∧ e.2.stype ≠ 4)
    ∧ ((stitchAt (controlling id) 258).any (fun x => x.stype == 4 && x.owner == 2) = true ∧ controlMsgs (controlling id) ≠ []
      ∧ timed (controlling id) = true)
    ∧ run.tm.clk < (sideOf (side fun x => { x with delayed := some ([1], 3, 5), busyTill := 10 ^ 12 + 1 }) .a .e1).busyTill := by decide +kernel

/-- INAUG at a step, three nodes listed, this one the second. -/
def inaug (f : TrnSt → TrnSt) : State := { run with
  dev := { run.dev with st := .inaug }
  trn := f { run.trn with propN := 3, propNode := 2, propHks := [4, 5, 6], list := [{ hk := 4 }, { hk := 5 }, { hk := 6 }] } }

/-- What was heard of one node. -/
def heardRec (drained : Bool) : ClaimRec :=
  { claim := some {}, dig0 := some { va := true, da := 5, pen := 1 }, dig1 := some { part := true }, drained := drained }

/-- Everything was heard of all three. -/
def heardAll (f : TrnSt → TrnSt) : State :=
  inaug fun t => f { t with step := 3, claims := [(1, heardRec true), (2, heardRec true), (3, heardRec true)] }

theorem test_met_InaugurationRuns : (run.dev.st = .run ∧ run.trn.isoRestarts = false) ∧ (standby.dev.st ≠ .run ∧ standby.dev.st ≠ .inaug)
    ∧ ((inaug fun t => { t with step := 3 }).dev.st = .inaug ∧ repeated (inaug fun t => { t with step := 3 }) true { hk := 9, cause := 3 } = false
      ∧ repeated (inaug fun t => { t with step := 3, callers := [(8 * 9 + 3, 999)] }) true { hk := 9, cause := 3 } = true
      ∧ repeated (inaug fun t => { t with step := 3, callers := [(8 * 9 + 3, 998)] }) true { hk := 9, cause := 3 } = false
      ∧ (decide ((3 : Nat) ≠ 2) && !(inaug id).trn.restartCounted) = true ∧ (inaug fun t => { t with step := 3, restarts := 2 }).trn.restarts < 3
      ∧ 3 ≤ (inaug fun t => { t with step := 3, restarts := 3 }).trn.restarts)
    ∧ (run.lan.lanes.length = 3 ∧ addsEntry (inaug fun t => { t with step := 2 }) = true ∧ addsEntry (inaug fun t => { t with noEntry := true }) = false)
    ∧ (laneList (inaug id) (laneAt (modSide .a .e1 (fun x => { x with wave := some [{ complete := true, last := true, first := 1, count := 1, entries := [{ hk := 4 }] }] }) (inaug id)) .a) = none)
    ∧ (laneList (inaug id) { (laneAt run .a) with
        e1 := { sideUp with wave := some [{ complete := true, last := true, first := 1, count := 1, entries := [{ hk := 4 }] }] }
        e2 := { sideUp with wave := some [{ complete := true, last := true, first := 1, count := 1, entries := [{ hk := 6 }] }] } }).isSome = true
    ∧ (inaugOpen run = false ∧ inaugOpen (heardAll id) = true ∧ (heardAll id).trn.step = 3
      ∧ allHeard (modClaim 3 (fun r => { r with claim := some {} }) (heardAll id)) = true
      ∧ allHeard (modClaim 3 (fun r => { r with claim := some {} }) (inaug fun t => { t with step := 3 })) = false)
    ∧ allDrained (modClaim 3 (fun r => { r with drained := true }) (heardAll fun t => { t with step := 4, frozen := true, wasDrained := true })) = true
    ∧ allDrained (heardAll fun t => { t with step := 4 }) = false
    ∧ ((inaug fun t => { t with step := 4, agreed := some 9 }).trn.agreed = some 9 ∧ (inaug fun t => { t with step := 6, agreed := some 9 }).trn.step = 6)
    ∧ (maxAttempts run ≤ (inaug fun t => { t with step := 3, confirmRow := true, attempts := 3 }).trn.attempts ∧ (inaug id).trn.attempts < maxAttempts run)
    ∧ ((if bandFast run then 15 else 3) ≤ run.tm.rows - 985 ∧ run.tm.rows - 986 < (if bandFast run then 15 else 3))
    ∧ (rfld run 0x7000 8 8 * 8000000000 ≤ ({ run with trn := { run.trn with isoRestarts := true, isoClk := 0 } } : State).tm.clk - 0) := by
  decide +kernel

/-- An outcome of one node. -/
def outcome1 : Outcome := { n := 1, ver := 1, slot := 0, digest := 0, epoch := 0, dominant := 0, holders := [], hks := [4] }

theorem test_met_InaugurationRuns_agreement : ownOutd (heardAll fun t => { t with outcome := some outcome1 }) = some (outd outcome1)
    ∧ allConfirm (heardAll fun t => { t with propN := 1, propNode := 1, outcome := some outcome1 }) = true
    ∧ ownOutd (heardAll id) = none
    ∧ (ownOutd (heardAll fun t => { t with step := 3 }) ≠ some 5 ∧ (inaug fun t => { t with step := 2 }).trn.step = 2)
    ∧ ((inaug fun t => { t with step := 3, agreed := none, confirmRow := true, restartCounted := true }).trn.restartCounted = true
      ∧ (inaug fun t => { t with step := 4, frozen := false }).trn.frozen = false ∧ (inaug id).trn.isoRestarts = false)
    ∧ ((inaug fun t => { t with step := 6, propIso := 0, noPat := true }).trn.node ≠ 0 ∧ run.pat.cur < 4
      ∧ (inaug fun t => { t with propIso := 1 }).trn.propIso ≠ 0) := by decide +kernel

/-- A PROPOSE of pattern 2, which is in no slot. -/
def proposal : PatMsg := { target := 2, proposer := 1, phoop := 100 }

theorem test_met_PatternSwitchMessages : standby.dev.st ≠ .run ∧ (run.dev.st = .run ∧ run.trn.node ≠ 0)
    ∧ run.pat.props.any (samePrp proposal) = false
    ∧ ({ run with pat := { run.pat with props := [{ target := 2, proposer := 1, hoop := 100, digest := 0, sent := true }] } } : State).pat.props.any (samePrp proposal) = true
    ∧ (∃ r ∈ [1, 2, 3, 4, 5, 6, 7, 8, 9, 10, 11, 12, 13, 14, 15, 16, 17, 18, 19, 20], prpAnswer run proposal = some r)
    ∧ prpAnswer run { proposal with target := 0x82 } = some 0
    ∧ prpAnswer { run with trn := { run.trn with memb := .listenOnly } } { proposal with target := 0x82 } = none
    ∧ stewardly (.tenant 1) = false ∧ (stewardly .steward = true ∧ reachable run = true ∧ (0 : Word).getLsbD 0 = false)
    ∧ ((staging true 0).pat.hold = true ∧ (staging true 0).pat.holdClr = none)
    ∧ (({ proposal with target := 0x82 } : PatMsg).target = 0x82 ∧ (prpOf run proposal).target < 4 ∧ 4 ≤ (prpOf run { proposal with target := 0x82 }).target)
    ∧ ((prpOf run proposal).nack = none
      ∧ (prpOf { run with pat := { run.pat with props := [{ target := 2, proposer := 1, hoop := 100, digest := 0, sent := true, nack := some (3, 19) }] } } proposal).nack = some (3, 19))
    ∧ ((1 : Word).getLsbD 0 = true ∧ run.pat.hold = false) := by decide +kernel

theorem test_met_EveryStepKeepsTheInvariant : NodeInv State.reset ∧ step State.reset = .next (coreCycle State.reset) :=
  ⟨⟨by unfold MemoriesWf; decide +kernel, by decide +kernel, by decide +kernel, by decide +kernel, by decide +kernel,
    by decide +kernel⟩, rfl⟩

theorem test_met_SentFramesReadBack : HdrOk { pver := 15, kind := 3, cls := 3, src := 63, srcHk := 255, stitch := 255, row := 15, pat := 7, fseq := 65535 }
    ∧ MsgOk 3 (.range { rseq := 31 }) ∧ MsgOk 3 (.inaug { step := 4, cause := 31, num := 3, hk := 255, unit := 65535 })
    ∧ MsgOk 1 (.line { (rx .rdShared 0xFFFFFF).msg with data := 0 }) ∧ (areaOf [.range { rseq := 31 }]).length < 65536 := by
  refine ⟨⟨?_, ?_, ?_, ?_, ?_, ?_, ?_, ?_, ?_⟩, ?_, ?_, ⟨?_, ?_, ?_, ?_, ?_, ?_, ?_, ?_⟩, ?_⟩ <;> (try unfold MsgOk) <;> decide +kernel

theorem test_met_LineWorkLeavesTheRest : (∃ t, exec (.rdShared (rx .rdShared 0x50001)) run = .next t) ∧ ∃ t, exec (.read 40) (cmd 1 []) = .next t :=
  ⟨⟨_, rfl⟩, ⟨_, rfl⟩⟩

/-! ### Ill-formed commands, one for each check -/

theorem test_wf_bobbin : (Instr.read 511).wf = true ∧ (Instr.read 512).wf = false := by decide

theorem test_wf_tenant : (Instr.tenDb 7 0).wf = true ∧ (Instr.tenDb 8 0).wf = false ∧ (Instr.registerWrite (.tenant 8) 0 0).wf = false := by decide

theorem test_wf_port : (Instr.busOn 1).wf = true ∧ (Instr.busOn 2).wf = false := by decide

theorem test_wf_offset : (Instr.registerWrite .steward 0xFFFFC 0).wf = true ∧ (Instr.registerWrite .steward 0x100000 0).wf = false
    ∧ (Instr.dapacc 0x100000 false false 0).wf = false := by decide

theorem test_wf_message : (Instr.ack (rx .ack 0xFFFFFF)).wf = true ∧ (Instr.ack (rx .ack 0x1000000)).wf = false
    ∧ (Instr.ack { rx .ack 5 with src := 0 }).wf = false ∧ (Instr.ack { rx .ack 5 with src := 63 }).wf = false
    ∧ (Instr.ack { rx .ack 5 with srcHk := 256 }).wf = false ∧ LineMsg.wf { typ := .ack, dst := 64 } = false
    ∧ LineMsg.wf { typ := .ack, trk := 1024 } = false ∧ LineMsg.wf { typ := .ack, ten := 8 } = false ∧ LineMsg.wf { typ := .ack, age := 256 } = false := by
  decide

theorem test_wf_can_frame : CanFrame.wf canFrame = true ∧ CanFrame.wf { canFrame with id := 0x800 } = false
    ∧ CanFrame.wf { canFrame with id := 0x20000000, ide := true } = false ∧ CanFrame.wf { canFrame with dlc := 16 } = false
    ∧ CanFrame.wf { canFrame with data := List.replicate 65 0 } = false := by decide

theorem test_wf_spi_frame : (Instr.ramRead (spiFrame 0xFFFFFF 0 [])).wf = true ∧ (Instr.ramRead { spiFrame 0 0 [] with port := 4 }).wf = false
    ∧ (Instr.ramRead (spiFrame 0x1000000 0 [])).wf = false ∧ (Instr.spiFrameInvalid 4).wf = false := by decide

theorem test_wf_lines_and_nodes : (Instr.leaseExpiry 0x1000000).wf = false ∧ (Instr.homeResend 1024).wf = false
    ∧ (Instr.reorderTimeout 63 .c1).wf = false ∧ (Instr.confirm 0 {}).wf = false ∧ (Instr.migrationRetry 8).wf = false
    ∧ (Instr.couplerEdge 3 true).wf = false ∧ (Instr.bindRxWrite 256).wf = false := by decide

theorem test_wf_frames : (Instr.frameRepeat ⟨.a, .e1, List.replicate 1535 0, true⟩).wf = false
    ∧ (Instr.foreignFrameReceive .a .e1 (List.replicate 1535 0)).wf = false ∧ (Instr.ownStitchStart 513).wf = false
    ∧ (Instr.laneCopyTimeout 4 0).wf = false ∧ (Instr.disc .a .e1 (List.replicate 7 {})).wf = false
    ∧ (Instr.range .a .e1 { rseq := 32 }).wf = false := by decide +kernel

theorem test_wf_indexes : (Instr.zxEdge 3 true).wf = false ∧ (Instr.zxInputMissing 3).wf = false ∧ (Instr.picotOutputEdge 24).wf = false
    ∧ (Instr.evtPendClear .steward 16 0).wf = false ∧ (Instr.pmcCycleWrap 80).wf = false ∧ (Instr.detectorFire 48 0 0 false).wf = false
    ∧ (Instr.ccWayOff 4 0).wf = false ∧ (Instr.ccWayOff 0 16).wf = false ∧ (Instr.keeRead 256).wf = false
    ∧ (Instr.pinMuxWrite .steward 30 0).wf = false ∧ (Instr.glbClkgateWrite .steward 7 0).wf = false := by decide

theorem test_wf_car_bus : (Instr.objLock 0 128).wf = false ∧ (Instr.qtxRequest 0 3).wf = false ∧ (Instr.rxqAck 0 2 0).wf = false
    ∧ (Instr.rxqAck 0 0 64).wf = false ∧ (Instr.errFrame 0 16 0 0).wf = false := by decide

theorem test_wf_pcie : (Instr.pcieFunctionReset .flr 8).wf = false ∧ (Instr.msixGapEnd 0 0).wf = false ∧ (Instr.msixGapEnd 8 1).wf = false
    ∧ (Instr.pcieConfigWrite (.memSpace 8 true)).wf = false ∧ (Instr.pcieConfigWrite (.msixVecMask 0 8 true)).wf = false := by decide

/-- No row of the table gives its command bits, so no word spells one. -/
theorem test_decode_none : decodeTableWord 16 0x1234 = none ∧ decodeTableWord 0 0 = none := ⟨rfl, rfl⟩

/-! ### Single commands on small states, with results worked out from the spec -/

/-- The check values of CRC-32 of IEEE 802.3 and of CRC-16/CCITT with initial value FFFFh, for the digits 1 to 9. -/
theorem test_crcs : crc32 [0x31, 0x32, 0x33, 0x34, 0x35, 0x36, 0x37, 0x38, 0x39] = 0xCBF43926
    ∧ crc16 [0x31, 0x32, 0x33, 0x34, 0x35, 0x36, 0x37, 0x38, 0x39] = 0x29B1 := by decide +kernel

/-- 14 R693: a CORE cycle is 2.5 ns, 20 units of the local clock; a command in front runs instead. -/
theorem test_step : (match step State.reset with | .next t => t.tm.clk == State.reset.tm.clk + 20 | _ => false) = true
    ∧ (match step { State.reset with pending := [.pinTick, .rowStart] } with | .next t => t.pending == [.rowStart] | _ => false) = true := by decide +kernel

/-- 00 R4: the hoop counter wraps modulo 2^32. -/
theorem test_hoop_wraps : (after .hoopBoundary (timing fun t => { t with hoop := 0xFFFFFFFF })).tm.hoop = 0 := by decide +kernel

/-- 00 R13, 13: OTP_CFG's field takes 1 to 100. -/
theorem test_write_clamped : regCur (after (.registerWrite .steward 0xC018 101) run) 0xC018 = 100
    ∧ (after (.registerWrite .steward 0xC018 101) run).evt.pend.getLsbD 432 = true ∧ regCur (after (.registerWrite .steward 0xC018 0) run) 0xC018 = 1 := by
  decide +kernel

/-- 14 R691: STRAP0 gives AUTOSTART. -/
theorem test_power_up : rbit (after (.powerUpStart 1) off) 0x00C 1 = true ∧ rbit (after (.powerUpStart 14) off) 0x00C 1 = false
    ∧ (after (.powerUpStart 14) off).dev.straps = 14 := by decide +kernel

/-- 09 R446: an address past 3FFFh wraps inside the port's quarter of the ring RAM. -/
theorem test_ram_wraps : memGet (after (.ramWrite (spiFrame 0x3FFF 1 [0x11, 0x22])) spi).ten.ram 0xFFFF = 0x11
    ∧ memGet (after (.ramWrite (spiFrame 0x3FFF 1 [0x11, 0x22])) spi).ten.ram 0xC000 = 0x22 := by decide +kernel

/-- 03 R133: the second poll in a row that reads 1 declares the link up. -/
theorem test_link_polls : (sideOf (after (.mdioPoll .a .e1 0xFFFF true true) (side fun x => { x with link := .down, ones := 0 })) .a .e1).link = .down
    ∧ (sideOf (after (.mdioPoll .a .e1 0xFFFF true true) (side fun x => { x with link := .down, ones := 1 })) .a .e1).link = .gated := by decide +kernel

/-- 03 R173: RSEQ counts modulo 32. -/
theorem test_ranging_wraps : (sideOf (after (.rangingStitchStart .a) (side fun x => { x with rseq := 31 })) .a .e1).rseq = 0 := by decide +kernel

/-- 02 R73, R77: the second row missed in SYNC leads to HOLDOVER. -/
theorem test_reference_missed : (after .referenceMissed (timing fun t => { t with miss := 1 })).tm.tstate = .holdover
    ∧ (after .referenceMissed run).tm.tstate = .sync := by decide +kernel

/-- 06 R305: a write-through commits with the next version, modulo 2^32. -/
theorem test_wr_publish : (homeLine (after (.wrPublish (rx .wrPublish 0x50001))
      { run with home := { run.home with lines := [(1, { data := 7, version := 0xFFFFFFFF })] } }) 0x50001).version = 0
    ∧ (homeLine (after (.wrPublish (rx .wrPublish 0x50001)) run) 0x50001).data = 0x99 := by decide +kernel

/-- 06 R307: a CLAIM line that no node holds is granted E to its reader. -/
theorem test_rd_shared_claim : (fEntry (after (.rdShared (rx .rdShared 0x50101)) run) 0x50101).any (fun e => e.st == .ex && e.vec == nodeBit 3) = true := by
  decide +kernel

/-- 06 R300: INVALIDATE drops an S copy, and leaves an M copy of another line. -/
theorem test_invalidate : (after (.invalidateMsg (answer .invalidate)) (withCopy (copy 0x60101 .s))).cc.ways = []
    ∧ (after (.invalidateMsg { answer .invalidate with msg := { (answer .invalidate).msg with la := 0x60102 } }) (withCopy (copy 0x60101 .m))).cc.ways.length = 1 := by
  decide +kernel

/-- 06 R326: a lock is granted up to the present hoop and the hoops asked for; R329: it ends at its expiry hoop. -/
theorem test_lease : (leaseOn (after (.lockReq (rx .lockReq 0x50101 0 5)) run) 0x50101).any (fun l => l.expiry == 105 && l.node == 3) = true
    ∧ (after (.leaseExpiry 0x50101) { run with home := { run.home with leases := [{ la := 0x50101, node := 3, ten := 1, expiry := 101 }] } }).home.leases.length = 1
    ∧ (after (.leaseExpiry 0x50101) { run with home := { run.home with leases := [{ la := 0x50101, node := 3, ten := 1, expiry := 100 }] } }).home.leases = [] := by
  decide +kernel

/-- 03 R161–R163: FSEQ counts modulo 65536; a frame expected is taken, an old one is a duplicate. -/
theorem test_streams : (streamOf (after (.adezoFrameReceive (frameOf (hdr 65535))) (stream (some 65535) [] 0)) (streamKey 1 1)).e = some 0
    ∧ ctrGet (after (.adezoFrameReceive (frameOf (hdr 65535))) (stream (some 0) [] 0)) (lanCtr 0 4) = 1 := by decide +kernel

/-- 11 R590: a transmit error count past 255 takes the port off the bus. -/
theorem test_bus_off : (portOf (after (.errFrame 0 3 256 0) (port fun c => { c with st := .active })) 0).st = .recovering
    ∧ (portOf (after (.errFrame 0 3 255 0) (port fun c => { c with st := .active })) 0).st = .passive
    ∧ (portOf (after (.errFrame 0 3 127 127) (port fun c => { c with st := .active })) 0).st = .active := by decide +kernel

/-- 11 R572, R573: a frame goes to the lowest object that matches. -/
theorem test_can_receive : memGets (portOf (after (.canFrameReceived 0 canFrame 77 false) (object 3 0x1108 0)) 0).mem (64 * 3 + 20) 8 = [1, 2, 3, 4, 5, 6, 7, 8]
    ∧ bitOf (objStat (after (.canFrameReceived 0 canFrame 77 false) (object 3 0x1108 0)) 0 3) 0 = true := by decide +kernel

/-- 02 R106: the capture FIFO has 16 entries. -/
theorem test_capture : (chOf (after (.picotCapture 3 true false) (capturing 3 15 false)) 3).fifo.length = 16
    ∧ (chOf (after (.picotCapture 3 true false) (capturing 3 16 false)) 3).ovf = true := by decide +kernel

/-- 09 R457: a doorbell's tail counts modulo the ring's size. -/
theorem test_doorbell : (tenOf (after (.tenDb 3 0x11) (rings 3 0x111)) 3).sqTail = 1 := by decide +kernel

/-- 08 R428: page 2 is no steward page. -/
theorem test_keep_write : (after (.keeWrite 2) run).kee.err = 1 := by decide +kernel

/-- 12 R622, R623: a take and a write need their enables. -/
theorem test_debug_refused : (after (.dapacc 0xC018 true false 5) (attached id)).dbg.status = 3
    ∧ regCur (after (.dapacc 0xC018 true false 5) (attached id)) 0xC018 = 10
    ∧ regCur (after (.dapacc 0xC018 true false 5) (put 0xE000 4 (attached id))) 0xC018 = 5 := by decide +kernel

/-- 04 R217: GO for a pattern sets the switch at hoop n + 4, modulo 2^32. -/
theorem test_go : (after (.patSwitchGo { proposal with target := 2, phoop := 0xFFFFFFFE }) run).pat.switchAt = some (2, 2) := by decide +kernel

/-- 10 R508: a WRITE into an E copy puts its 64 bytes there, and the copy is M. -/
theorem test_write : (copyOf (after (.write 40) (lineCmd 4 0x60101 true (withCopy (copy 0x60101 .e)))) 0x60101).any
      (fun e => e.2.st == .m && lineBytes e.2.data == List.replicate 64 3) = true := by decide +kernel

end Sys2Proof.Tests
end

section
/-! PROOFS. Misaligned register accesses (00 R9). -/

namespace Sys2Proof.Machine

/-- The event of a misaligned access is ACCESS_ALIGN, number 0 (00 R9). -/
theorem badAccess_raised (off : Nat) (s : State) : Raised 0 (badAccess off s) := raise_pend (by decide) _ s

theorem badAccess_reports (off : Nat) (s : State) : Reports s (badAccess off s) := raise_reports 0 _ s

theorem exec_accessAlign_of_reachable {s : State} (hs : reachable s = true) (w : Who) (off : Nat) (wr : Bool) :
    exec (.accessAlign w off wr) s
      = .next (badAccess (absOff w off) (if wr then s else { s with out := .regData off 0 :: s.out })) := by
  change execAccessAlign w off wr s = _
  simp [execAccessAlign, hs]

/-- A misaligned write never gets to the register: the access fault is all it does (00 R9). -/
theorem exec_registerWrite_of_misaligned {s : State} (hs : reachable s = true) {off : Nat} (ho : off % 4 ≠ 0) (w : Who) (v : Word) :
    exec (.registerWrite w off v) s = .next (badAccess (absOff w off) s) := by
  change execRegisterWrite w off v s = _
  simp [execRegisterWrite, writeBy, hs, ho]

/-- Settles O4: both commands end in the access fault, which raises event 0 and otherwise only reports. -/
theorem misalignedAccessIsIgnoredAndReported : Obligations.MisalignedAccessIsIgnoredAndReported := by
  intro w off s hs
  refine ⟨fun wr => ?_, fun v ho => ?_⟩
  · exact ⟨_, exec_accessAlign_of_reachable hs w off wr, badAccess_raised _ _, badAccess_reports _ _⟩
  · exact ⟨_, exec_registerWrite_of_misaligned hs ho w v, badAccess_raised _ _, badAccess_reports _ _⟩

end Sys2Proof.Machine
end

section
/-! PROOFS. Registers read back after a checked write (00 R12, R13). -/

namespace Sys2Proof.Machine

@[simp] theorem regCur_regSet_same (off v : Nat) (s : State) : regCur (regSet off v s) off = (word v).toNat := by
  simp only [regCur, regSet, RegSt.put]
  split
  · next h => simp [tget_tdel_same, word, ← h]
  · simp [tget_tset_same]

/-- Recording clamps leaves every register's value in force as it was. -/
@[simp] theorem regCur_logClamps (cause : ClampBy) (loc : Nat) (cs : List Clamped) (s : State) (off : Nat) :
    regCur (logClamps cause loc cs s) off = regCur s off := by
  simp only [regCur, (logClamps_reports cause loc cs s).cur]

theorem regCur_regPutChecked_of_unstaged {off : Nat} (h : isStaged off = false) (cause : ClampBy) (v : Nat) (s : State) :
    regCur (regPutChecked cause off v s) off = (word (regCheck s off v).1).toNat := by
  simp [regPutChecked, regStore, h]

/-- Bit 0, once put, reads back as what was put there. -/
theorem bitOf_word_putBits_zero (old x : Nat) : bitOf (word (putBits old 0 1 x)).toNat 0 = bitOf x 0 := by
  have h : putBits old 0 1 x % 2 = x % 2 := by
    simp only [putBits, bitsOf, pow_zero, Nat.div_one, pow_one, mul_one]
    omega
  have hw : (word (putBits old 0 1 x)).toNat % 2 = putBits old 0 1 x % 2 := by
    simp [word, Nat.mod_mod_of_dvd]
  simp [bitOf, hw, h]

theorem bitOf_toNat (v : Word) (i : Nat) : bitOf v.toNat i = v.getLsbD i := by
  rw [BitVec.getLsbD, Nat.testBit_eq_decide_div_mod_eq]
  rfl

end Sys2Proof.Machine
end

section
/-! PROOFS. Performance counters: where their registers lie, and what reads, writes, CLR and wraps do to them (12 R611–R614). The debug
port's accesses, which latch a counter as a software read does (12 R621–R623). -/

namespace Sys2Proof.Machine

/-! ### Where the registers of counter `i` lie (12 R631) -/

theorem pmcSelOff_bounds {i : Nat} (hi : i < 80) : 0xB100 ≤ pmcSelOff i ∧ pmcSelOff i + 0x10 ≤ 0xB600 ∧ pmcSelOff i % 0x10 = 0 := by
  unfold pmcSelOff
  split <;> omega

/-- The sixteen bytes from a counter's selector are that counter's own. -/
theorem pmcIx_of_pmcSelOff {i r : Nat} (hi : i < 80) (hr : r < 0x10) : pmcIx ((pmcSelOff i + r) % 0x1000) = some i := by
  unfold pmcIx pmcSelOff
  split_ifs <;> first | omega | (congr 1; omega)

/-- A selector takes effect at once: it is not staged (15 R718). -/
theorem isStaged_pmcSelOff {i : Nat} (hi : i < 80) : isStaged (pmcSelOff i) = false := by
  revert i
  decide

theorem isCounter_of_pmc {off : Nat} (h : 0xB000 ≤ off ∧ off < 0xC000) : isCounter off = false := by
  simp [isCounter]
  omega

theorem clears_of_not_counter {w : Who} {off : Nat} (h : isCounter (absOff w off) = false) (s : State) : clears s w off = false := by
  unfold clears
  dsimp only
  rw [h, Bool.false_and, Bool.false_and]

/-! ### Reads of LO (12 R614) -/

theorem absOff_of_stewardly {w : Who} (hw : stewardly w = true) (off : Nat) : absOff w off = off := by
  cases w with
  | tenant n => simp [stewardly] at hw
  | steward | debug => rfl

theorem readBy_of_stewardly {w : Who} (hw : stewardly w = true) (s : State) (off : Nat) : readBy s w off = readWord s off := by
  cases w with
  | tenant n => simp [stewardly] at hw
  | steward | debug => rfl

theorem readWord_pmc {off : Nat} (h : 0xB000 ≤ off ∧ off < 0xC000) (s : State) : readWord s off = readPmc s (off % 0x1000) := by
  unfold readWord
  rw [if_neg (by omega), if_neg (by omega), if_neg (by omega), show off / 0x1000 = 0xB by omega]
  rfl

/-- LO reads the low word of its counter. -/
theorem readWord_pmcLo {i : Nat} (hi : i < 80) (s : State) :
    readWord s (pmcSelOff i + 4) = (tgetD s.pmc.ctr i {}).val % 2 ^ 32 := by
  obtain ⟨hlo, hup, hal⟩ := pmcSelOff_bounds hi
  rw [readWord_pmc (by omega)]
  unfold readPmc
  rw [pmcIx_of_pmcSelOff hi (by omega), show (pmcSelOff i + 4) % 0x1000 % 0x10 = 4 by omega]
  rfl

/-- The one side effect of a read of LO is the latch of the counter's upper bits. -/
theorem readEffect_pmcLo {w : Who} (hw : stewardly w = true) {i : Nat} (hi : i < 80) (s : State) :
    readEffect w (pmcSelOff i + 4) s = pmcLatch i s := by
  obtain ⟨hlo, hup, hal⟩ := pmcSelOff_bounds hi
  have hin : 0xB000 ≤ pmcSelOff i + 4 ∧ pmcSelOff i + 4 < 0xC000 := by omega
  have hc : clears s w (pmcSelOff i + 4) = false := by
    refine clears_of_not_counter ?_ s
    rw [absOff_of_stewardly hw]
    exact isCounter_of_pmc hin
  have h4 : (pmcSelOff i + 4) % 0x10 = 4 := by omega
  simp only [readEffect, absOff_of_stewardly hw, hc, Bool.false_eq_true, if_false, if_pos hin, h4, if_true,
    pmcIx_of_pmcSelOff hi (show 4 < 0x10 by omega)]

theorem exec_pmcLoRead {w : Who} (hw : stewardly w = true) {i : Nat} (hi : i < 80) {s : State} (hs : reachable s = true) :
    exec (.pmcLoRead w (pmcSelOff i + 4)) s
      = .next (pmcLatch i { s with out := .regData (pmcSelOff i + 4) (word ((tgetD s.pmc.ctr i {}).val % 2 ^ 32)) :: s.out }) := by
  obtain ⟨hlo, hup, hal⟩ := pmcSelOff_bounds hi
  change execPmcLoRead w (pmcSelOff i + 4) s = _
  unfold execPmcLoRead readOut
  rw [if_pos ⟨hw, by omega, by omega, by omega⟩, if_neg (by simp [hs]), if_neg (by omega), readEffect_pmcLo hw hi,
    readBy_of_stewardly hw, readWord_pmcLo hi]

/-! ### Writes of a selector, and CLR (12 R611, R631) -/

theorem exec_pmcSelWrite {w : Who} (hw : stewardly w = true) {i : Nat} (hi : i < 80) {s : State} (hs : reachable s = true) (v : Word) :
    exec (.pmcSelWrite w (pmcSelOff i) v) s = .next (pmcSelWrite (byWho w) i v.toNat s) := by
  obtain ⟨hlo, hup, hal⟩ := pmcSelOff_bounds hi
  have hix : pmcIx (pmcSelOff i % 0x1000) = some i := pmcIx_of_pmcSelOff (r := 0) hi (by omega)
  change execPmcSelWrite w (pmcSelOff i) v s = _
  unfold execPmcSelWrite
  rw [if_pos ⟨by simp [mayWrite, hw, hs], by omega, by omega, by omega⟩, hix]

theorem regCur_pmcSelWrite {i : Nat} (hi : i < 80) (cause : ClampBy) (v : Nat) (s : State) :
    regCur (pmcSelWrite cause i v s) (pmcSelOff i) = (word (regCheck s (pmcSelOff i) v).1).toNat :=
  regCur_regPutChecked_of_unstaged (isStaged_pmcSelOff hi) cause v s

theorem pmcSelWrite_clears (cause : ClampBy) (i v : Nat) (s : State) :
    (tgetD (pmcSelWrite cause i v s).pmc.ctr i {}).val = 0 ∧ (tgetD (pmcSelWrite cause i v s).pmc.ctr i {}).ovf = false := by
  simp [pmcSelWrite, tgetD]

theorem exec_pmcCtrlClr {w : Who} (hw : stewardly w = true) {s : State} (hs : reachable s = true) (v : Word) :
    exec (.pmcCtrlClr w v) s = .next (pmcCtrlWrite (byWho w) v.toNat s) := by
  change execPmcCtrlClr w v s = _
  simp [execPmcCtrlClr, mayWrite, hw, hs]

/-- PMC_CTRL stores EN, its one field, and CLR is no part of it (12 R631). -/
theorem regCheck_pmcCtrl (s : State) (v : Nat) : (regCheck s 0xB000 v).1 = putBits (regHeld s 0xB000) 0 1 (bitsOf v 0 1) := rfl

theorem rbit_pmcCtrlWrite (cause : ClampBy) (v : Nat) (s : State) : rbit (pmcCtrlWrite cause v s) 0xB000 0 = bitOf v 0 := by
  have hreg : regCur (pmcCtrlWrite cause v s) 0xB000 = regCur (regPutChecked cause 0xB000 v s) 0xB000 := by
    unfold pmcCtrlWrite
    dsimp only
    split <;> rfl
  rw [rbit, hreg, regCur_regPutChecked_of_unstaged (by decide), regCheck_pmcCtrl, bitOf_word_putBits_zero]
  simp [bitOf, bitsOf]

/-- A table with every entry changed by `f`: an unlisted key stays unlisted. -/
theorem tget_map {α β : Type} (t : Table α) (f : α → β) (k : Nat) : tget (t.map fun e => (e.1, f e.2)) k = (tget t k).map f := by
  induction t with
  | nil => rfl
  | cons e t ih =>
    simp only [List.map_cons, tget, ih]
    split <;> rfl

/-- CLR leaves every counter at 0 and its sticky bit clear, those never counted included. -/
theorem pmcCtrlWrite_clears {v : Nat} (hv : bitOf v 1 = true) (cause : ClampBy) (s : State) (j : Nat) :
    (tgetD (pmcCtrlWrite cause v s).pmc.ctr j {}).val = 0 ∧ (tgetD (pmcCtrlWrite cause v s).pmc.ctr j {}).ovf = false := by
  have h : tget (pmcCtrlWrite cause v s).pmc.ctr j
      = (tget (regPutChecked cause 0xB000 v s).pmc.ctr j).map fun c => { c with val := 0, ovf := false } := by
    rw [pmcCtrlWrite, if_pos hv]
    exact tget_map _ (fun c : Pmc => { c with val := 0, ovf := false }) _
  rw [tgetD, h]
  cases tget (regPutChecked cause 0xB000 v s).pmc.ctr j with
  | none => exact ⟨rfl, rfl⟩
  | some c => exact ⟨rfl, rfl⟩

/-! ### A wrap in cycles (12 R613) -/

theorem exec_pmcCycleWrap {i : Nat} (hi : i < 80) {s : State} (hon : pmcOn s i = true)
    (he : cycleEvent (rfld s (pmcSelOff i) 0 8) = true) :
    exec (.pmcCycleWrap i) s = .next (raise 456 (detN i 0)
      { s with pmc := { s.pmc with ctr := tset s.pmc.ctr i { (tgetD s.pmc.ctr i {}) with val := 0, ovf := true } } }) := by
  change execPmcCycleWrap i s = _
  exact congrArg _ (if_pos ⟨hi, hon, he⟩)

/-! ### DAPACC, by what lets it pass (12 R621–R624) -/

theorem exec_dapacc_of_fusedOff {s : State} (h : s.dbg.dbgDis = true) (addr : Nat) (wr take : Bool) (data : Word) :
    exec (.dapacc addr wr take data) s = .next (dapEnd 3 s.dbg.data s) := by
  change execDapacc addr wr take data s = _
  simp [execDapacc, h]

theorem exec_dapacc_of_open {s : State} (hd : s.dbg.dbgDis = false) (hs : reachable s = true) (addr : Nat) (wr take : Bool) (data : Word) :
    exec (.dapacc addr wr take data) s = .next
      (if wr then dapWrite (addr % 2 ^ 20 / 4 * 4) data (dapNote s) else dapRead (addr % 2 ^ 20 / 4 * 4) take (dapNote s)) := by
  change execDapacc addr wr take data s = _
  simp [execDapacc, hd, hs]

theorem dapNote_of_accessed {s : State} (h : s.dbg.accessed = true) : dapNote s = s := if_pos h

/-- Once the port has been used, an access of an aligned address is the read or the write of it alone. -/
theorem exec_dapacc_of_accessed {s : State} (hd : s.dbg.dbgDis = false) (hs : reachable s = true) (ha : s.dbg.accessed = true)
    {addr : Nat} (h4 : addr % 4 = 0) (h20 : addr < 2 ^ 20) (wr take : Bool) (data : Word) :
    exec (.dapacc addr wr take data) s = .next (if wr then dapWrite addr data s else dapRead addr take s) := by
  have h : addr % 2 ^ 20 / 4 * 4 = addr := by omega
  rw [exec_dapacc_of_open hd hs, dapNote_of_accessed ha, h]

/-! ### Its reads (12 R614, R622) -/

/-- A peek of LO latches as a software read does, and the port shows the low word. -/
theorem dapRead_pmcLo {i : Nat} (hi : i < 80) (s : State) :
    dapRead (pmcSelOff i + 4) false s = pmcLatch i (dapEnd 0 (word ((tgetD s.pmc.ctr i {}).val % 2 ^ 32))
      { s with out := .regData (pmcSelOff i + 4) (word ((tgetD s.pmc.ctr i {}).val % 2 ^ 32)) :: s.out }) := by
  obtain ⟨hlo, hup, hal⟩ := pmcSelOff_bounds hi
  unfold dapRead
  rw [if_neg (by simp), if_neg (by simp), if_pos (by omega), readEffect_pmcLo rfl hi, readWord_pmcLo hi]

/-- A peek of anything else but a counter's LO only shows the value. -/
theorem dapRead_peek {a : Nat} (h : ¬(0xB000 ≤ a ∧ a < 0xC000 ∧ a % 0x10 = 4)) (s : State) :
    dapRead a false s = dapEnd 0 (word (readWord s a)) { s with out := .regData a (word (readWord s a)) :: s.out } := by
  unfold dapRead
  rw [if_neg (by simp), if_neg (by simp), if_neg h]

theorem dapRead_take_refused {s : State} (h : rbit s 0xE000 3 = false) (a : Nat) : dapRead a true s = dapEnd 3 s.dbg.data s := by
  simp [dapRead, h]

/-- The side effects of a read raise no event. -/
theorem readEffect_evt (w : Who) (off : Nat) (s : State) : (readEffect w off s).evt = s.evt := by
  unfold readEffect
  dsimp only
  repeat' split
  all_goals rfl

/-- The side effects of a read leave the debug port as it is. -/
theorem readEffect_dbg (w : Who) (off : Nat) (s : State) : (readEffect w off s).dbg = s.dbg := by
  unfold readEffect
  dsimp only
  repeat' split
  all_goals rfl

theorem dapTake_evt (a : Nat) (s : State) : (dapTake a s).evt = s.evt := by
  unfold dapTake
  split
  · rfl
  · exact readEffect_evt _ _ _

theorem dapTake_dbg (a : Nat) (s : State) : (dapTake a s).dbg = s.dbg := by
  unfold dapTake
  split
  · rfl
  · exact readEffect_dbg _ _ _

/-- No read through the port raises an event of its own. -/
theorem dapRead_evt (a : Nat) (take : Bool) (s : State) : (dapRead a take s).evt = s.evt := by
  unfold dapRead
  dsimp only
  split_ifs
  · rfl
  · exact dapTake_evt _ _
  · exact readEffect_evt _ _ _
  · rfl

theorem dapRead_raised {e : Nat} {s : State} (h : Raised e s) (a : Nat) (take : Bool) : Raised e (dapRead a take s) := by
  rw [Raised, dapRead_evt]
  exact h

theorem dapRead_accessed (a : Nat) (take : Bool) (s : State) : (dapRead a take s).dbg.accessed = s.dbg.accessed := by
  unfold dapRead
  dsimp only
  split_ifs
  · rfl
  · rw [dapTake_dbg]; rfl
  · rw [readEffect_dbg]; rfl
  · rfl

/-- The first access raises DBG_ATTACH, event 15. -/
theorem dapNote_raises {s : State} (h : s.dbg.accessed = false) : Raised 15 (dapNote s) := by
  simp only [dapNote, h, Bool.false_eq_true, if_false]
  exact raise_pend (by decide) _ _

theorem dapNote_accessed (s : State) : (dapNote s).dbg.accessed = true := by
  unfold dapNote
  split
  · assumption
  · rw [(raise_reports _ _ _).dbg]

/-! ### Its writes (12 R623) -/

theorem dapWrite_refused {s : State} (h : rbit s 0xE000 2 = false) (a : Nat) (data : Word) :
    dapWrite a data s = dapEnd 3 s.dbg.data s := by
  simp [dapWrite, h]

theorem dapWrite_performed {s : State} (h : rbit s 0xE000 2 = true) (a : Nat) (data : Word) :
    dapWrite a data s = writeBy .debug a data.toNat (dapEnd 0 s.dbg.data s) := if_pos h

/-! ### The statements -/

/-- Settles O8, one clause for each command; the wrap in cycles is the model's choice of log 86. -/
theorem performanceCounterCommands : Obligations.PerformanceCounterCommands := by
  intro w i s hw hs hi
  refine ⟨exec_pmcLoRead hw hi hs, fun v hd ha => ?peek, fun v => ?sel, fun v hv => ?clr, fun hon he => ?wrap⟩
  case peek =>
    obtain ⟨hlo, hup, hal⟩ := pmcSelOff_bounds hi
    rw [exec_dapacc_of_accessed hd hs ha (by omega) (by omega), if_neg (by simp), dapRead_pmcLo hi]
    rfl
  case sel =>
    exact ⟨_, exec_pmcSelWrite hw hi hs v, regCur_pmcSelWrite hi _ _ _, pmcSelWrite_clears _ _ _ _⟩
  case clr =>
    have hclr : bitOf v.toNat 1 = true := (bitOf_toNat v 1).trans hv
    exact ⟨_, exec_pmcCtrlClr hw hs v, (rbit_pmcCtrlWrite _ _ _).trans (bitOf_toNat v 0), pmcCtrlWrite_clears hclr _ _⟩
  case wrap =>
    exact ⟨_, exec_pmcCycleWrap hi hon he, raise_pend (by decide) _ _, raise_reports _ _ _⟩

/-- Settles O10, by what lets the access pass: the fuse, the first use, then the two enables. -/
theorem debugPortAccess : Obligations.DebugPortAccess := by
  intro addr take data s
  refine ⟨fun wr hd => exec_dapacc_of_fusedOff hd addr wr take data, fun hd hs ha => ?first, fun hd hs ha h4 h20 => ?used⟩
  case first =>
    exact ⟨_, exec_dapacc_of_open hd hs addr false take data, dapRead_raised (dapNote_raises ha) _ _,
      (dapRead_accessed _ _ _).trans (dapNote_accessed s)⟩
  case used =>
    have hx := exec_dapacc_of_accessed hd hs ha h4 h20
    refine ⟨fun hlo => ?_, fun ht => ?_, fun hw => ?_, fun hw => ?_⟩
    · exact (hx false false data).trans (congrArg _ (dapRead_peek hlo s))
    · exact (hx false true data).trans (congrArg _ (dapRead_take_refused ht addr))
    · exact (hx true take data).trans (congrArg _ (dapWrite_refused hw addr data))
    · exact (hx true take data).trans (congrArg _ (dapWrite_performed hw addr data))

end Sys2Proof.Machine
end
